-- ==== Sys2Proof/Word.lean ====
section
/-! DEFINITION. The byte, and the sparse table that memories and record arrays are held in. -/

namespace Sys2Proof

/-- A byte (R4). -/
abbrev Byte := BitVec 8

/-- A table by number in canonical form: keys strictly rising, and no entry equal to the default of its type, which
is what an unlisted key reads as. Equal tables are equal lists. -/
abbrev Tab (α : Type) := List (Nat × α)

/-- A memory: bytes by offset; an unlisted byte reads 0. -/
abbrev Memory := Tab Byte

/-- Round half even of the quotient `n / d`, for `d > 0` (R169: `rne`). -/
def rneDiv (n : Int) (d : Nat) : Int :=
  let q := n / (d : Int)
  let r := 2 * (n % (d : Int))
  if r < d then q else if r > d then q + 1 else if q % 2 = 0 then q else q + 1

/-- `x` limited to the interval from `lo` to `hi`. -/
def clampInt (lo hi x : Int) : Int := if x < lo then lo else if x > hi then hi else x

end Sys2Proof
end

