-- ==== Sys2Proof/Syntax.lean ====
section
/-! DEFINITION. The commands and events of the device: one structure of parameters per command of the opcode classes,
the operands of the events, and `Instr`, with one constructor per row of spec/opcode_table.json.

A command row is a message of the command that has passed steps 1 to 4 of R100: `Hdr` says on which link and in which
slot it stands, and when it was taken. An event row says when it happens (`t`, in CT LSB) and what it brings. -/

namespace Sys2Proof

/-- The link on which a message arrived (R83, R95). -/
inductive Link where
  | host
  | maint
deriving DecidableEq, Repr, Inhabited

/-- What the header of a taken message holds (R98, R100): its link and slot, the fields of the header and the crc, and
the acceptance stamp. -/
structure Hdr where
  link   : Link := .host
  slot   : Nat := 0
  seq    : BitVec 16 := 0
  flags  : BitVec 16 := 0
  ct     : Nat := 0
  length : Nat := 0
  crc    : BitVec 32 := 0
  stamp  : Nat := 0
deriving DecidableEq, Repr, Inhabited

/-! ### Parameter structures, one per command, in the order of the opcode table -/

/-- Parameters of ECHO (R114). -/
structure Echo where
  data : List Byte := []
deriving DecidableEq, Repr, Inhabited

/-- Parameters of GET_NOTICES (R114). -/
structure GetNotices where
  max      : BitVec 8 := 0
  reserved : BitVec 24 := 0
deriving DecidableEq, Repr, Inhabited

/-- Parameters of SET_HOST_WATCHDOG (R114). -/
structure SetHostWatchdog where
  period   : BitVec 32 := 0
  action   : BitVec 8 := 0
  reserved : BitVec 24 := 0
deriving DecidableEq, Repr, Inhabited

/-- Parameters of SET_MODE (R65). -/
structure SetMode where
  target   : BitVec 8 := 0
  reserved : BitVec 24 := 0
deriving DecidableEq, Repr, Inhabited

/-- Parameters of SET_WAKE (R66). -/
structure SetWake where
  sources  : BitVec 8 := 0
  gpio     : BitVec 8 := 0
  edge     : BitVec 8 := 0
  reserved : BitVec 8 := 0
  alarm    : BitVec 64 := 0
deriving DecidableEq, Repr, Inhabited

/-- Parameters of SET_DOMAINS (R67). -/
structure SetDomains where
  offMask  : BitVec 16 := 0
  reserved : BitVec 16 := 0
deriving DecidableEq, Repr, Inhabited

/-- Parameters of DEVICE_RESET (R86). -/
structure DeviceReset where
  key : BitVec 32 := 0
deriving DecidableEq, Repr, Inhabited

/-- Parameters of BOOT_IMAGE (R86). -/
structure BootImage where
  length : BitVec 32 := 0
deriving DecidableEq, Repr, Inhabited

/-- Parameters of FUSE_PROGRAM (R81). -/
structure FuseProgram where
  row      : BitVec 8 := 0
  reserved : BitVec 24 := 0
  mask     : BitVec 64 := 0
deriving DecidableEq, Repr, Inhabited

/-- Parameters of SET_TIMING (R114). -/
structure SetTiming where
  tc       : BitVec 8 := 0
  nSep     : BitVec 8 := 0
  reserved : BitVec 16 := 0
deriving DecidableEq, Repr, Inhabited

/-- Parameters of SET_POLICY (R26). -/
structure SetPolicy where
  level    : BitVec 8 := 0
  reserved : BitVec 24 := 0
deriving DecidableEq, Repr, Inhabited

/-- Parameters of MAINT_READ (R84). -/
structure MaintRead where
  space    : BitVec 8 := 0
  reserved : BitVec 24 := 0
  offset   : BitVec 32 := 0
  length   : BitVec 32 := 0
deriving DecidableEq, Repr, Inhabited

/-- Parameters of RUN_SELFTEST (R528). -/
structure RunSelftest where
  blocks   : BitVec 8 := 0
  reserved : BitVec 24 := 0
deriving DecidableEq, Repr, Inhabited

/-- Parameters of CONFIG_ARM (R136). -/
structure ConfigArm where
  arm       : BitVec 8 := 0
  joints    : BitVec 8 := 0
  first     : BitVec 8 := 0
  reserved0 : BitVec 8 := 0
  kinds     : BitVec 16 := 0
  reserved1 : BitVec 16 := 0
  vLin      : BitVec 32 := 0
  aLin      : BitVec 32 := 0
  vRot      : BitVec 32 := 0
  aRot      : BitVec 32 := 0
deriving DecidableEq, Repr, Inhabited

/-- Parameters of SET_JOINT_LIMITS (R137). -/
structure SetJointLimits where
  joint    : BitVec 8 := 0
  reserved : BitVec 24 := 0
  vmax     : BitVec 32 := 0
  amax     : BitVec 32 := 0
  pmin     : BitVec 64 := 0
  pmax     : BitVec 64 := 0
deriving DecidableEq, Repr, Inhabited

/-- Parameters of SET_SCALING (R138). -/
structure SetScaling where
  arms     : BitVec 16 := 0
  sHost    : BitVec 16 := 0
  slew     : BitVec 16 := 0
  reserved : BitVec 16 := 0
deriving DecidableEq, Repr, Inhabited

/-- Parameters of APPEND_JOINT_MOVE (R140). -/
structure AppendJointMove where
  arm       : BitVec 8 := 0
  flags     : BitVec 8 := 0
  id        : BitVec 16 := 0
  vfrac     : BitVec 16 := 0
  afrac     : BitVec 16 := 0
  blend     : BitVec 32 := 0
  reserved0 : BitVec 32 := 0
  targets   : List (BitVec 64) := []
deriving DecidableEq, Repr, Inhabited

/-- Parameters of APPEND_CART_MOVE (R141). -/
structure AppendCartMove where
  arm       : BitVec 8 := 0
  flags     : BitVec 8 := 0
  id        : BitVec 16 := 0
  vfrac     : BitVec 16 := 0
  afrac     : BitVec 16 := 0
  blend     : BitVec 32 := 0
  reserved0 : BitVec 32 := 0
  frame     : BitVec 8 := 0
  reserved1 : BitVec 24 := 0
  x         : BitVec 32 := 0
  y         : BitVec 32 := 0
  z         : BitVec 32 := 0
  qw        : BitVec 32 := 0
  qx        : BitVec 32 := 0
  qy        : BitVec 32 := 0
  qz        : BitVec 32 := 0
deriving DecidableEq, Repr, Inhabited

/-- Parameters of STOP_ARMS (R142). -/
structure StopArms where
  arms     : BitVec 16 := 0
  flush    : BitVec 8 := 0
  reserved : BitVec 8 := 0
deriving DecidableEq, Repr, Inhabited

/-- Parameters of RESUME_ARMS (R143). -/
structure ResumeArms where
  arms     : BitVec 16 := 0
  flush    : BitVec 8 := 0
  reserved : BitVec 8 := 0
deriving DecidableEq, Repr, Inhabited

/-- Parameters of FLUSH_QUEUE (R144). -/
structure FlushQueue where
  arms     : BitVec 16 := 0
  flush    : BitVec 8 := 0
  reserved : BitVec 8 := 0
deriving DecidableEq, Repr, Inhabited

/-- Parameters of GET_ARM_STATE (R145). -/
structure GetArmState where
  arm      : BitVec 8 := 0
  reserved : BitVec 24 := 0
deriving DecidableEq, Repr, Inhabited

/-- Parameters of CONFIG_JOINT_SLOT (R190). -/
structure ConfigJointSlot where
  joint     : BitVec 8 := 0
  kind      : BitVec 8 := 0
  missLimit : BitVec 8 := 0
  flags     : BitVec 8 := 0
  uMin      : BitVec 32 := 0
  uMax      : BitVec 32 := 0
  reserved  : BitVec 32 := 0
deriving DecidableEq, Repr, Inhabited

/-- Parameters of CONFIG_ARM_SLOT (R191). -/
structure ConfigArmSlot where
  arm      : BitVec 8 := 0
  law      : BitVec 8 := 0
  axes     : BitVec 8 := 0
  reserved : BitVec 8 := 0
  fLim     : BitVec 32 := 0
  mLim     : BitVec 32 := 0
deriving DecidableEq, Repr, Inhabited

/-- Parameters of CONFIG_CURRENT_SLOT (R193). -/
structure ConfigCurrentSlot where
  group     : BitVec 8 := 0
  joint     : BitVec 8 := 0
  polePairs : BitVec 8 := 0
  reserved  : BitVec 8 := 0
  offset    : BitVec 32 := 0
  kt        : BitVec 32 := 0
  iScale    : BitVec 32 := 0
  iMax      : BitVec 32 := 0
  vDc       : BitVec 32 := 0
deriving DecidableEq, Repr, Inhabited

/-- Parameters of SET_ARM_TARGET (R192). -/
structure SetArmTarget where
  arm      : BitVec 8 := 0
  reserved : BitVec 24 := 0
  target   : List (BitVec 32) := []
deriving DecidableEq, Repr, Inhabited

/-- Parameters of LOAD_BANK (R194). -/
structure LoadBank where
  kind     : BitVec 8 := 0
  index    : BitVec 8 := 0
  reserved : BitVec 16 := 0
  record   : List Byte := []
deriving DecidableEq, Repr, Inhabited

/-- Parameters of LOAD_BANK_BLOCK (R194). -/
structure LoadBankBlock where
  offset   : BitVec 32 := 0
  length   : BitVec 32 := 0
  crc      : BitVec 32 := 0
  count    : BitVec 16 := 0
  reserved : BitVec 16 := 0
deriving DecidableEq, Repr, Inhabited

/-- Parameters of SWAP_BANKS (R178). -/
structure SwapBanks where
  preset   : BitVec 8 := 0
  reserved : BitVec 24 := 0
deriving DecidableEq, Repr, Inhabited

/-- Parameters of SET_SLOT_MODE (R196). -/
structure SetSlotMode where
  joint    : BitVec 8 := 0
  state    : BitVec 8 := 0
  reserved : BitVec 16 := 0
  uMan     : BitVec 32 := 0
deriving DecidableEq, Repr, Inhabited

/-- Parameters of GET_SLOT_STATE (R197). -/
structure GetSlotState where
  kind     : BitVec 8 := 0
  index    : BitVec 8 := 0
  reserved : BitVec 16 := 0
deriving DecidableEq, Repr, Inhabited

/-- Parameters of START_INJECTION (R210). -/
structure StartInjection where
  kind     : BitVec 8 := 0
  index    : BitVec 8 := 0
  point    : BitVec 8 := 0
  signal   : BitVec 8 := 0
  flags    : BitVec 8 := 0
  cInj     : BitVec 8 := 0
  cOut     : BitVec 8 := 0
  cFb      : BitVec 8 := 0
  n        : BitVec 32 := 0
  excLimit : BitVec 32 := 0
  velLimit : BitVec 32 := 0
  id       : BitVec 16 := 0
  axis     : BitVec 8 := 0
  reserved : BitVec 8 := 0
  block    : List Byte := []
deriving DecidableEq, Repr, Inhabited

/-- Parameters of STOP_INJECTION (R211). -/
structure StopInjection where
  kind     : BitVec 8 := 0
  index    : BitVec 8 := 0
  reserved : BitVec 16 := 0
deriving DecidableEq, Repr, Inhabited

/-- Parameters of GET_INJECTION_STATE (R212). -/
structure GetInjectionState where
  kind     : BitVec 8 := 0
  index    : BitVec 8 := 0
  reserved : BitVec 16 := 0
deriving DecidableEq, Repr, Inhabited

/-- Parameters of SET_RETUNE_BOUNDS (R213). -/
structure SetRetuneBounds where
  joint     : BitVec 8 := 0
  reserved0 : BitVec 24 := 0
  omegaC    : BitVec 32 := 0
  kpMin     : BitVec 32 := 0
  kpMax     : BitVec 32 := 0
  kiMin     : BitVec 32 := 0
  kiMax     : BitVec 32 := 0
  kdMin     : BitVec 32 := 0
  kdMax     : BitVec 32 := 0
  rMax      : BitVec 16 := 0
  reserved1 : BitVec 16 := 0
deriving DecidableEq, Repr, Inhabited

/-- Parameters of DEFINE_PROBLEM (R238). -/
structure DefineProblem where
  id        : BitVec 8 := 0
  template  : BitVec 8 := 0
  n         : BitVec 8 := 0
  run       : BitVec 8 := 0
  priority  : BitVec 8 := 0
  group     : BitVec 8 := 0
  flags     : BitVec 8 := 0
  kRef      : BitVec 8 := 0
  qA        : BitVec 8 := 0
  qL        : BitVec 8 := 0
  qB        : BitVec 8 := 0
  qX        : BitVec 8 := 0
  qR        : BitVec 8 := 0
  outerCap  : BitVec 8 := 0
  reserved0 : BitVec 16 := 0
  lambda    : BitVec 32 := 0
  pivotThr  : BitVec 32 := 0
  tol       : BitVec 32 := 0
  acc       : BitVec 32 := 0
  boundA    : BitVec 32 := 0
  boundB    : BitVec 32 := 0
  dlOff     : BitVec 32 := 0
  reserved1 : BitVec 32 := 0
deriving DecidableEq, Repr, Inhabited

/-- Parameters of REMOVE_PROBLEM (R238). -/
structure RemoveProblem where
  id       : BitVec 8 := 0
  reserved : BitVec 24 := 0
deriving DecidableEq, Repr, Inhabited

/-- Parameters of SET_PROBLEM_INPUT (R239). -/
structure SetProblemInput where
  id       : BitVec 8 := 0
  reserved : BitVec 24 := 0
  words    : List (BitVec 32) := []
deriving DecidableEq, Repr, Inhabited

/-- Parameters of GET_PROBLEM_RESULT (R240). -/
structure GetProblemResult where
  id       : BitVec 8 := 0
  reserved : BitVec 24 := 0
deriving DecidableEq, Repr, Inhabited

/-- Parameters of GET_PROBLEM_DESCRIPTOR (R240). -/
structure GetProblemDescriptor where
  id       : BitVec 8 := 0
  reserved : BitVec 24 := 0
deriving DecidableEq, Repr, Inhabited

/-- Parameters of GET_LANE_STATE (R241). -/
structure GetLaneState where
  lane     : BitVec 8 := 0
  reserved : BitVec 24 := 0
deriving DecidableEq, Repr, Inhabited

/-- Parameters of CONFIG_SEPARATION (R283). -/
structure ConfigSeparation where
  inCut : BitVec 32 := 0
  zDisc : BitVec 32 := 0
deriving DecidableEq, Repr, Inhabited

/-- Parameters of DEFINE_PAN (R283). -/
structure DefinePan where
  pan      : BitVec 8 := 0
  reserved : BitVec 8 := 0
  arms     : BitVec 16 := 0
deriving DecidableEq, Repr, Inhabited

/-- Parameters of SET_PARAM_SET (R283). -/
structure SetParamSet where
  set       : BitVec 8 := 0
  reserved0 : BitVec 24 := 0
  tLat      : BitVec 32 := 0
  tS        : BitVec 32 := 0
  c         : BitVec 32 := 0
  zD        : BitVec 32 := 0
  zR        : BitVec 32 := 0
  zIsl      : BitVec 32 := 0
  vHMin     : BitVec 32 := 0
  reserved1 : BitVec 32 := 0
deriving DecidableEq, Repr, Inhabited

/-- Parameters of LOAD_SAFETY_KINEMATICS (R283). -/
structure LoadSafetyKinematics where
  offset   : BitVec 32 := 0
  length   : BitVec 32 := 0
  crc      : BitVec 32 := 0
  count    : BitVec 16 := 0
  reserved : BitVec 16 := 0
deriving DecidableEq, Repr, Inhabited

/-- Parameters of LOAD_CAPSULES (R283). -/
structure LoadCapsules where
  offset   : BitVec 32 := 0
  length   : BitVec 32 := 0
  crc      : BitVec 32 := 0
  count    : BitVec 16 := 0
  reserved : BitVec 16 := 0
deriving DecidableEq, Repr, Inhabited

/-- Parameters of LOAD_PAIRS (R267). -/
structure LoadPairs where
  offset : BitVec 32 := 0
  length : BitVec 32 := 0
  crc    : BitVec 32 := 0
  first  : BitVec 16 := 0
  count  : BitVec 16 := 0
deriving DecidableEq, Repr, Inhabited

/-- Parameters of LOAD_ISLAND (R283). -/
structure LoadIsland where
  offset  : BitVec 32 := 0
  length  : BitVec 32 := 0
  crc     : BitVec 32 := 0
  spheres : BitVec 16 := 0
  pairs   : BitVec 16 := 0
deriving DecidableEq, Repr, Inhabited

/-- Parameters of SET_OBJECT_SOURCE (R283). -/
structure SetObjectSource where
  object     : BitVec 8 := 0
  source     : BitVec 8 := 0
  connection : BitVec 8 := 0
  entry      : BitVec 8 := 0
  age        : BitVec 32 := 0
  reserved   : BitVec 32 := 0
deriving DecidableEq, Repr, Inhabited

/-- Parameters of SET_PAN_PLANNER (R283). -/
structure SetPanPlanner where
  pan      : BitVec 8 := 0
  enable   : BitVec 8 := 0
  reserved : BitVec 16 := 0
  m        : BitVec 32 := 0
  weights  : List (BitVec 16) := []
deriving DecidableEq, Repr, Inhabited

/-- Parameters of GET_PAN_STATE (R284). -/
structure GetPanState where
  pan      : BitVec 8 := 0
  reserved : BitVec 24 := 0
deriving DecidableEq, Repr, Inhabited

/-- Parameters of GET_PAIR_RESULT (R284). -/
structure GetPairResult where
  entry    : BitVec 16 := 0
  reserved : BitVec 16 := 0
deriving DecidableEq, Repr, Inhabited

/-- Parameters of GET_OBJECT_STATE (R284). -/
structure GetObjectState where
  object   : BitVec 8 := 0
  reserved : BitVec 24 := 0
deriving DecidableEq, Repr, Inhabited

/-- Parameters of CONFIG_MOTION_PORT (R306). -/
structure ConfigMotionPort where
  port       : BitVec 8 := 0
  enable     : BitVec 8 := 0
  spiMode    : BitVec 8 := 0
  check      : BitVec 8 := 0
  clkKhz     : BitVec 16 := 0
  nBytes     : BitVec 8 := 0
  nCmd       : BitVec 8 := 0
  cmd        : List Byte := []
  offsets    : List Byte := []
  width      : BitVec 8 := 0
  reserved   : BitVec 8 := 0
  rateScale  : BitVec 32 := 0
  forceScale : BitVec 32 := 0
  rateMax    : BitVec 32 := 0
  fMax       : BitVec 32 := 0
  mount      : List (BitVec 32) := []
deriving DecidableEq, Repr, Inhabited

/-- Parameters of CONFIG_DECK (R306). -/
structure ConfigDeck where
  lever    : List (BitVec 32) := []
  tauC     : BitVec 16 := 0
  tH       : BitVec 8 := 0
  qMin     : BitVec 8 := 0
  tAvg     : BitVec 16 := 0
  reserved : BitVec 16 := 0
deriving DecidableEq, Repr, Inhabited

/-- Parameters of SET_VESSEL (R306). -/
structure SetVessel where
  displacement : BitVec 32 := 0
  gmT          : BitVec 32 := 0
  gmL          : BitVec 32 := 0
  xCf          : BitVec 32 := 0
  yCf          : BitVec 32 := 0
  heelMax      : BitVec 16 := 0
  trimMax      : BitVec 16 := 0
  hyst         : BitVec 16 := 0
  heelStop     : BitVec 16 := 0
  reserved     : BitVec 32 := 0
deriving DecidableEq, Repr, Inhabited

/-- Parameters of DEFINE_LOAD_FRAME (R292). -/
structure DefineLoadFrame where
  channel  : BitVec 8 := 0
  slot     : BitVec 8 := 0
  enable   : BitVec 8 := 0
  reserved : BitVec 8 := 0
  loadAge  : BitVec 64 := 0
deriving DecidableEq, Repr, Inhabited

/-- Parameters of SET_DECK_LIMITS (R296). -/
structure SetDeckLimits where
  arm      : BitVec 8 := 0
  reserved : BitVec 24 := 0
  fQuiet   : BitVec 32 := 0
  fLim     : BitVec 32 := 0
  hS       : BitVec 32 := 0
  tLead    : BitVec 32 := 0
deriving DecidableEq, Repr, Inhabited

/-- Parameters of CONFIG_BALLAST (R306). -/
structure ConfigBallast where
  count      : BitVec 8 := 0
  reserved   : BitVec 24 := 0
  ballastAge : BitVec 32 := 0
  tanks      : List (BitVec 32) := []
deriving DecidableEq, Repr, Inhabited

/-- Parameters of SET_BALLAST_BOUNDS (R302). -/
structure SetBallastBounds where
  dmTankMax  : BitVec 32 := 0
  dmTotalMax : BitVec 32 := 0
deriving DecidableEq, Repr, Inhabited

/-- Parameters of DECLARE_LIFT (R298). -/
structure DeclareLift where
  arm       : BitVec 8 := 0
  flags     : BitVec 8 := 0
  firstId   : BitVec 16 := 0
  lastId    : BitVec 16 := 0
  reserved0 : BitVec 16 := 0
  mass      : BitVec 32 := 0
  centres   : List (BitVec 32) := []
  reserved1 : BitVec 32 := 0
deriving DecidableEq, Repr, Inhabited

/-- Parameters of CLOSE_LIFT (R298). -/
structure CloseLift where
  arm      : BitVec 8 := 0
  reserved : BitVec 24 := 0
deriving DecidableEq, Repr, Inhabited

/-- Parameters of SEND_BALLAST_REQUEST (R302). -/
structure SendBallastRequest where
  recompute : BitVec 8 := 0
  arm       : BitVec 8 := 0
  count     : BitVec 8 := 0
  reserved  : BitVec 8 := 0
  validFor  : BitVec 32 := 0
  dm        : List (BitVec 32) := []
deriving DecidableEq, Repr, Inhabited

/-- Parameters of GET_HEEL_STATE (R306). -/
structure GetHeelState where
  arm      : BitVec 8 := 0
  reserved : BitVec 24 := 0
deriving DecidableEq, Repr, Inhabited

/-- Parameters of LOAD_KERNEL (R330). -/
structure LoadKernel where
  slot     : BitVec 8 := 0
  core     : BitVec 8 := 0
  run      : BitVec 8 := 0
  priority : BitVec 8 := 0
  group    : BitVec 8 := 0
  reserved : BitVec 24 := 0
  offset   : BitVec 32 := 0
  length   : BitVec 32 := 0
  crc      : BitVec 32 := 0
  entry    : BitVec 32 := 0
  budget   : BitVec 32 := 0
deriving DecidableEq, Repr, Inhabited

/-- Parameters of REMOVE_KERNEL (R331). -/
structure RemoveKernel where
  slot     : BitVec 8 := 0
  reserved : BitVec 24 := 0
deriving DecidableEq, Repr, Inhabited

/-- Parameters of RUN_KERNEL (R331). -/
structure RunKernel where
  slot     : BitVec 8 := 0
  reserved : BitVec 24 := 0
deriving DecidableEq, Repr, Inhabited

/-- Parameters of ASSIGN_VENDOR (R331). -/
structure AssignVendor where
  kernel    : BitVec 8 := 0
  core      : BitVec 8 := 0
  reserved0 : BitVec 16 := 0
  channels  : BitVec 16 := 0
  reserved1 : BitVec 16 := 0
deriving DecidableEq, Repr, Inhabited

/-- Parameters of GET_CORE_STATE (R332). -/
structure GetCoreState where
  core     : BitVec 8 := 0
  reserved : BitVec 24 := 0
deriving DecidableEq, Repr, Inhabited

/-- Parameters of GET_KERNEL_STATE (R332). -/
structure GetKernelState where
  slot     : BitVec 8 := 0
  reserved : BitVec 24 := 0
deriving DecidableEq, Repr, Inhabited

/-- Parameters of SET_TRACE (R346). -/
structure SetTrace where
  mode     : BitVec 8 := 0
  restart  : BitVec 8 := 0
  freeze   : BitVec 8 := 0
  reserved : BitVec 8 := 0
  post     : BitVec 32 := 0
deriving DecidableEq, Repr, Inhabited

/-- Parameters of TRACE_MARK (R349). -/
structure TraceMark where
  mark     : BitVec 16 := 0
  reserved : BitVec 16 := 0
deriving DecidableEq, Repr, Inhabited

/-- Parameters of GET_EVENT_ENTRY (R351). -/
structure GetEventEntry where
  entry    : BitVec 16 := 0
  reserved : BitVec 16 := 0
deriving DecidableEq, Repr, Inhabited

/-- Parameters of CANCEL_TASK (R350). -/
structure CancelTask where
  kind     : BitVec 8 := 0
  id       : BitVec 8 := 0
  reserved : BitVec 16 := 0
deriving DecidableEq, Repr, Inhabited

/-- Parameters of CONFIG_CHANNEL (R372). -/
structure ConfigChannel where
  channel  : BitVec 8 := 0
  kind     : BitVec 8 := 0
  source   : BitVec 16 := 0
  flags    : BitVec 8 := 0
  glitch   : BitVec 8 := 0
  reserved : BitVec 16 := 0
  lo       : BitVec 32 := 0
  hi       : BitVec 32 := 0
deriving DecidableEq, Repr, Inhabited

/-- Parameters of CONFIG_CAPTURE (R372). -/
structure ConfigCapture where
  pre      : BitVec 32 := 0
  postTime : BitVec 32 := 0
  role     : BitVec 8 := 0
  armLine  : BitVec 8 := 0
  fireLine : BitVec 8 := 0
  fireOut  : BitVec 8 := 0
  reserved : BitVec 32 := 0
deriving DecidableEq, Repr, Inhabited

/-- Parameters of SET_TRIGGERS (R372). -/
structure SetTriggers where
  enable   : BitVec 8 := 0
  reserved : BitVec 24 := 0
  conds    : List (BitVec 32) := []
deriving DecidableEq, Repr, Inhabited

/-- Parameters of CONFIG_STEP (R162). -/
structure ConfigStep where
  channel  : BitVec 8 := 0
  joint    : BitVec 8 := 0
  flags    : BitVec 8 := 0
  reserved : BitVec 8 := 0
  k        : BitVec 32 := 0
  w        : BitVec 16 := 0
  tDs      : BitVec 16 := 0
  lagLimit : BitVec 32 := 0
deriving DecidableEq, Repr, Inhabited

/-- Parameters of CONFIG_CHOPPER (R163). -/
structure ConfigChopper where
  channel   : BitVec 8 := 0
  joint     : BitVec 8 := 0
  fast      : BitVec 8 := 0
  blank     : BitVec 8 := 0
  k         : BitVec 32 := 0
  iRun      : BitVec 16 := 0
  iHold     : BitVec 16 := 0
  holdDelay : BitVec 16 := 0
  tOff      : BitVec 8 := 0
  brk       : BitVec 8 := 0
  tOnMax    : BitVec 16 := 0
  brkHi     : BitVec 8 := 0
  reserved0 : BitVec 8 := 0
  reserved1 : BitVec 32 := 0
deriving DecidableEq, Repr, Inhabited

/-- Parameters of GET_RATE_STATE (R164). -/
structure GetRateState where
  channel  : BitVec 8 := 0
  reserved : BitVec 24 := 0
deriving DecidableEq, Repr, Inhabited

/-- Parameters of CONFIG_PWM_GROUP (R390). -/
structure ConfigPwmGroup where
  group     : BitVec 8 := 0
  source    : BitVec 8 := 0
  update    : BitVec 8 := 0
  tripState : BitVec 8 := 0
  nC        : BitVec 8 := 0
  nRef      : BitVec 8 := 0
  reserved0 : BitVec 16 := 0
  tDt       : BitVec 32 := 0
  tMin      : BitVec 32 := 0
  tRf       : BitVec 32 := 0
  reserved1 : BitVec 32 := 0
deriving DecidableEq, Repr, Inhabited

/-- Parameters of SET_PWM_DUTY (R391). -/
structure SetPwmDuty where
  group     : BitVec 8 := 0
  reserved0 : BitVec 24 := 0
  dU        : BitVec 16 := 0
  dV        : BitVec 16 := 0
  dW        : BitVec 16 := 0
  reserved1 : BitVec 16 := 0
deriving DecidableEq, Repr, Inhabited

/-- Parameters of CLEAR_TRIP (R383). -/
structure ClearTrip where
  groups   : BitVec 8 := 0
  reserved : BitVec 24 := 0
deriving DecidableEq, Repr, Inhabited

/-- Parameters of GET_PWM_STATE (R393). -/
structure GetPwmState where
  group    : BitVec 8 := 0
  reserved : BitVec 24 := 0
deriving DecidableEq, Repr, Inhabited

/-- Parameters of CONFIG_BRAKE (R394). -/
structure ConfigBrake where
  brake      : BitVec 8 := 0
  joint      : BitVec 8 := 0
  fbPol      : BitVec 8 := 0
  reserved0  : BitVec 8 := 0
  tPull      : BitVec 16 := 0
  hold       : BitVec 16 := 0
  holdPeriod : BitVec 32 := 0
  tFb        : BitVec 16 := 0
  reserved1  : BitVec 16 := 0
deriving DecidableEq, Repr, Inhabited

/-- Parameters of GET_BRAKE_STATE (R395). -/
structure GetBrakeState where
  brake    : BitVec 8 := 0
  reserved : BitVec 24 := 0
deriving DecidableEq, Repr, Inhabited

/-- Parameters of CONFIG_BUS_CHANNEL (R396). -/
structure ConfigBusChannel where
  channel  : BitVec 8 := 0
  mode     : BitVec 8 := 0
  phyAddr  : BitVec 8 := 0
  reserved : BitVec 8 := 0
deriving DecidableEq, Repr, Inhabited

/-- Parameters of CONFIG_DRIVE_PROFILE (R405). -/
structure ConfigDriveProfile where
  segment  : BitVec 8 := 0
  reserved : BitVec 24 := 0
  tApply   : BitVec 32 := 0
  tHold    : BitVec 32 := 0
deriving DecidableEq, Repr, Inhabited

/-- Parameters of DRIVE_PARAM (R410). -/
structure DriveParam where
  channel : BitVec 8 := 0
  slot    : BitVec 8 := 0
  op      : BitVec 8 := 0
  sub     : BitVec 8 := 0
  index   : BitVec 16 := 0
  n       : BitVec 16 := 0
  timeout : BitVec 32 := 0
  data    : List Byte := []
deriving DecidableEq, Repr, Inhabited

/-- Parameters of GET_BUS_STATS (R410). -/
structure GetBusStats where
  channel  : BitVec 8 := 0
  clear    : BitVec 8 := 0
  reserved : BitVec 16 := 0
deriving DecidableEq, Repr, Inhabited

/-- Parameters of LOAD_SCHEDULE (R415). -/
structure LoadSchedule where
  offset   : BitVec 32 := 0
  length   : BitVec 32 := 0
  crc      : BitVec 32 := 0
  set      : BitVec 8 := 0
  reserved : BitVec 24 := 0
deriving DecidableEq, Repr, Inhabited

/-- Parameters of CONFIG_SYNC (R435). -/
structure ConfigSync where
  set       : BitVec 8 := 0
  guard     : BitVec 8 := 0
  syncLoss  : BitVec 8 := 0
  claim     : BitVec 8 := 0
  wAcc      : BitVec 16 := 0
  oLim      : BitVec 16 := 0
  rateLim   : BitVec 16 := 0
  reserved0 : BitVec 16 := 0
  reserved1 : BitVec 32 := 0
deriving DecidableEq, Repr, Inhabited

/-- Parameters of GRANT_SPARE (R431). -/
structure GrantSpare where
  set       : BitVec 8 := 0
  slot      : BitVec 8 := 0
  owner     : BitVec 8 := 0
  reserved0 : BitVec 8 := 0
  claimId   : BitVec 32 := 0
  dProp     : BitVec 16 := 0
  reserved1 : BitVec 16 := 0
deriving DecidableEq, Repr, Inhabited

/-- Parameters of RELEASE_SLOT (R431). -/
structure ReleaseSlot where
  set      : BitVec 8 := 0
  slot     : BitVec 8 := 0
  reserved : BitVec 16 := 0
deriving DecidableEq, Repr, Inhabited

/-- Parameters of GET_SCHEDULE_ENTRY (R435). -/
structure GetScheduleEntry where
  set      : BitVec 8 := 0
  slot     : BitVec 8 := 0
  reserved : BitVec 16 := 0
deriving DecidableEq, Repr, Inhabited

/-- Parameters of GET_SYNC_STATE (R435). -/
structure GetSyncState where
  set      : BitVec 8 := 0
  reserved : BitVec 24 := 0
deriving DecidableEq, Repr, Inhabited

/-- Parameters of CONFIG_HIERARCHY (R436). -/
structure ConfigHierarchy where
  cell     : BitVec 8 := 0
  arb      : BitVec 8 := 0
  reserved : BitVec 16 := 0
deriving DecidableEq, Repr, Inhabited

/-- Parameters of CONFIG_PAIR (R439). -/
structure ConfigPair where
  unit     : BitVec 8 := 0
  lanes    : BitVec 8 := 0
  connSelf : BitVec 8 := 0
  connArb  : BitVec 8 := 0
  reserved : BitVec 32 := 0
deriving DecidableEq, Repr, Inhabited

/-- Parameters of ARBITRATE_PAIR (R444). -/
structure ArbitratePair where
  cell   : BitVec 8 := 0
  enable : BitVec 8 := 0
  slot   : BitVec 8 := 0
  conn   : BitVec 8 := 0
  g      : BitVec 32 := 0
deriving DecidableEq, Repr, Inhabited

/-- Parameters of DISSOLVE_PAIR (R454). -/
structure DissolvePair where
  cell     : BitVec 8 := 0
  reserved : BitVec 24 := 0
deriving DecidableEq, Repr, Inhabited

/-- Parameters of RELEASE_LEASE (R446). -/
structure ReleaseLease where
  flags    : BitVec 8 := 0
  reserved : BitVec 24 := 0
deriving DecidableEq, Repr, Inhabited

/-- Parameters of SET_EXPORT (R438). -/
structure SetExport where
  conn     : BitVec 8 := 0
  count    : BitVec 8 := 0
  reserved : BitVec 16 := 0
  capsules : List Byte := []
  pose     : List (BitVec 32) := []
deriving DecidableEq, Repr, Inhabited

/-- Parameters of CONFIG_SIN_PAIR (R493). -/
structure ConfigSinPair where
  pair     : BitVec 8 := 0
  function : BitVec 8 := 0
  polarity : BitVec 8 := 0
  nF       : BitVec 8 := 0
  tDisc    : BitVec 16 := 0
  reaction : BitVec 8 := 0
  reserved : BitVec 8 := 0
deriving DecidableEq, Repr, Inhabited

/-- Parameters of CONFIG_STOPS (R493). -/
structure ConfigStops where
  ss1Mode  : BitVec 8 := 0
  reserved : BitVec 24 := 0
  tSs1     : BitVec 32 := 0
  tStopMax : BitVec 32 := 0
  vTol     : BitVec 32 := 0
  sosVel   : BitVec 32 := 0
  sosPos   : BitVec 32 := 0
deriving DecidableEq, Repr, Inhabited

/-- Parameters of CONFIG_SLS (R493). -/
structure ConfigSls where
  always   : BitVec 8 := 0
  reaction : BitVec 8 := 0
  reserved : BitVec 16 := 0
  vSls     : List (BitVec 32) := []
  cSls     : List (BitVec 32) := []
deriving DecidableEq, Repr, Inhabited

/-- Parameters of CONFIG_STO_EDM (R493). -/
structure ConfigStoEdm where
  tStofb   : BitVec 16 := 0
  tTp      : BitVec 16 := 0
  edmMask  : BitVec 8 := 0
  edmChan  : BitVec 8 := 0
  tEdm     : BitVec 16 := 0
  reserved : BitVec 64 := 0
deriving DecidableEq, Repr, Inhabited

/-- Parameters of CONFIG_SBC (R493). -/
structure ConfigSbc where
  brakes   : BitVec 16 := 0
  reserved : BitVec 16 := 0
  tBt      : BitVec 16 := 0
  tGrace   : BitVec 16 := 0
deriving DecidableEq, Repr, Inhabited

/-- Parameters of CONFIG_SAFETY_CONN (R493). -/
structure ConfigSafetyConn where
  conn     : BitVec 8 := 0
  dir      : BitVec 8 := 0
  set      : BitVec 8 := 0
  slot     : BitVec 8 := 0
  connId   : BitVec 32 := 0
  kind     : BitVec 8 := 0
  loss     : BitVec 8 := 0
  reserved : BitVec 16 := 0
  tWd      : BitVec 32 := 0
  tValid   : BitVec 32 := 0
deriving DecidableEq, Repr, Inhabited

/-- Parameters of CONFIG_SSM_REACTION (R493). -/
structure ConfigSsmReaction where
  pan      : BitVec 8 := 0
  reaction : BitVec 8 := 0
  restart  : BitVec 8 := 0
  reserved : BitVec 8 := 0
deriving DecidableEq, Repr, Inhabited

/-- Parameters of COMMIT_SET (R489). -/
structure CommitSet where
  check : BitVec 32 := 0
deriving DecidableEq, Repr, Inhabited

/-- Parameters of LOAD_SET_IMAGE (R494). -/
structure LoadSetImage where
  offset : BitVec 32 := 0
  length : BitVec 32 := 0
  crc    : BitVec 32 := 0
deriving DecidableEq, Repr, Inhabited

/-- Parameters of SAVE_SET_IMAGE (R494). -/
structure SaveSetImage where
  offset : BitVec 32 := 0
deriving DecidableEq, Repr, Inhabited

/-- Parameters of BRAKE_TEST (R478). -/
structure BrakeTest where
  target    : BitVec 8 := 0
  index     : BitVec 8 := 0
  reserved0 : BitVec 16 := 0
  tauTest   : BitVec 32 := 0
  tTest     : BitVec 16 := 0
  reserved1 : BitVec 16 := 0
  posTol    : BitVec 32 := 0
deriving DecidableEq, Repr, Inhabited

/-- Parameters of GET_CONN_STATE (R494). -/
structure GetConnState where
  conn     : BitVec 8 := 0
  reserved : BitVec 24 := 0
deriving DecidableEq, Repr, Inhabited

/-- Parameters of SET_FAULT_POLICY (R496). -/
structure SetFaultPolicy where
  class_   : BitVec 8 := 0
  reserved : BitVec 8 := 0
  nP       : BitVec 8 := 0
  nL       : BitVec 8 := 0
  tDec     : BitVec 32 := 0
deriving DecidableEq, Repr, Inhabited

/-- Parameters of RETIRE_CHANNEL (R509). -/
structure RetireChannel where
  channel  : BitVec 16 := 0
  reserved : BitVec 16 := 0
deriving DecidableEq, Repr, Inhabited

/-- Parameters of CLEAR_RETIREMENT (R499). -/
structure ClearRetirement where
  channel  : BitVec 16 := 0
  reserved : BitVec 16 := 0
deriving DecidableEq, Repr, Inhabited

/-- Parameters of GET_CHANNEL_STATE (R510). -/
structure GetChannelState where
  channel  : BitVec 16 := 0
  reserved : BitVec 16 := 0
deriving DecidableEq, Repr, Inhabited

/-- Parameters of JOURNAL_MARK (R509). -/
structure JournalMark where
  mark : BitVec 32 := 0
deriving DecidableEq, Repr, Inhabited

/-! ### Operands of the events -/

/-- The channels whose test fails in RUN_SELFTEST (R528). -/
structure SelftestRun where
  lanesFailed : BitVec 64 := 0
  pipesFailed : BitVec 8 := 0
  coresFailed : BitVec 8 := 0
  pwmFailed   : BitVec 8 := 0
deriving DecidableEq, Repr, Inhabited

/-- One host access to DP_DATA (R109): its width in bytes, and the data of a write. -/
structure DpAccess where
  width : Nat := 4
  write : Option (List Byte) := none
deriving DecidableEq, Repr, Inhabited

/-- One request to the burst aperture (R109): a read of `length` bytes, or a write of `data`. -/
inductive DpBurst where
  | read  (qspi : Bool) (length : Nat)
  | write (qspi : Bool) (data : List Byte)
deriving DecidableEq, Repr, Inhabited

/-- What the boot meets outside the device's own state (R72 to R77): the straps at the releasing edge, whether XCLK
runs, what the self-test finds, and the bytes at the start of the two flash slots. -/
structure BootIn where
  straps      : BitVec 8 := 0          -- [1:0] ROLE, [3:2] BOOTSEL, [5:4] HOSTSEL (R529)
  xclkRuns    : Bool := true
  fpllLocks   : Bool := true
  fuseSingle  : BitVec 16 := 0         -- rows with a single-bit error, corrected (R78)
  fuseDouble  : BitVec 16 := 0         -- rows with a double-bit error (R78)
  bistFailed  : BitVec 16 := 0         -- bit n-1: block n of R77 fails
  dispFailed  : Bool := false          -- block 7: DISP is what failed
  loopFailed  : Bool := false          -- block 7: LOOP is what failed
  lanesFailed : BitVec 36 := 0
  coresFailed : BitVec 4 := 0
  pipesFailed : BitVec 8 := 0
  models      : List (List Byte) := []   -- the arm models of the parameter image (R256)
  problems    : List DefineProblem := [] -- the firmware's problem descriptors (R222)
  slot0       : List Byte := []
  slot1       : List Byte := []
  fwStarts    : Bool := true           -- step 7
  initOk      : Bool := true           -- step 8
  copyBadA    : Bool := false          -- a copy of the safety set whose check fails (R487)
  copyBadB    : Bool := false
  durationCt  : Nat := 0               -- what the boot takes, less the wait for a host image
deriving DecidableEq, Repr, Inhabited

/-- What a wake meets (R63, R64): which source is active, and the bytes of the retained image and configuration that come
back from RETAIN changed. -/
structure WakeIn where
  source : BitVec 8 := 0               -- bit 0 host, bit 1 GPIO, bit 2 alarm
  gpio   : BitVec 8 := 0
  edge   : BitVec 8 := 0
  flips  : List (Nat × Byte) := []     -- by position in the retained image, then the retained configuration
  boot   : BootIn := default
deriving DecidableEq, Repr, Inhabited

/-- The two coils of a chopper channel (R155). -/
inductive Coil where
  | a
  | b
deriving DecidableEq, Repr, Inhabited

/-- Where a run stands when its deadline arrives (R230): the outer iterations complete, and whether it is inside a
factorisation. -/
structure RunPos where
  complete : Nat := 0
  inFactor : Bool := false
  mism     : List Nat := []              -- a mismatch restarted the run (R234): its stamp
deriving DecidableEq, Repr, Inhabited

/-- The 4-byte words of a write transaction to the registers: one, or more at rising addresses (R89, R90). -/
structure RegWords where
  word : BitVec 32
  more : List (BitVec 32) := []
deriving DecidableEq, Repr, Inhabited

/-- The interrupt sources of a signal core (R317). -/
inductive CoreIrq where
  | preempt
  | memErr
  | illegal
deriving DecidableEq, Repr, Inhabited

/-- How a user kernel's run offends (R326, R328). -/
inductive KernelFault where
  | illegal
  | access
  | budget
deriving DecidableEq, Repr, Inhabited

/-- A condition of a branch or a comparison (R321), on one or two registers. The spec names none, so these are the model's
(DESIGN CHOICE, log entry 153). -/
inductive CoreTest where
  | always
  | zero
  | nonzero
  | negative
  | equal
  | less
deriving DecidableEq, Repr, Inhabited

/-- A logic operation of the integer unit (R321). -/
inductive CoreLogic where
  | and
  | or
  | xor
deriving DecidableEq, Repr, Inhabited

/-- A register of a hardware loop level (R308, R321). -/
inductive LoopReg where
  | start
  | last
  | count
deriving DecidableEq, Repr, Inhabited

/-- The size of an access to local memory (R321). -/
inductive CoreSize where
  | byte
  | half
  | word
  | double
deriving DecidableEq, Repr, Inhabited

/-- The operations of class 0x0 (R321). -/
inductive AluForm where
  | add
  | sub
  | logic (f : CoreLogic)
  | shl
  | shr
  | compare (f : CoreTest)
  | move
  | setImm
  | getSt
  | setSt
  | getLoop (level : Bool) (r : LoopReg)
  | setLoop (level : Bool) (r : LoopReg)
deriving DecidableEq, Repr, Inhabited

/-- The operations of class 0x1 (R321). -/
inductive MacForm where
  | mul
  | mac
  | msub
deriving DecidableEq, Repr, Inhabited

/-- The operations of class 0x5 (R321). -/
inductive BranchForm where
  | jump (f : CoreTest)
  | call
  | reti
deriving DecidableEq, Repr, Inhabited

/-- The operations of class 0x7 (R315, R321): a step has two information bits, or the final odd one. -/
inductive AcsForm where
  | init
  | step (two : Bool)
  | tb
deriving DecidableEq, Repr, Inhabited

/-- The operations of class 0x8 (R321). -/
inductive SysForm where
  | endTask
  | fence
  | readCt
deriving DecidableEq, Repr, Inhabited

/-- The values that IMM gives a shift and a LOOP (R320, R321). -/
structure CoreImm where
  shift : Fin 64 := 0
  rne   : Bool := false
  last  : BitVec 18 := 0
  count : BitVec 16 := 0
deriving DecidableEq, Repr, Inhabited

/-- An instruction of a signal core by its class (R313 to R315, R321), with its operands. -/
inductive CoreOp where
  | add (pair sat : Bool) (dst a b : Fin 32)
  | sub (pair sat : Bool) (dst a b : Fin 32)
  | logic (f : CoreLogic) (dst a b : Fin 32)
  | shl (pair sat : Bool) (dst a : Fin 32) (n : Fin 64)
  | shr (pair sat : Bool) (dst a : Fin 32) (n : Fin 64)
  | compare (f : CoreTest) (dst a b : Fin 32)
  | move (dst a : Fin 32)
  | setImm (dst : Fin 32) (v : BitVec 32)
  | getSt (dst : Fin 32)
  | setSt (a : Fin 32)
  | getLoop (level : Bool) (r : LoopReg) (dst : Fin 32)
  | setLoop (level : Bool) (r : LoopReg) (a : Fin 32)
  | mac (wide sat : Bool) (f : MacForm) (a b : Fin 32) (lanes : BitVec 4)
  | mova (sat rne : Bool) (dst : Fin 32) (src : Fin 4) (shift : Fin 64)
  | load (size : CoreSize) (dst a : Fin 32) (imm : Int)
  | store (size : CoreSize) (src a : Fin 32) (imm : Int)
  | xfer (out : Bool) (dst a b : Fin 32) (n : Nat)
  | branch (f : CoreTest) (a b : Fin 32) (target : BitVec 18)
  | call (dst : Fin 32) (target : BitVec 18)
  | reti
  | loop (level : Bool) (last : BitVec 18) (count : BitVec 16)
  | acsInit
  | acsStep (two : Bool) (a : Fin 32)
  | tb (dst a : Fin 32)
  | endTask
  | fence
  | readCt (dst : Fin 32)
deriving DecidableEq, Repr, Inhabited

/-- An interrupt of a signal core (R317): its source. -/
structure CoreIntIn where
  src : CoreIrq
deriving DecidableEq, Repr, Inhabited

/-- What the engine met during a task that completes (R337): for a signal core, for how many cycles it ran; and for a standby
self-test, whether it passed (R503). -/
structure TaskIn where
  cycles : Nat := 0
  passed : Bool := true
deriving DecidableEq, Repr, Inhabited

/-- A control item of MEMA whose read showed a double-bit error (R29, R30): the schedule of a set, the move queue of an arm, a
problem descriptor. -/
inductive MemItem where
  | schedule (set : Fin 5)
  | queue (arm : Fin 16)
  | problem (id : Fin 256)
deriving DecidableEq, Repr, Inhabited

/-- What is sampled at a boundary (R21): the F400 ticks of the period that ends, the bank records (kind * 256 + index) whose
read showed a double-bit error (R178), the items of MEMA with one, whether a SEC-DED memory corrected a single-bit error in it (R30), and the die
temperature where it was updated (R93). -/
structure BoundaryIn where
  ticks     : Nat := 50000
  bankErr   : List Nat := []
  memErr    : List MemItem := []
  corrected : Bool := false
  temp      : Option (BitVec 8) := none
deriving DecidableEq, Repr, Inhabited

/-- The local samples of a quarter point (R185): the words of the sigma-delta inputs by input. -/
structure SampleIn where
  sd : List Int := []
deriving DecidableEq, Repr, Inhabited

/-- What a PIN channel's pin shows (R352): its level, and since when it has been at it. -/
structure PinEdge where
  level : Bool := false
  since : Nat := 0
deriving DecidableEq, Repr, Inhabited

/-- A received burst or Ethernet frame as the channel delivers it (R398, R400): in line mode the hard bits after the
block count, in PHY mode the Ethernet payload. -/
inductive FrameForm where
  | line (delimOk : Bool) (nb nbComp : BitVec 8) (baud : List Bool)
  | phy  (fcsOk tagged : Bool) (etherType : BitVec 16) (payload : List Byte)
deriving DecidableEq, Repr, Inhabited

/-- A frame received on channel `ch` in slot `slot`. `tObs` is the observed start of R419 before d_prop is taken
off. -/
structure FrameIn where
  ch   : Fin 10
  slot : Fin 128
  tObs : Int
  form : FrameForm
deriving DecidableEq, Repr, Inhabited

/-- A lease or health message (R440), with the ct field of the frame that carries it. -/
structure LeaseMsg where
  kind    : BitVec 8 := 0
  cell    : BitVec 8 := 0
  unit    : BitVec 8 := 0
  flags   : BitVec 8 := 0
  status  : BitVec 16 := 0
  mode    : BitVec 8 := 0
  lag     : BitVec 8 := 0
  instant : Nat := 0
  digest  : BitVec 32 := 0
  unfit   : BitVec 32 := 0
  stamp   : Nat := 0
deriving DecidableEq, Repr, Inhabited

/-- A move in a mirror record or DELTA (R448). -/
structure MirrorMove where
  arm    : Nat := 0
  notify : Bool := false
  id     : BitVec 16 := 0
  vfrac  : Nat := 0
  afrac  : Nat := 0
  blend  : Nat := 0
  joint  : Bool := true
  frame  : BitVec 8 := 0
  goal   : List Int := []
deriving DecidableEq, Repr, Inhabited

/-- What a DELTA of R448 says of a queue, an entry appended, the oldest retired, or the queue flushed; or of the predictor: a 16 Hz
value of heel, trim and heave with its stamp, or a refitted model, of each quantity the mean and amplitude, frequency and phase of
the components kept. -/
inductive MirrorDelta where
  | append (m : MirrorMove)
  | retire (arm : Nat)
  | flush  (arm : Nat)
  | value  (stamp : Nat) (phi theta z : Int)
  | model  (since : Nat) (parts : List (Rat × List (Rat × Rat × Rat)))
deriving DecidableEq, Repr, Inhabited

/-- A configured arm in a mirror record (R448). -/
structure MirrorArm where
  arm     : Nat := 0
  phase   : Nat := 0
  reason  : BitVec 8 := 0
  running : Option (BitVec 16 × Nat × Nat × Nat) := none   -- id, τ, T, t_a
  s       : Nat := 0x8000
  sHost   : Nat := 0x8000
  sSep    : Nat := 0x8000
  sDeck   : Nat := 0x8000
  stop    : Option (Nat × Nat × Nat) := none
  cmd     : List Int := []
  payload : List Int := []
  normA   : List Int := []
  normB   : List Int := []
deriving DecidableEq, Repr, Inhabited

/-- A joint slot with a law in a mirror record (R448). -/
structure MirrorJoint where
  slot   : Nat := 0
  manual : Bool := false
  flags  : BitVec 16 := 0
  last   : Int := 0
  core   : List Int := []
  coreE  : Int := 0
  stages : List (List Int × Int) := []
deriving DecidableEq, Repr, Inhabited

/-- An enabled arm slot or current slot in a mirror record (R448): its flags, its PID blocks, and an arm slot's axis outputs. -/
structure MirrorSlot where
  slot  : Nat := 0
  flags : BitVec 16 := 0
  cores : List (List Int × Int) := []
  outs  : List Int := []
deriving DecidableEq, Repr, Inhabited

/-- A problem in a mirror record (R448): the status record and the last valid solution with its stamp and residual (R240). -/
structure MirrorProblem where
  id       : Nat := 0
  status   : BitVec 16 := 0
  flags    : BitVec 16 := 0
  iters    : BitVec 8 := 0
  lane     : BitVec 8 := 0
  ended    : Nat := 0
  validAt  : Nat := 0
  residual : Int := 0
  sol      : List Int := []
deriving DecidableEq, Repr, Inhabited

/-- An open lift in a mirror record, with its interlock (R298, R448). -/
structure MirrorLift where
  p        : DeclareLift := default
  phiRef   : Int := 0
  thetaRef : Int := 0
  tankRef  : List Int := []
  phiEnd   : Int := 0
  thetaEnd : Int := 0
  holding  : Bool := false
  started  : Bool := false
  heelStop : Bool := false
deriving DecidableEq, Repr, Inhabited

/-- A mirror record k (R448). -/
structure MirrorRec where
  k        : Nat := 0
  ct       : Nat := 0
  mode     : Nat := 1
  auto     : Bool := false                -- the policy level
  xh       : Nat := 0
  pledge   : Nat := 0
  workers  : List (Nat × Nat × Nat) := [] -- cell, unit, X of each worker pair's lease
  pending  : List (Nat × Nat) := []       -- the pending transitions: target mode, effect boundary
  rho      : Int := 0
  sets     : List (Int × Nat) := []       -- e_F and state of each channel set
  retired  : List (BitVec 16) := []       -- external channels
  digest   : BitVec 32 := 0
  stoA     : Bool := false
  stoB     : Bool := false
  brk      : BitVec 16 := 0
  stepEn   : BitVec 16 := 0
  dir      : BitVec 16 := 0
  arms     : List MirrorArm := []
  joints   : List MirrorJoint := []
  armSlots : List MirrorSlot := []
  currents : List MirrorSlot := []
  problems : List MirrorProblem := []
  lifts    : List MirrorLift := []
  deck     : List (BitVec 32) := []       -- the words of R288, in the order of its table
  deltas   : List MirrorDelta := []
deriving DecidableEq, Repr, Inhabited

/-- A part of a mirror record as received (R447, R449): its header, whether its CRC matches, and in the last part the
record that the parts make up. -/
structure MirrorPart where
  last   : Bool := false
  part   : BitVec 8 := 0
  length : BitVec 16 := 0
  period : BitVec 32 := 0
  crcOk  : Bool := true
  rec?   : Option MirrorRec := none
deriving DecidableEq, Repr, Inhabited

/-! ### The commands and events -/

/-- One constructor per row of spec/opcode_table.json. -/
inductive Instr where
  /-- ECHO (R114), opcode 0x0100. -/
  | echo (h : Hdr) (p : Echo)
  /-- GET_NOTICES (R114), opcode 0x0101. -/
  | getNotices (h : Hdr) (p : GetNotices)
  /-- SET_HOST_WATCHDOG (R114), opcode 0x0102. -/
  | setHostWatchdog (h : Hdr) (p : SetHostWatchdog)
  /-- SET_MODE (R65), opcode 0x0110. -/
  | setMode (h : Hdr) (p : SetMode)
  /-- SET_WAKE (R66), opcode 0x0111. -/
  | setWake (h : Hdr) (p : SetWake)
  /-- SET_DOMAINS (R67), opcode 0x0112. -/
  | setDomains (h : Hdr) (p : SetDomains)
  /-- GET_POWER_STATE (R68), opcode 0x0113. -/
  | getPowerState (h : Hdr)
  /-- GET_BOOT_REPORT (R529), opcode 0x0114. -/
  | getBootReport (h : Hdr)
  /-- GET_FUSES (R86), opcode 0x0115. -/
  | getFuses (h : Hdr)
  /-- ADVANCE_ROLLBACK (R86), opcode 0x0116. -/
  | advanceRollback (h : Hdr)
  /-- DEVICE_RESET (R86), opcode 0x0117. -/
  | deviceReset (h : Hdr) (p : DeviceReset)
  /-- BOOT_IMAGE (R86), opcode 0x0118. -/
  | bootImage (h : Hdr) (p : BootImage)
  /-- FUSE_PROGRAM (R81), opcode 0x0119. -/
  | fuseProgram (h : Hdr) (p : FuseProgram)
  /-- SET_TIMING (R114), opcode 0x0120. -/
  | setTiming (h : Hdr) (p : SetTiming)
  /-- SET_POLICY (R26), opcode 0x0121. -/
  | setPolicy (h : Hdr) (p : SetPolicy)
  /-- MAINT_READ (R84), opcode 0x0122. -/
  | maintRead (h : Hdr) (p : MaintRead)
  /-- RUN_SELFTEST (R528), opcode 0x0123. -/
  | runSelftest (h : Hdr) (p : RunSelftest)
  /-- SELFTEST_DONE (R528): the requested tests have run, with the channels that failed. -/
  | selftestDone (t : Nat) (r : SelftestRun)
  /-- CONFIG_ARM (R136), opcode 0x0200. -/
  | configArm (h : Hdr) (p : ConfigArm)
  /-- SET_JOINT_LIMITS (R137), opcode 0x0201. -/
  | setJointLimits (h : Hdr) (p : SetJointLimits)
  /-- SET_SCALING (R138), opcode 0x0202. -/
  | setScaling (h : Hdr) (p : SetScaling)
  /-- APPEND_JOINT_MOVE (R140), opcode 0x0210. -/
  | appendJointMove (h : Hdr) (p : AppendJointMove)
  /-- APPEND_CART_MOVE (R141), opcode 0x0211. -/
  | appendCartMove (h : Hdr) (p : AppendCartMove)
  /-- STOP_ARMS (R142), opcode 0x0220. -/
  | stopArms (h : Hdr) (p : StopArms)
  /-- RESUME_ARMS (R143), opcode 0x0221. -/
  | resumeArms (h : Hdr) (p : ResumeArms)
  /-- FLUSH_QUEUE (R144), opcode 0x0222. -/
  | flushQueue (h : Hdr) (p : FlushQueue)
  /-- GET_ARM_STATE (R145), opcode 0x0230. -/
  | getArmState (h : Hdr) (p : GetArmState)
  /-- CONFIG_JOINT_SLOT (R190), opcode 0x0300. -/
  | configJointSlot (h : Hdr) (p : ConfigJointSlot)
  /-- CONFIG_ARM_SLOT (R191), opcode 0x0301. -/
  | configArmSlot (h : Hdr) (p : ConfigArmSlot)
  /-- CONFIG_CURRENT_SLOT (R193), opcode 0x0302. -/
  | configCurrentSlot (h : Hdr) (p : ConfigCurrentSlot)
  /-- SET_ARM_TARGET (R192), opcode 0x0303. -/
  | setArmTarget (h : Hdr) (p : SetArmTarget)
  /-- LOAD_BANK (R194), opcode 0x0310. -/
  | loadBank (h : Hdr) (p : LoadBank)
  /-- LOAD_BANK_BLOCK (R194), opcode 0x0311. -/
  | loadBankBlock (h : Hdr) (p : LoadBankBlock)
  /-- COPY_BANK (R178), opcode 0x0312. -/
  | copyBank (h : Hdr)
  /-- SWAP_BANKS (R178), opcode 0x0313. -/
  | swapBanks (h : Hdr) (p : SwapBanks)
  /-- SET_SLOT_MODE (R196), opcode 0x0320. -/
  | setSlotMode (h : Hdr) (p : SetSlotMode)
  /-- GET_SLOT_STATE (R197), opcode 0x0330. -/
  | getSlotState (h : Hdr) (p : GetSlotState)
  /-- START_INJECTION (R210), opcode 0x0400. -/
  | startInjection (h : Hdr) (p : StartInjection)
  /-- STOP_INJECTION (R211), opcode 0x0401. -/
  | stopInjection (h : Hdr) (p : StopInjection)
  /-- GET_INJECTION_STATE (R212), opcode 0x0402. -/
  | getInjectionState (h : Hdr) (p : GetInjectionState)
  /-- SET_RETUNE_BOUNDS (R213), opcode 0x0410. -/
  | setRetuneBounds (h : Hdr) (p : SetRetuneBounds)
  /-- IDENT_RESULT (R206): the plant-model fit of the ended injection on joint slot slot completes. -/
  | identResult (t : Nat) (slot : Fin 128)
  /-- RETUNE (R208): the firmware attempts to apply the proposal of joint slot slot. -/
  | retune (t : Nat) (slot : Fin 128)
  /-- DEFINE_PROBLEM (R238), opcode 0x0500. -/
  | defineProblem (h : Hdr) (p : DefineProblem)
  /-- REMOVE_PROBLEM (R238), opcode 0x0501. -/
  | removeProblem (h : Hdr) (p : RemoveProblem)
  /-- SET_PROBLEM_INPUT (R239), opcode 0x0502. -/
  | setProblemInput (h : Hdr) (p : SetProblemInput)
  /-- GET_PROBLEM_RESULT (R240), opcode 0x0510. -/
  | getProblemResult (h : Hdr) (p : GetProblemResult)
  /-- GET_PROBLEM_DESCRIPTOR (R240), opcode 0x0511. -/
  | getProblemDescriptor (h : Hdr) (p : GetProblemDescriptor)
  /-- GET_LANE_STATE (R241), opcode 0x0512. -/
  | getLaneState (h : Hdr) (p : GetLaneState)
  /-- CONFIG_SEPARATION (R283), opcode 0x0600. -/
  | configSeparation (h : Hdr) (p : ConfigSeparation)
  /-- DEFINE_PAN (R283), opcode 0x0601. -/
  | definePan (h : Hdr) (p : DefinePan)
  /-- SET_PARAM_SET (R283), opcode 0x0602. -/
  | setParamSet (h : Hdr) (p : SetParamSet)
  /-- LOAD_SAFETY_KINEMATICS (R283), opcode 0x0603. -/
  | loadSafetyKinematics (h : Hdr) (p : LoadSafetyKinematics)
  /-- LOAD_CAPSULES (R283), opcode 0x0604. -/
  | loadCapsules (h : Hdr) (p : LoadCapsules)
  /-- LOAD_PAIRS (R267), opcode 0x0605. -/
  | loadPairs (h : Hdr) (p : LoadPairs)
  /-- LOAD_ISLAND (R283), opcode 0x0606. -/
  | loadIsland (h : Hdr) (p : LoadIsland)
  /-- SET_OBJECT_SOURCE (R283), opcode 0x0607. -/
  | setObjectSource (h : Hdr) (p : SetObjectSource)
  /-- SET_PAN_PLANNER (R283), opcode 0x0608. -/
  | setPanPlanner (h : Hdr) (p : SetPanPlanner)
  /-- GET_PAN_STATE (R284), opcode 0x0610. -/
  | getPanState (h : Hdr) (p : GetPanState)
  /-- GET_PAIR_RESULT (R284), opcode 0x0611. -/
  | getPairResult (h : Hdr) (p : GetPairResult)
  /-- GET_OBJECT_STATE (R284), opcode 0x0612. -/
  | getObjectState (h : Hdr) (p : GetObjectState)
  /-- CONFIG_MOTION_PORT (R306), opcode 0x0700. -/
  | configMotionPort (h : Hdr) (p : ConfigMotionPort)
  /-- CONFIG_DECK (R306), opcode 0x0701. -/
  | configDeck (h : Hdr) (p : ConfigDeck)
  /-- SET_VESSEL (R306), opcode 0x0702. -/
  | setVessel (h : Hdr) (p : SetVessel)
  /-- DEFINE_LOAD_FRAME (R292), opcode 0x0703. -/
  | defineLoadFrame (h : Hdr) (p : DefineLoadFrame)
  /-- SET_DECK_LIMITS (R296), opcode 0x0704. -/
  | setDeckLimits (h : Hdr) (p : SetDeckLimits)
  /-- CONFIG_BALLAST (R306), opcode 0x0710. -/
  | configBallast (h : Hdr) (p : ConfigBallast)
  /-- SET_BALLAST_BOUNDS (R302), opcode 0x0711. -/
  | setBallastBounds (h : Hdr) (p : SetBallastBounds)
  /-- DECLARE_LIFT (R298), opcode 0x0712. -/
  | declareLift (h : Hdr) (p : DeclareLift)
  /-- CLOSE_LIFT (R298), opcode 0x0713. -/
  | closeLift (h : Hdr) (p : CloseLift)
  /-- SEND_BALLAST_REQUEST (R302), opcode 0x0714. -/
  | sendBallastRequest (h : Hdr) (p : SendBallastRequest)
  /-- GET_DECK_STATE (R306), opcode 0x0720. -/
  | getDeckState (h : Hdr)
  /-- GET_HEEL_STATE (R306), opcode 0x0721. -/
  | getHeelState (h : Hdr) (p : GetHeelState)
  /-- LOAD_KERNEL (R330), opcode 0x0800. -/
  | loadKernel (h : Hdr) (p : LoadKernel)
  /-- REMOVE_KERNEL (R331), opcode 0x0801. -/
  | removeKernel (h : Hdr) (p : RemoveKernel)
  /-- RUN_KERNEL (R331), opcode 0x0802. -/
  | runKernel (h : Hdr) (p : RunKernel)
  /-- ASSIGN_VENDOR (R331), opcode 0x0803. -/
  | assignVendor (h : Hdr) (p : AssignVendor)
  /-- GET_CORE_STATE (R332), opcode 0x0810. -/
  | getCoreState (h : Hdr) (p : GetCoreState)
  /-- GET_KERNEL_STATE (R332), opcode 0x0811. -/
  | getKernelState (h : Hdr) (p : GetKernelState)
  /-- SET_TRACE (R346), opcode 0x0900. -/
  | setTrace (h : Hdr) (p : SetTrace)
  /-- TRACE_MARK (R349), opcode 0x0901. -/
  | traceMark (h : Hdr) (p : TraceMark)
  /-- GET_DISPATCH_STATE (R351), opcode 0x0910. -/
  | getDispatchState (h : Hdr)
  /-- GET_EVENT_ENTRY (R351), opcode 0x0911. -/
  | getEventEntry (h : Hdr) (p : GetEventEntry)
  /-- CANCEL_TASK (R350), opcode 0x0920. -/
  | cancelTask (h : Hdr) (p : CancelTask)
  /-- CONFIG_CHANNEL (R372), opcode 0x0A00. -/
  | configChannel (h : Hdr) (p : ConfigChannel)
  /-- CONFIG_CAPTURE (R372), opcode 0x0A01. -/
  | configCapture (h : Hdr) (p : ConfigCapture)
  /-- SET_TRIGGERS (R372), opcode 0x0A02. -/
  | setTriggers (h : Hdr) (p : SetTriggers)
  /-- ARM (R360), opcode 0x0A10. -/
  | arm (h : Hdr)
  /-- DISARM (R371), opcode 0x0A11. -/
  | disarm (h : Hdr)
  /-- FORCE_TRIGGER (R371), opcode 0x0A12. -/
  | forceTrigger (h : Hdr)
  /-- GET_CAPTURE_STATE (R372), opcode 0x0A20. -/
  | getCaptureState (h : Hdr)
  /-- CONFIG_STEP (R162), opcode 0x0B00. -/
  | configStep (h : Hdr) (p : ConfigStep)
  /-- CONFIG_CHOPPER (R163), opcode 0x0B01. -/
  | configChopper (h : Hdr) (p : ConfigChopper)
  /-- GET_RATE_STATE (R164), opcode 0x0B02. -/
  | getRateState (h : Hdr) (p : GetRateState)
  /-- CONFIG_PWM_GROUP (R390), opcode 0x0B40. -/
  | configPwmGroup (h : Hdr) (p : ConfigPwmGroup)
  /-- SET_PWM_DUTY (R391), opcode 0x0B41. -/
  | setPwmDuty (h : Hdr) (p : SetPwmDuty)
  /-- CLEAR_TRIP (R383), opcode 0x0B42. -/
  | clearTrip (h : Hdr) (p : ClearTrip)
  /-- GET_PWM_STATE (R393), opcode 0x0B43. -/
  | getPwmState (h : Hdr) (p : GetPwmState)
  /-- CONFIG_BRAKE (R394), opcode 0x0B50. -/
  | configBrake (h : Hdr) (p : ConfigBrake)
  /-- GET_BRAKE_STATE (R395), opcode 0x0B51. -/
  | getBrakeState (h : Hdr) (p : GetBrakeState)
  /-- CONFIG_BUS_CHANNEL (R396), opcode 0x0C00. -/
  | configBusChannel (h : Hdr) (p : ConfigBusChannel)
  /-- CONFIG_DRIVE_PROFILE (R405), opcode 0x0C01. -/
  | configDriveProfile (h : Hdr) (p : ConfigDriveProfile)
  /-- DRIVE_PARAM (R410), opcode 0x0C10. -/
  | driveParam (h : Hdr) (p : DriveParam)
  /-- GET_BUS_STATS (R410), opcode 0x0C20. -/
  | getBusStats (h : Hdr) (p : GetBusStats)
  /-- LOAD_SCHEDULE (R415), opcode 0x0C40. -/
  | loadSchedule (h : Hdr) (p : LoadSchedule)
  /-- CONFIG_SYNC (R435), opcode 0x0C41. -/
  | configSync (h : Hdr) (p : ConfigSync)
  /-- GRANT_SPARE (R431), opcode 0x0C42. -/
  | grantSpare (h : Hdr) (p : GrantSpare)
  /-- RELEASE_SLOT (R431), opcode 0x0C43. -/
  | releaseSlot (h : Hdr) (p : ReleaseSlot)
  /-- GET_SCHEDULE_ENTRY (R435), opcode 0x0C50. -/
  | getScheduleEntry (h : Hdr) (p : GetScheduleEntry)
  /-- GET_SYNC_STATE (R435), opcode 0x0C51. -/
  | getSyncState (h : Hdr) (p : GetSyncState)
  /-- CONFIG_HIERARCHY (R436), opcode 0x0D00. -/
  | configHierarchy (h : Hdr) (p : ConfigHierarchy)
  /-- CONFIG_PAIR (R439), opcode 0x0D01. -/
  | configPair (h : Hdr) (p : ConfigPair)
  /-- ARBITRATE_PAIR (R444), opcode 0x0D02. -/
  | arbitratePair (h : Hdr) (p : ArbitratePair)
  /-- DISSOLVE_PAIR (R454), opcode 0x0D03. -/
  | dissolvePair (h : Hdr) (p : DissolvePair)
  /-- RELEASE_LEASE (R446), opcode 0x0D04. -/
  | releaseLease (h : Hdr) (p : ReleaseLease)
  /-- SET_EXPORT (R438), opcode 0x0D05. -/
  | setExport (h : Hdr) (p : SetExport)
  /-- GET_PAIR_STATE (R458), opcode 0x0D10. -/
  | getPairState (h : Hdr)
  /-- GET_HIERARCHY_STATE (R458), opcode 0x0D11. -/
  | getHierarchyState (h : Hdr)
  /-- CONFIG_SIN_PAIR (R493), opcode 0x0E00. -/
  | configSinPair (h : Hdr) (p : ConfigSinPair)
  /-- CONFIG_STOPS (R493), opcode 0x0E01. -/
  | configStops (h : Hdr) (p : ConfigStops)
  /-- CONFIG_SLS (R493), opcode 0x0E02. -/
  | configSls (h : Hdr) (p : ConfigSls)
  /-- CONFIG_STO_EDM (R493), opcode 0x0E03. -/
  | configStoEdm (h : Hdr) (p : ConfigStoEdm)
  /-- CONFIG_SBC (R493), opcode 0x0E04. -/
  | configSbc (h : Hdr) (p : ConfigSbc)
  /-- CONFIG_SAFETY_CONN (R493), opcode 0x0E05. -/
  | configSafetyConn (h : Hdr) (p : ConfigSafetyConn)
  /-- CONFIG_SSM_REACTION (R493), opcode 0x0E06. -/
  | configSsmReaction (h : Hdr) (p : ConfigSsmReaction)
  /-- GET_SET_CHECK (R494), opcode 0x0E10. -/
  | getSetCheck (h : Hdr)
  /-- COMMIT_SET (R489), opcode 0x0E11. -/
  | commitSet (h : Hdr) (p : CommitSet)
  /-- DISCARD_CHANGES (R494), opcode 0x0E12. -/
  | discardChanges (h : Hdr)
  /-- LOAD_SET_IMAGE (R494), opcode 0x0E13. -/
  | loadSetImage (h : Hdr) (p : LoadSetImage)
  /-- SAVE_SET_IMAGE (R494), opcode 0x0E14. -/
  | saveSetImage (h : Hdr) (p : SaveSetImage)
  /-- BRAKE_TEST (R478), opcode 0x0E20. -/
  | brakeTest (h : Hdr) (p : BrakeTest)
  /-- GET_SAFETY_STATE (R494), opcode 0x0E30. -/
  | getSafetyState (h : Hdr)
  /-- GET_CONN_STATE (R494), opcode 0x0E31. -/
  | getConnState (h : Hdr) (p : GetConnState)
  /-- SET_FAULT_POLICY (R496), opcode 0x0F00. -/
  | setFaultPolicy (h : Hdr) (p : SetFaultPolicy)
  /-- RETIRE_CHANNEL (R509), opcode 0x0F01. -/
  | retireChannel (h : Hdr) (p : RetireChannel)
  /-- CLEAR_RETIREMENT (R499), opcode 0x0F02. -/
  | clearRetirement (h : Hdr) (p : ClearRetirement)
  /-- GET_CHANNEL_STATE (R510), opcode 0x0F10. -/
  | getChannelState (h : Hdr) (p : GetChannelState)
  /-- GET_JOURNAL_STATE (R510), opcode 0x0F11. -/
  | getJournalState (h : Hdr)
  /-- JOURNAL_MARK (R509), opcode 0x0F12. -/
  | journalMark (h : Hdr) (p : JournalMark)
  /-- MBX_SLOT_WRITE (R99): the host writes data into inbound slot slot from byte offset. -/
  | mbxSlotWrite (t : Nat) (slot : Fin 8) (offset : Nat) (data : List Byte)
  /-- MBX_OUT_DB_RELEASE (R95): the host writes w to MBX_OUT_DB. -/
  | mbxOutDbRelease (t : Nat) (w : BitVec 32)
  /-- CT_LATCH_READ (R94): the host reads CT_LATCH_LO, or the 8-byte latch. -/
  | ctLatchRead (t : Nat)
  /-- DP_DATA_ACCESS (R109): the host reads or writes DP_DATA. -/
  | dpDataAccess (t : Nat) (a : DpAccess)
  /-- DP_BURST_ACCESS (R109): the host requests the burst aperture. -/
  | dpBurstAccess (t : Nat) (a : DpBurst)
  /-- DP_ERR_CLEAR (R96): the host writes w to DP_CTRL with ERR_CLR set. -/
  | dpErrClear (t : Nat) (w : BitVec 32)
  /-- IRQ_STAT_CLEAR (R97): the host writes w to IRQ_STAT. -/
  | irqStatClear (t : Nat) (w : BitVec 32)
  /-- IRQ_EN_WRITE (R97): the host writes w to IRQ_EN. -/
  | irqEnWrite (t : Nat) (w : BitVec 32)
  /-- MSI_ENABLE (R97): the host enables MSI. -/
  | msiEnable (t : Nat)
  /-- HEALTH_CLEAR (R93): the host writes w to HEALTH. -/
  | healthClear (t : Nat) (w : BitVec 32)
  /-- REGISTER_WRITE (R90): the host writes the words w from offset on. -/
  | registerWrite (t : Nat) (offset : BitVec 32) (w : RegWords)
  /-- EXTEST (R82): the test access port requests EXTEST. -/
  | extest (t : Nat)
  /-- SAMPLE_PRELOAD (R82): the test access port requests SAMPLE/PRELOAD. -/
  | samplePreload (t : Nat)
  /-- RST_N_LOW (R58): RST_N is low for lowNs nanoseconds. -/
  | rstNLow (t : Nat) (lowNs : Nat)
  /-- BOOT (R72): reset is released and the boot runs with what it finds. -/
  | boot (t : Nat) (b : BootIn)
  /-- PWRGOOD_LOW (R70): PWRGOOD is low for lowNs nanoseconds. -/
  | pwrgoodLow (t : Nat) (lowNs : Nat)
  /-- POWER_ON (R10): VDD_AON comes up after it was lost. -/
  | powerOn 
  /-- VDD_CORE_LOSS (R58): VDD_CORE is lost. -/
  | vddCoreLoss (t : Nat)
  /-- VDD_AON_FALL (R502): the VDD_AON monitor trips. -/
  | vddAonFall (t : Nat)
  /-- LOCKSTEP_MISMATCH (R70): the supervisor pair disagrees. -/
  | lockstepMismatch (t : Nat)
  /-- WATCHDOG_LAPSE (R501): the AON watchdog was not serviced for 1 ms. -/
  | watchdogLapse (t : Nat)
  /-- XCLK_MISSING (R56): XCLK shows no edge for 2 µs after lastEdge. -/
  | xclkMissing (t : Nat) (lastEdge : Nat)
  /-- PERST_N_LOW (R88): PERST_N goes low. -/
  | perstNLow (t : Nat)
  /-- WAKE_EVENT (R63): a wake source is active. -/
  | wakeEvent (t : Nat) (w : WakeIn)
  /-- DOMAIN_WAKE (R55): domain d has work; its clock starts. -/
  | domainWake (t : Nat) (d : Fin 14)
  /-- DOMAIN_STOP (R53): domain d has no ready or running task. -/
  | domainStop (t : Nat) (d : Fin 14)
  /-- BOUNDARY (R21): the next boundary, with what is sampled at it. -/
  | boundary (t : Nat) (b : BoundaryIn)
  /-- MID_PERIOD (R380): the mid-period instant M_k. -/
  | midPeriod (t : Nat)
  /-- QUARTER_POINT (R185): the quarter point Q_{k,m}, with the local samples. -/
  | quarterPoint (t : Nat) (m : Fin 4) (x : SampleIn)
  /-- TASK_RELEASE (R334): the source of event entry e fires. -/
  | taskRelease (t : Nat) (e : Fin 2048)
  /-- TASK_DISPATCH (R339): a dispatch cycle gives ready tasks to free units. -/
  | taskDispatch (t : Nat)
  /-- TASK_COMPLETE (R337): the engine reports completion of the task of entry e, with what the engine met. -/
  | taskComplete (t : Nat) (e : Fin 2048) (x : TaskIn)
  /-- TASK_DEADLINE (R337): a dispatch cycle ends the tasks whose deadline has passed. -/
  | taskDeadline (t : Nat)
  /-- BACKPRESSURE_RELEASE (R341): the pressure on the source of entry e is looked at. -/
  | backpressureRelease (t : Nat) (e : Fin 2048)
  /-- TRACE_RECORD_WRITE (R345): the trace write queue drains a record. -/
  | traceRecordWrite (t : Nat)
  /-- IK_MISS_LIMIT (R127): the fourth period of arm without a usable result. -/
  | ikMissLimit (t : Nat) (arm : Fin 16)
  /-- FEEDBACK_MISS_LIMIT (R180): the miss count of joint slot slot is looked at. -/
  | feedbackMissLimit (t : Nat) (slot : Fin 128)
  /-- PROBLEM_RUN_END (R232): the run on lane ends; residue or memory mismatches had come at these stamps. -/
  | problemRunEnd (t : Nat) (lane : Fin 36) (mismatches : List Nat)
  /-- PROBLEM_DEADLINE (R230): the deadline of problem id is looked at, its run being at pos. -/
  | problemDeadline (t : Nat) (id : Fin 256) (pos : RunPos)
  /-- LANE_TEST (R234): the lane test of lane ends with pass. -/
  | laneTest (t : Nat) (lane : Fin 36) (pass : Bool)
  /-- SEPARATION_INPUTS_COMPLETE (R268): the last container of the pass has arrived, or its cut-off has come. -/
  | separationInputsComplete (t : Nat)
  /-- SEP_MONITOR_DECISION (R273): the separation engine completes its pair evaluation. -/
  | sepMonitorDecision (t : Nat)
  /-- PASS_OVERRUN (R271): the pass in progress is looked at against its limit. -/
  | passOverrun (t : Nat)
  /-- ISLAND_DECISION (R275): the safety island completes its evaluation. -/
  | islandDecision (t : Nat)
  /-- MSN_DRDY_EDGE (R285): MSn_DRDY of the port rises. -/
  | msnDrdyEdge (t : Nat) (port : Fin 2)
  /-- MOTION_READ_DONE (R286): the port's read ends with data, and for the echo check with a second copy. -/
  | motionReadDone (t : Nat) (port : Fin 2) (data : List Byte) (copy : List Byte)
  /-- MOTION_PORT_SILENCE (R286): the port is looked at for silence. -/
  | motionPortSilence (t : Nat) (port : Fin 2)
  /-- DECK_INVALID_TIMEOUT (R288): the age of the last good sample is looked at. -/
  | deckInvalidTimeout (t : Nat)
  /-- LOAD_FRAME_STALE (R292): the age of the load frame is looked at. -/
  | loadFrameStale (t : Nat)
  /-- BALLAST_STATUS_STALE (R301): the age of the ballast status is looked at. -/
  | ballastStatusStale (t : Nat)
  /-- CORE_INTERRUPT (R317): an interrupt source of the core is active. -/
  | coreInterrupt (t : Nat) (core : Fin 4) (src : CoreIntIn)
  /-- KERNEL_BUDGET (R326): the run of the user kernel in slot is looked at against its budget and its region. -/
  | kernelBudget (t : Nat) (slot : Fin 8) (fault : KernelFault)
  /-- SYNC_FRAME (R421): a SYNC frame is received. -/
  | syncFrame (t : Nat) (f : FrameIn)
  /-- FEEDBACK_FRAME (R406): a FEEDBACK frame is received. -/
  | feedbackFrame (t : Nat) (f : FrameIn)
  /-- SAFETY_CONTAINER (R483): a SAFETY frame is received. -/
  | safetyContainer (t : Nat) (f : FrameIn)
  /-- PARAM_RESPONSE (R407): a PARAM frame is received. -/
  | paramResponse (t : Nat) (f : FrameIn)
  /-- APP_FRAME (R408): an APP frame is received. -/
  | appFrame (t : Nat) (f : FrameIn)
  /-- CLAIM_FRAME (R430): a CLAIM frame is received. -/
  | claimFrame (t : Nat) (f : FrameIn)
  /-- DATA_FRAME (R402): a DATA frame is received. -/
  | dataFrame (t : Nat) (f : FrameIn)
  /-- BUCKET_DECAY (R496): a decay instant of the channel is looked at. -/
  | bucketDecay (t : Nat) (ch : BitVec 16)
  /-- SLOT_TRANSMIT (R416): an own slot starts; in line mode RXD agrees with TXD as echoOk says. -/
  | slotTransmit (t : Nat) (set : Fin 5) (slot : Fin 128) (echoOk : Bool)
  /-- SYNC_CORRECTION (R421): the last SYNC slot of the cycle ends. -/
  | syncCorrection (t : Nat) (set : Fin 5)
  /-- LISTEN_TIMEOUT (R427): the time in LISTEN is looked at. -/
  | listenTimeout (t : Nat) (set : Fin 5)
  /-- BACKOFF_END (R429): the back-off is looked at. -/
  | backoffEnd (t : Nat) (set : Fin 5)
  /-- PHY_LINK_POLL (R400): the link status of the channel's PHY reads up. -/
  | phyLinkPoll (t : Nat) (ch : Fin 10) (up : Bool)
  /-- WORKER_LOST (R437): the worker's last frame is looked at. -/
  | workerLost (t : Nat) (cell : Fin 16)
  /-- LEASE_GRANT (R445): a GRANT message is received. -/
  | leaseGrant (t : Nat) (m : LeaseMsg)
  /-- LEASE_REFUSE (R445): a REFUSE message is received. -/
  | leaseRefuse (t : Nat) (m : LeaseMsg)
  /-- LEASE_REQUEST_MSG (R444): the arbiter receives a REQUEST. -/
  | leaseRequestMsg (t : Nat) (m : LeaseMsg)
  /-- LEASE_HEALTH_MSG (R440): a HEALTH message is received. -/
  | leaseHealthMsg (t : Nat) (m : LeaseMsg)
  /-- LEASE_RELEASE_MSG (R444): the arbiter receives a RELEASE. -/
  | leaseReleaseMsg (t : Nat) (m : LeaseMsg)
  /-- ARBITER_DECISION (R444): the grant slot of the cell's pair starts. -/
  | arbiterDecision (t : Nat) (cell : Fin 16)
  /-- LEASE_EXPIRY (R445): the lease logic compares CT with X_h. -/
  | leaseExpiry (t : Nat)
  /-- MIRROR_LINK_UP (R447): the mirror link comes up. -/
  | mirrorLinkUp (t : Nat) (lanes : BitVec 2) (roundTrip : Nat)
  /-- MIRROR_PART (R449): a part of a mirror record arrives. -/
  | mirrorPart (t : Nat) (p : MirrorPart)
  /-- MIRROR_ACK (R443): the holder receives an ACK. -/
  | mirrorAck (t : Nat) (period : BitVec 32) (pledge : Nat)
  /-- MIRROR_NACK (R447): the active unit receives a NACK. -/
  | mirrorNack (t : Nat) (period : BitVec 32) (part : Fin 16)
  /-- MIRROR_RELEASE (R443): a RELEASE arrives over the mirror link. -/
  | mirrorRelease (t : Nat)
  /-- MIRROR_LATE (R448): the record in reception is looked at against its deadline. -/
  | mirrorLate (t : Nat)
  /-- HOST_WATCHDOG (R106): the host watchdog is looked at. -/
  | hostWatchdog (t : Nat)
  /-- SEAL_ACCEPTED (R45): a seal bit takes the value v after 8 equal samples. -/
  | sealAccepted (t : Nat) (bit : Fin 8) (v : Bool)
  /-- SIN_CHANGE (R462): a SIN level is accepted after n_f samples. -/
  | sinChange (t : Nat) (pin : Fin 16) (level : Bool)
  /-- SIN_DISCREPANCY (R462): the two channels of the pair are compared against t_disc. -/
  | sinDiscrepancy (t : Nat) (pair : Fin 8)
  /-- STO_FB_MISMATCH (R464): the STO feedback is compared with its outputs. -/
  | stoFbMismatch (t : Nat)
  /-- STO_TEST_PULSE (R464): STO_A, or STO_B where b, is pulsed and its readback shows low or not. -/
  | stoTestPulse (t : Nat) (b : Bool) (low : Bool)
  /-- EDM_MISMATCH (R465): the EDM inputs are compared with their outputs. -/
  | edmMismatch (t : Nat)
  /-- PERMIT_LAPSE (R461): the permit latch is looked at. -/
  | permitLapse (t : Nat)
  /-- CROSS_MISMATCH (R461): a demand of one channel alone since since is looked at. -/
  | crossMismatch (t : Nat) (since : Nat)
  /-- CONNECTION_FAILED (R485): the connection's last container is looked at against t_wd. -/
  | connectionFailed (t : Nat) (conn : Fin 64)
  /-- SS1_TIME_EXPIRY (R470): a time-controlled safe stop 1 is looked at. -/
  | ss1TimeExpiry (t : Nat)
  /-- STOP_DEADLINE (R471): the stops in progress are looked at against t_stop_max. -/
  | stopDeadline (t : Nat)
  /-- BRAKE_TEST_PHASE (R478): the timer of the brake test is looked at. -/
  | brakeTestPhase (t : Nat)
  /-- BRAKE_TEST_DUE (R478): the last pass of brake b is looked at against t_bt. -/
  | brakeTestDue (t : Nat) (b : Fin 16)
  /-- BRAKE_PULL_IN_END (R385): the pull-in time of brake b is looked at. -/
  | brakePullInEnd (t : Nat) (b : Fin 16)
  /-- BRK_FB_CHANGE (R386): a BRK_FB level is accepted after 8 equal samples. -/
  | brkFbChange (t : Nat) (b : Fin 16) (level : Bool)
  /-- BRAKE_FB_LATE (R386): the feedback of brake b is looked at against t_fb. -/
  | brakeFbLate (t : Nat) (b : Fin 16)
  /-- TRIP_N_FALL (R381): TRIP_N of group g falls and stays low for lowNs. -/
  | tripNFall (t : Nat) (g : Fin 8) (lowNs : Nat)
  /-- PWM_CARRIER_CYCLE (R376): a carrier cycle of group g opens, the six gate pins reading gates. -/
  | pwmCarrierCycle (t : Nat) (g : Fin 8) (gates : BitVec 6)
  /-- PWM_COARSE (R374): the span of group g's delay line was off for 1,024 comparisons. -/
  | pwmCoarse (t : Nat) (g : Fin 8) (span : BitVec 16)
  /-- STEP_PULSE (R153): step channel m runs for ticks F400 ticks. -/
  | stepPulse (t : Nat) (m : Fin 16) (ticks : Nat)
  /-- CHOP_ISNS_HIGH (R158): ISNS of the coil goes high. -/
  | chopIsnsHigh (t : Nat) (c : Fin 8) (coil : Coil)
  /-- CHOP_BLANK_END (R158): the coil's blanking ends with ISNS at isns. -/
  | chopBlankEnd (t : Nat) (c : Fin 8) (coil : Coil) (isns : Bool)
  /-- CHOP_OFF_TIME_END (R158): the coil's off-time ends. -/
  | chopOffTimeEnd (t : Nat) (c : Fin 8) (coil : Coil)
  /-- CHOP_ON_TIME_LIMIT (R158): t_on_max elapses in the coil's drive phase. -/
  | chopOnTimeLimit (t : Nat) (c : Fin 8) (coil : Coil)
  /-- HOLD_DELAY (R159): the hold delay of channel c is looked at. -/
  | holdDelay (t : Nat) (c : Fin 8)
  /-- SD_INPUT_SILENCE (R495): sigma-delta input i shows no transition or no clock. -/
  | sdInputSilence (t : Nat) (i : Fin 24)
  /-- PIN_CHANNEL_CHANGE (R352): the filtered level of PIN channel ch changes. -/
  | pinChannelChange (t : Nat) (ch : Fin 256) (level : PinEdge)
  /-- SKIM_RECORD_STORE (R357): the intake queue drains a record. -/
  | skimRecordStore (t : Nat)
  /-- POST_TIME_EXPIRY (R361): the post time is looked at. -/
  | postTimeExpiry (t : Nat)
  /-- ARM_LINE_FALL (R365): the ARM line falls. -/
  | armLineFall (t : Nat)
  /-- ARM_LINE_RISE (R365): the ARM line rises. -/
  | armLineRise (t : Nat)
  /-- FIRE_LINE_FALL (R362): the fire line falls. -/
  | fireLineFall (t : Nat)
  /-- FIRE_PULSE_END (R366): the fire pulse has lasted 1 µs. -/
  | firePulseEnd (t : Nat)
  /-- JOURNAL_WRITE (R507): the journal queue drains a record into the ring. -/
  | journalWrite (t : Nat)
  /-- MBX_IN_DB_RING (R95): the host writes w to MBX_IN_DB. -/
  | mbxInDbRing (t : Nat) (w : BitVec 32)
  /-- MAINT_MSG_UPDATE_DR (R83): Update-DR with the 1,028 bytes m in MAINT_MSG. -/
  | maintMsgUpdateDr (t : Nat) (m : List Byte)
  /-- STO_FB_CHANGE (R464): STO_FB_A, or STO_FB_B where b, changes to level. -/
  | stoFbChange (t : Nat) (b : Bool) (level : Bool)
  /-- EDM_IN_CHANGE (R465): EDM_IN[i] changes to level. -/
  | edmInChange (t : Nat) (i : Fin 8) (level : Bool)
  /-- PWM_COARSE_CLEAR (R374): the span of group g's delay line was in calibration for 1,024 comparisons. -/
  | pwmCoarseClear (t : Nat) (g : Fin 8) (span : BitVec 16)
  /-- ANALOG_THRESHOLD_CHANGE (R354): the filter delivers word on ANALOG channel ch. -/
  | analogThresholdChange (t : Nat) (ch : Fin 256) (word : BitVec 32)
  /-- CHOP_REF_PWM_PERIOD (R157): a reference PWM period of channel c begins, ticks F400 ticks after the last look. -/
  | chopRefPwmPeriod (t : Nat) (c : Fin 8) (ticks : Nat)
deriving DecidableEq, Repr

end Sys2Proof
end

