-- ==== Sys2Proof/Decode.lean ====
section
/-! DEFINITION. The command that a word of the opcode table spells. No row of spec/opcode_table.json gives bits: a
command reaches the device as a mailbox message (Machine/Parse.lean reads those), and an event is no word. -/

namespace Sys2Proof

/-- The command of a table word: none, since the table gives no row any bits. -/
def decodeTableWord (_nbits _w : Nat) : Option Instr := none

end Sys2Proof
end

