-- ==== Sys2Proof/Config.lean ====
section
/-! DEFINITION. What the spec leaves open: free values and functions with no body, so that no proof can rest on what
they are. A free value is drawn by applying one of the first four to the counter `fresh` of the state, which every
draw advances. -/

namespace Sys2Proof

/-- The configuration of a unit, its UNIT field left out: what the digest of R440 covers beside the committed safety set. -/
structure UnitConfig where
  tc       : Nat
  nSep     : Nat
  auto     : Bool
  arms     : List (Nat × ConfigArm)
  limits   : List (Nat × Nat × Nat × Int × Int)
  steps    : List (Nat × ConfigStep)
  choppers : List (Nat × ConfigChopper)
  joints   : List (Nat × ConfigJointSlot)
  armSlots : List (Nat × ConfigArmSlot)
  currents : List (Nat × ConfigCurrentSlot)
  banks    : List (Nat × List Byte)
  bounds   : List (Nat × SetRetuneBounds)
  problems : List (Nat × DefineProblem)
  planners : List (Nat × SetPanPlanner)
  hints    : List (Nat × SetObjectSource)
  ports    : List (Option ConfigMotionPort)
  deck     : Option ConfigDeck
  vessel   : Option SetVessel
  deckLims : List (Nat × SetDeckLimits)
  load     : Option DefineLoadFrame
  ballast  : Option ConfigBallast
  balance  : Option SetBallastBounds
  kernels  : List (Nat × LoadKernel)
  vendor   : List (Option Nat)
  decoder  : List (Option Nat)
  skims    : List (Nat × ConfigChannel)
  capture  : ConfigCapture
  triggers : SetTriggers
  groups   : List (Nat × ConfigPwmGroup)
  brakes   : List (Nat × ConfigBrake)
  chans    : List (Nat × Nat × BitVec 8)
  sync     : List ConfigSync
  entries  : List (List (Nat × BitVec 64))
  profiles : List (Nat × ConfigDriveProfile)
  pair     : Option (BitVec 8 × BitVec 8 × BitVec 8 × BitVec 8)
  policies : List (Nat × Nat × Nat × Nat)
deriving DecidableEq, Repr

end Sys2Proof

namespace Sys2Proof.Config

/-- The vendor's manufacturer code in IDCODE (R82). -/
opaque vendorCode : BitVec 11

/-- A free truth value. -/
opaque freeBool : Nat → Bool

/-- A free natural number. -/
opaque freeNat : Nat → Nat

/-- A free integer. -/
opaque freeInt : Nat → Int

/-- A free word of the width asked for. -/
opaque freeWord : Nat → (w : Nat) → BitVec w

/-- The output of SD_POST's droop-compensating filter for a word of a sinc filter (R322), by a draw of the free values: the filter
has a memory, and the spec gives it no coefficients (log entry 180). -/
opaque droop : (draw : Nat) → (word : Int) → Int

/-- Cosine and sine of an angle in rad. -/
opaque cosRad : Rat → Rat

opaque sinRad : Rat → Rat

/-- The angle in rad of a point with this ordinate and abscissa. -/
opaque atan2 : (y x : Rat) → Rat

/-- The square root. -/
opaque root : Rat → Rat

/-- The fraction bits of a store of a firmware problem's build step, which the parameter image records and the spec does not give
(R219, R220, R251): by problem, and by the place of the store. -/
opaque storeFormat : (id place : Nat) → Nat

/-- The word to which an intermediate store of the build step of TS_QP or BALLAST saturates, none where every store fits: the spec
does not say which stores that step makes. -/
opaque buildSat : (id : Nat) → List Rat → Option Int

/-- The word to which the firmware rounds an exact value where the spec states no rounding, by the place. -/
opaque rounds : (place : Nat) → Rat → Int

/-- Cosine and sine of a 16-bit angle by the island's CORDIC (R274). -/
opaque cordic : BitVec 16 → Rat × Rat

/-- The island's own check value over its copy of the set (R274). -/
opaque islandCheck : List Byte → BitVec 32

/-- The two coefficients, on speed and height, of the second-order high-pass of a corner time in s (R287). -/
opaque heaveFilter : (tH : Nat) → Rat × Rat

/-- The refinement of a spectral peak by three points (R289): the complex values at three neighbouring frequencies, real and
imaginary parts, to amplitude, offset in bins, and phase in revolutions. -/
opaque refinePeak : List Rat → Rat × Rat × Rat

/-- The joints of the drive node whose outputs a SETPOINT slot carries (R404): no command says which node a slot serves. -/
opaque setpointJoints : (set slot : Nat) → List (Fin 128)

/-- t_stofb in ms on a device whose set has no CONFIG_STO_EDM (R464, R493). -/
opaque stofbUnset : Nat

/-- Whether the output of the scrambler of R399 is its last stage, or the bit it feeds back. -/
opaque scrambleLast : Bool

/-- The operation that OP names in each class of a signal core's instructions (R320, R321): the spec does not number them. A load or
store: whether it stores, and the size where SIZE is not 64 bits. A transfer: whether it goes to the brine store. -/
opaque aluForm : BitVec 6 → AluForm

opaque macForm : BitVec 6 → MacForm

opaque memForm : BitVec 6 → Bool × CoreSize

opaque xferOut : BitVec 6 → Bool

opaque branchForm : BitVec 6 → BranchForm

opaque loopLevel : BitVec 6 → Bool

opaque acsForm : BitVec 6 → AcsForm

opaque sysForm : BitVec 6 → SysForm

/-- What IMM holds for a shift, a MOVA and a LOOP (R320): the spec does not place the fields in it. -/
opaque coreImm : BitVec 32 → CoreImm

/-- The received hard bits and the punctured positions that the operand of an ACS step holds (R315). -/
opaque acsBits : BitVec 32 → BitVec 4 × BitVec 4

/-- The cycles that an XFER of a number of bytes takes beyond the first two (R321). -/
opaque xferCycles : Nat → Nat

/-- The address where a vendor task starts, by the work of its entry (R322). -/
opaque vendorStart : Nat → BitVec 18

/-- The vector of an interrupt (R317). -/
opaque coreVector : BitVec 18

/-- The word that a compare of a signal core writes (R321): the spec gives it no form. -/
opaque compareWord : Bool → BitVec 32

/-- Whether a load of fewer than 32 bits extends the sign (R321). -/
opaque loadSigned : Bool

/-- The bytes of a unit's configuration that its digest covers (R440): the spec gives them no layout. -/
opaque unitImage : UnitConfig → List Byte

/-- SHA-256 as the spec names it (R75, R76, R440, R449); the spec does not restate the algorithm. -/
opaque sha256 : List Byte → BitVec 256

/-- Whether an ECDSA signature over a digest verifies under a public key digest (R75, R76). -/
opaque ecdsaOk : (key sig : List Byte) → BitVec 256 → Bool

end Sys2Proof.Config
end

