-- ==== Sys2Proof/Machine/State.lean ====
section
/-! DEFINITION. The state of the device: everything the spec gives it, as plain data, unit by unit, and its value at
reset. A field's default is its value at reset. `Tab` holds arrays of records by number; an unlisted record has every
field at its default. -/

namespace Sys2Proof.Machine

/-! ### Time (spec/01_cell_time_base.md) -/

/-- A SET_TIMING waiting for its boundary (R114). -/
structure PendTiming where
  effB : Nat := 0
  tc   : Nat := 0
  nSep : Nat := 0
deriving DecidableEq, Repr, Inhabited

/-- The policy levels of R26. -/
inductive Policy where
  | mechanism
  | autonomous
deriving DecidableEq, Repr, Inhabited

/-- The time base and the control period (R9, R18 to R21, R25, R26). -/
structure Time where
  ct          : Nat := 0                      -- R9: a count that never wraps
  frac        : BitVec 32 := 0                -- R9: the fraction bits below the LSB
  rate        : Nat := 175921860444           -- R9: 40.96 LSB in units of 2^-32 LSB (nominal)
  rho         : Int := 0                      -- R422: the rate correction
  rOff        : Int := 0                      -- R422: the offset correction of the next half cycle
  valid       : Bool := true                  -- R56
  lastGood    : Nat := 0                      -- R56: stamp of the last good XCLK edge
  ct0         : Nat := 0                      -- R19: the epoch
  k           : Nat := 0                      -- R19: the period count, boundary k at ct0 + k * tc
  tc          : Nat := 128000                 -- R18: default 125 µs
  nSep        : Nat := 4                      -- R25: default 4
  pending     : List PendTiming := []          -- accepted SET_TIMING commands (R114)
  policy      : Policy := .mechanism          -- R26: the configured level
  policyForce : Policy := .mechanism          -- R26: the level in force
  seqs        : Tab (BitVec 16) := []         -- R13: next source sequence by source identity
  lastItem    : Tab Nat := []                 -- R13: CT of the source's previous item
deriving DecidableEq, Repr, Inhabited

/-! ### Power, clocks and modes (spec/03_power_clocks_modes.md) -/

/-- The states of a power domain (R48). -/
inductive DomState where
  | off
  | retain
  | stopped
  | running
deriving DecidableEq, Repr, Inhabited

/-- The eight major modes of R57, and `boot`, reported as 0x8 during reset and boot. -/
inductive Mode where
  | boot
  | dormant
  | commission
  | ready
  | run
  | tune
  | hold
  | safeOff
  | shadow
deriving DecidableEq, Repr, Inhabited

/-- The state of a commanded transition as GET_POWER_STATE reports it (R68). -/
inductive TransState where
  | none
  | pending
  | taken
  | cancelled
deriving DecidableEq, Repr, Inhabited

/-- A commanded transition (R60, R61). -/
structure Trans where
  target : Mode := .boot
  stamp  : Nat := 0
  effB   : Nat := 0
  state  : TransState := .none
deriving DecidableEq, Repr, Inhabited

/-- Power and mode state (R47 to R68). -/
structure Power where
  mode       : Mode := .boot                            -- R57, R72
  domains    : List DomState := [.running, .off, .off, .off, .off, .off, .off, .off, .off, .off, .off, .off, .off, .off]
  offMask    : BitVec 16 := 0                           -- R67
  wake       : SetWake := default                       -- R66
  pending    : List Trans := []                         -- R60, R61: oldest first
  latest     : Option Trans := none                     -- R68
  trigger    : BitVec 8 := 0                            -- the trigger code of the last transition (R62, R467)
  dormantBad : Bool := false                            -- R63, R64: a mismatch latched in DORMANT
  entry      : Option Nat := none                       -- R117: the boundary of entry to RUN or HOLD from READY
deriving DecidableEq, Repr, Inhabited

/-! ### Reset, boot and fuses (spec/04_reset_boot_fuses.md) -/

/-- An image as the boot found it (R75, R76): what is kept of the running one. -/
structure Image where
  source  : BitVec 8 := 0xFF
  major   : BitVec 8 := 0
  minor   : BitVec 8 := 0
  patch   : BitVec 16 := 0
  secver  : BitVec 32 := 0
  digest  : BitVec 256 := 0
deriving DecidableEq, Repr, Inhabited

/-- The fuse array (R78): 16 data rows, the two shadow rows, and how often each row was programmed. -/
structure Fuses where
  rows       : List (BitVec 64) := List.replicate 16 0
  shadow0    : BitVec 64 := 0
  shadow1    : BitVec 64 := 0
  programmed : List Nat := [1, 1, 1, 1, 1, 1, 0, 0, 0, 0, 0, 0, 0, 0, 0, 0]
  sensed     : List (BitVec 64) := List.replicate 16 0   -- as sensed at the last boot (R81)
deriving DecidableEq, Repr, Inhabited

/-- The boot report of R529 and the state of reset and boot (R70 to R77, R85). -/
structure Boot where
  cause      : BitVec 8 := 1                      -- R70
  straps     : BitVec 8 := 0                      -- R42, R529
  role       : BitVec 2 := 0                      -- R43, R80
  step       : BitVec 4 := 1                      -- R92: reset value 1
  fail       : BitVec 8 := 0                      -- R92
  faultN     : Bool := false                      -- R37: the level of the pin; low is asserted
  alive      : Bool := false                      -- R501: the level of ALIVE
  fwRun      : Bool := false                      -- R92
  stopped    : Bool := false                      -- R72: "stop boot"
  initBad    : Bool := false                      -- R72: step 8 failed
  hostBoot   : Bool := false                      -- R74
  image      : Image := default
  attempts   : List (BitVec 8 × BitVec 8) := []   -- R529: source and failure code
  bistFailed : BitVec 16 := 0
  bistSkip   : BitVec 16 := 0
  corrected  : BitVec 16 := 0
  disagree   : BitVec 64 := 0
  duration   : Nat := 0
  released   : Nat := 0                           -- CT of the release of reset
  history    : List Nat := []                     -- R71: stamps of the last consecutive resets 0x4, 0x5
  retained   : BitVec 256 := 0                    -- R63, R76: the digest of the image recorded at verification
  retImage   : List Byte := []                    -- R63: the image that MEMA retains
  retConfig  : List Byte := []                    -- R63: the configuration written into MEMA
  retDigest  : BitVec 256 := 0                    -- R63: and its digest
  tapIr      : BitVec 5 := 0b11111                -- R82: BYPASS
  models     : List (List Byte) := []             -- R261, R256: the arm models of the parameter image
  problems   : List DefineProblem := []           -- R222: the firmware's problem descriptors
  rstLow     : Bool := true                       -- R82: RST_N is low
  pwrLow     : Bool := false                      -- R82: PWRGOOD is low
  bootIn     : BootIn := default                  -- what the boot in progress met, kept for a host boot (R74)
deriving DecidableEq, Repr, Inhabited

/-- RUN_SELFTEST in progress (R528). -/
structure Selftest where
  hdr    : Hdr := default
  blocks : BitVec 8 := 0
  stamp  : Nat := 0
deriving DecidableEq, Repr, Inhabited

/-- The MAINT_MSG register (R83). -/
structure Maint where
  expect   : BitVec 16 := 0               -- E_m
  owned    : Bool := false
  reply    : Option (List Byte) := none   -- the held reply
  lastCrc  : BitVec 32 := 0
  last     : Option (List Byte) := none   -- the stored reply of the last taken message (R101)
  anyTaken : Bool := false
  repeatHeld : Bool := false
deriving DecidableEq, Repr, Inhabited

/-! ### Host links (spec/05_host_mailboxes_data_port.md) -/

/-- One of the eight mailbox slots (R95, R98, R99): inbound and outbound bytes, ownership and readiness. -/
structure Slot where
  inb   : List Byte := []
  outb  : List Byte := []
  owned : Bool := false
  ready : Bool := false
  held  : Option (BitVec 16) := none  -- R101: a repeat waits here for the reply to the message of that sequence
deriving DecidableEq, Repr, Inhabited

/-- A notice of R107. -/
structure Notice where
  ct     : Nat := 0
  source : BitVec 16 := 0
  code   : BitVec 16 := 0
  arg    : BitVec 32 := 0
  seq    : BitVec 16 := 0              -- its number since reset (R114)
deriving DecidableEq, Repr, Inhabited

/-- The host watchdog (R106). -/
structure HostWd where
  period   : Nat := 0                 -- 0 is off
  action   : BitVec 8 := 0
  deadline : Option Nat := none       -- none: enabled but not running, or off
deriving DecidableEq, Repr, Inhabited

/-- The host interface: registers, mailboxes, data port, interrupts, notices (R90 to R110). -/
structure HostIf where
  slots      : Tab Slot := []
  expect     : BitVec 16 := 0                    -- R101: E
  anyTaken   : Bool := false
  lastCrc    : BitVec 32 := 0                    -- R101: crc of the last taken message
  last       : Option (List Byte) := none        -- R101: its stored reply; none while not posted
  ctLatch    : BitVec 64 := 0                    -- R94
  dpOffset   : BitVec 28 := 0                    -- R96
  dpSpace    : BitVec 4 := 0
  dpInc      : Bool := false
  dpErr      : BitVec 4 := 0
  irqEn      : BitVec 32 := 0                    -- R97
  irqSticky  : BitVec 32 := 0                    -- R97: the W1C bits [6:2] as latched
  msiOn      : Bool := false
  msiCount   : Nat := 0                          -- messages sent
  irqCond    : Bool := false                     -- the condition as of the last step
  healthSticky : BitVec 3 := 0                   -- R93: SECDED, NOTICE_LOST, MISSED
  temp       : BitVec 8 := 0                     -- R93
  wd         : HostWd := default
  notices    : List Notice := []                 -- R107: oldest first
  lost       : BitVec 16 := 0
  noticeSeq  : BitVec 16 := 0                    -- R114: number of the next notice
  readData   : List Byte := []                   -- the model's own: the bytes the last host read returned
  linkAt     : Nat := 0                          -- R87: from when the link carries accesses, after a wake or PERST_N
  selftest   : Option Selftest := none
  maint      : Maint := default
  memA       : Memory := []                      -- MEMA, byte offsets (R110)
  memB       : Memory := []                      -- MEMB
  hints      : Memory := []                      -- space 0x5
deriving DecidableEq, Repr, Inhabited


/-! ### Moves (spec/06_move_queue_interpolation.md) -/

/-- One axis of a running move (R122, R125): of a joint, its start and signed displacement; the square of the
displacement in LSB 2^-31 of the limit's unit; and its limits v and a as raw products limit × fraction. -/
structure Axis where
  start : Int := 0
  disp  : Int := 0
  q     : Nat := 0
  qDen  : Nat := 1
  v     : Nat := 0
  a     : Nat := 0
deriving DecidableEq, Repr, Inhabited

/-- A queued move (R119, R139 to R141): joint targets, or a Cartesian pose in a frame. -/
inductive MoveGoal where
  | joint (targets : List Int)
  | cart (frame : BitVec 8) (pos : List Int) (quat : List Int)
deriving DecidableEq, Repr, Inhabited

/-- A move of an arm's queue, with its acceptance stamp and the boundary at which it becomes eligible (R120). -/
structure QMove where
  notify : Bool := false
  id     : BitVec 16 := 0
  vfrac  : Nat := 0
  afrac  : Nat := 0
  blend  : Nat := 0
  goal   : MoveGoal := .joint []
  stamp  : Nat := 0
  seq    : BitVec 16 := 0               -- the sequence of the message that appended it
  effB   : Nat := 0
  lift   : Bool := false
deriving DecidableEq, Repr, Inhabited

/-- A move that has started (R120 to R126, R129). `tau` is in units of 2^-15 CT LSB. -/
structure Run where
  move    : QMove := default
  init    : Bool := false               -- T, t_a and the start have been formed (R123)
  axes    : List Axis := []             -- one per joint, or the line and the rotation
  pose0   : List Rat := []              -- P0 and Q0 of a Cartesian move, in its frame
  t       : Nat := 0                    -- T, CT LSB
  ta      : Nat := 0                    -- t_a, CT LSB
  tau     : Nat := 0
  bEff    : Option Nat := none          -- R130: the decided blend window of its junction
  cut     : Bool := false               -- R129: BLEND_CUT on the junction decided last
deriving DecidableEq, Repr, Inhabited

/-- The states of an arm as GET_ARM_STATE codes them (R145). -/
inductive ArmPhase where
  | idle
  | moving
  | paused
  | stopping
  | stopped
deriving DecidableEq, Repr, Inhabited

/-- The stop sequence of R133: `i` steps of `n` are done. -/
structure StopSeq where
  s0 : Nat := 0
  n  : Nat := 1
  i  : Nat := 0
deriving DecidableEq, Repr, Inhabited

/-- An arm's state as its last completed interpolation left it, which GET_ARM_STATE reports (R145). -/
structure ArmShown where
  phase  : ArmPhase := .idle
  reason : BitVec 8 := 0
  used   : Nat := 0                       -- queue occupancy
  flags  : Nat := 0                       -- bit 0 BLENDING, 1 BLEND_CUT, 2 IK_MISS
  id     : BitVec 16 := 0
  s      : Nat := 0x8000
  scales : List Nat := [0x8000, 0x8000, 0x8000]  -- s_host, s_sep, s_deck
  tau    : Nat := 0
  t      : Nat := 0
  ta     : Nat := 0
  pos    : List Int := []                 -- commanded positions
deriving DecidableEq, Repr, Inhabited

/-- An arm (R116, R119, R131 to R134, R145). -/
structure Arm where
  cfg       : Option ConfigArm := none
  queue     : List QMove := []                -- not started, oldest first
  runs      : List Run := []                  -- started, oldest first; two while blending
  done      : List QMove := []                -- reached their T; retired at the next boundary (R119, R120)
  phase     : ArmPhase := .idle
  reason    : BitVec 8 := 0                   -- R135
  byHold    : Bool := false                   -- stopped by HOLD entry alone (R134)
  s         : Nat := 0x8000                   -- the applied s (R131)
  sl        : Nat := 0x8000                   -- s as slewed towards s_target
  sHost     : Nat := 0x8000
  sSep      : Nat := 0x8000
  sDeck     : Nat := 0x8000
  sSepNext  : Option (Nat × Nat) := none      -- staged, with the boundary from which it is used
  sDeckNext : Option (Nat × Nat) := none
  slew      : Nat := 0x0100
  stopSeq   : Option StopSeq := none
  stopNext  : Option (Nat × BitVec 8 × Nat) := none -- a stop to come: boundary, reason and stamp (R132)
  jstop     : Bool := false                   -- a joint-space stop (R127, R128)
  jn        : Nat := 0                        -- periods of it done
  ikMiss    : Nat := 0                        -- consecutive periods without a usable result
  lastCart  : Option (BitVec 8 × List Int × List Int) := none   -- R126: frame and target of a finished Cartesian move
  shown     : ArmShown := default             -- R145
deriving DecidableEq, Repr, Inhabited

/-- A joint (R116, R117, R137, R20): limits, the commanded position register, what is staged for the next boundary,
what took effect, and the last feedback sample with the boundary count it belongs to. -/
structure Joint where
  vmax     : Nat := 0
  amax     : Nat := 0
  pmin     : Int := 0
  pmax     : Int := 0
  cmd      : Int := 0
  prev     : Int := 0                       -- the setpoint before `cmd`: R127 continues at their difference
  vel      : Int := 0                       -- LSB 2^-16 joint unit/s
  acc      : Int := 0                       -- LSB 2^-16 joint unit/s²
  path     : Int × Nat := (0, 1)            -- the path velocity staged with the setpoint, LSB 2^-16 joint unit/s (R269)
  staged   : Option Int := none             -- position setpoint for B_{k+1}
  out      : Int := 0                       -- the setpoint in effect
  outVel   : Int := 0
  fb       : Int := 0                       -- last feedback position
  fbVel    : Int := 0                       -- and the rest of the frame, as R406 delivers it
  fbTorque : Int := 0
  fbCurrent : Int := 0
  fbState  : BitVec 8 := 0                  -- bit 0 brake released, 1 enabled, 2 at torque limit
  fbStamp  : Option Nat := none
  fbLast   : Option Int := none             -- the position of the sample before it, one period earlier (R203)
  fbCh     : BitVec 10 := 0                 -- the channels of the slot its feedback last came in (R180)
  jbase    : Int := 0                       -- joint-space stop: where it began, the displacement per period it began
  jdiff    : Int := 0                       -- with, and a_i in LSB 2^-31 unit/s² (R127)
  jacc     : Nat := 0
deriving DecidableEq, Repr, Inhabited

/-- A command accepted for a later boundary (R23, R61, R120). -/
structure Waiting where
  effB  : Nat
  stamp : Nat
  cmd   : Instr
  block : List Byte := []                -- the block copied at acceptance (R108)
deriving DecidableEq, Repr

/-! ### Rate multipliers and choppers (spec/07_rate_multiplier_chopper.md) -/

/-- The pulse generator of a step channel (R152, R153), times in F400 ticks. -/
structure Stepper where
  queue   : List Bool := []            -- pending requests, true for positive; at most 3
  dirPos  : Bool := false
  active  : Nat := 0                   -- ticks left of the active part
  quiet   : Nat := 0                   -- ticks left of the inactive part
  setup   : Nat := 0                   -- ticks left of the DIR set-up time
  emitted : Int := 0
deriving DecidableEq, Repr, Inhabited

/-- What GET_RATE_STATE shows of a multiplier: its state as of the last reference tick (R164). -/
structure MultShown where
  a       : BitVec 48 := 0
  v       : Int := 0
  emitted : Int := 0
  lag     : Nat := 0
  sat     : Bool := false
  enabled : Bool := false
deriving DecidableEq, Repr, Inhabited

/-- What GET_RATE_STATE shows of a chopper channel beside it (R164). -/
structure ChopShown where
  refA    : Int := 0
  refB    : Int := 0
  latched : Bool := false
  atHold  : Bool := false
deriving DecidableEq, Repr, Inhabited

/-- A rate multiplier (R146 to R154): the accumulator at the last reference tick, the velocity word, the setpoint of the
next boundary's word, and the ticks run since the reference tick. -/
structure Mult where
  a       : BitVec 48 := 0
  v       : Int := 0
  target  : Option Int := none
  ticks   : Nat := 0
  lag     : Nat := 0                   -- LSB 2^-16 step
  sat     : Bool := false
  overrun : Bool := false
  chopOpen : Bool := false
  step    : Option ConfigStep := none  -- multipliers 0 to 15
  chop    : Option ConfigChopper := none -- multipliers 16 to 23
  gen     : Stepper := default
  loaded  : Bool := false              -- R151: loaded since the last reference tick
  shown   : MultShown := default
deriving DecidableEq, Repr, Inhabited

/-- The phases of a coil's cycle (R158). -/
inductive CoilPhase where
  | off       -- gates low
  | blank     -- drive phase, ISNS ignored
  | drive     -- drive phase after blanking
  | decay     -- off-time: fast decay for its share, then slow decay
  | slow      -- reference 0: slow decay
deriving DecidableEq, Repr, Inhabited

/-- One coil of a chopper channel (R156 to R158). -/
structure CoilState where
  phase : CoilPhase := .off
  neg   : Bool := false                -- polarity of the running cycle
  ref   : Int := 0                     -- the reference taken at the last PWM period
  short : Nat := 0                     -- consecutive drive phases high at blanking end
  since : Nat := 0                     -- when the phase began
  driveAt : Nat := 0                   -- when the last drive phase began
  offAt : List Nat := [0, 0, 0, 0]     -- when the gates HH, HL, LH, LL last went off (R155)
deriving DecidableEq, Repr, Inhabited

/-- A chopper channel (R155 to R160). -/
structure Chopper where
  coilA   : CoilState := default
  coilB   : CoilState := default
  latched : Bool := false              -- latched off by CHOP_SHORT
  zero    : Nat := 0                   -- consecutive periods with V = 0
  atHold  : Bool := false
  shown   : ChopShown := default
deriving DecidableEq, Repr, Inhabited


/-! ### The loop engine (spec/08_loop_engine.md) -/

/-- A stage or core block: its mantissas and their shared exponent (R168, R172, R173). -/
structure Block where
  m : List Int := []
  e : Int := 0
deriving DecidableEq, Repr, Inhabited

/-- One bank record as loaded (R177), with the acceptance stamp of the load or copy that counts for R178; `none` is an
incomplete record. -/
structure BankRec where
  bytes : List Byte := []
  stamp : Option Nat := none
deriving DecidableEq, Repr, Inhabited

/-- The sticky and per-sample flags of R176, bits in the order of its table. -/
abbrev SlotFlags := BitVec 16

/-- A joint slot (R165 to R167, R176, R180 to R183, R190). -/
structure JointSlot where
  cfg      : Option ConfigJointSlot := none
  cfgStamp : Nat := 0                    -- acceptance stamp of its last CONFIG command
  manual   : Bool := false               -- the operating state set by command
  uMan     : Int := 0
  stages   : List Block := []
  core     : Block := default
  flags    : SlotFlags := 0
  sticky   : SlotFlags := 0
  satSaid  : Bool := false               -- SAT noticed since the flags were read
  misses   : Nat := 0
  preset   : Bool := false               -- the next AUTO sample is preset (R183)
  staged   : Option Int := none
  last     : Int := 0                    -- the last staged output
  out      : Option Int := none          -- the output that took effect
deriving DecidableEq, Repr, Inhabited

/-- An arm slot (R184, R191, R192). -/
structure ArmSlot where
  cfg      : Option ConfigArmSlot := none
  cfgStamp : Nat := 0
  target   : List Int := [0, 0, 0, 0, 0, 0]
  cores    : List Block := []
  outs     : List Int := []              -- the axis outputs
  torques  : List Int := []              -- staged joint torques
  preset   : Bool := false
  flags    : SlotFlags := 0
  sticky   : SlotFlags := 0
  satSaid  : Bool := false
deriving DecidableEq, Repr, Inhabited

/-- A local current slot (R185, R186, R193). -/
structure CurrentSlot where
  cfg      : Option ConfigCurrentSlot := none
  cfgStamp : Nat := 0
  coreD    : Block := default
  coreQ    : Block := default
  duties   : List (BitVec 16) := [0, 0, 0]
  flags    : SlotFlags := 0
  sticky   : SlotFlags := 0
  satSaid  : Bool := false
deriving DecidableEq, Repr, Inhabited

/-- The loop engine: slots by index, the two banks (records by kind * 256 + index), the active bank, and an accepted
swap with its boundary and preset flag (R177, R178). -/
structure Loop where
  joints  : Tab JointSlot := []
  arms    : Tab ArmSlot := []
  currents : Tab CurrentSlot := []
  sd      : List Int := []               -- the filter outputs of the last quarter point
  sdBad   : BitVec 24 := 0               -- R495: the inputs with an event since then
  bankA   : Tab BankRec := []
  bankB   : Tab BankRec := []
  activeB : Bool := false
  swap    : Option (Nat × Bool) := none
  bankErr : List Nat := []               -- slots that a double-bit error stopped (R178)
deriving DecidableEq, Repr, Inhabited

/-! ### Tuning (spec/09_tuning_injection.md) -/

/-- The states of an injection as GET_INJECTION_STATE codes them (R212). -/
inductive InjPhase where
  | none
  | pending
  | running
  | done
  | aborted
  | cancelled
deriving DecidableEq, Repr, Inhabited

/-- An injection on one slot and its identification result (R199 to R207, R212). -/
structure Injection where
  p       : StartInjection := default
  phase   : InjPhase := .none
  effB    : Nat := 0                     -- its start boundary
  stopB   : Option Nat := none           -- an accepted STOP_INJECTION
  i       : Nat := 0                     -- n: samples applied
  lfsr    : Nat := 0                     -- PRBS state
  bit     : Bool := false
  held    : Nat := 0                     -- samples the current PRBS bit was held
  phi     : Nat := 0                     -- chirp phase
  outs    : List (Nat × Int) := []       -- R205, R206: c_out and c_fb as recorded, with their stamps, newest first
  fbs     : List (Nat × Int) := []
  idStat  : BitVec 16 := 0
  j       : BitVec 32 := 0
  b       : BitVec 32 := 0
  r       : BitVec 16 := 0
  record  : List Byte := []              -- the proposed record
  clamp   : BitVec 8 := 0
  lost    : Bool := false                -- a record of its channels was lost
deriving DecidableEq, Repr, Inhabited

/-- An identification under way (R206): what the injection that ended with DONE has left. -/
structure Ident where
  p    : StartInjection := default
  at_  : Nat := 0                        -- its start boundary
  outs : List (Nat × Int) := []
  fbs  : List (Nat × Int) := []
  lost : Bool := false
deriving DecidableEq, Repr, Inhabited

/-- An accepted proposal that waits for its retune (R208): the injection's id, and the record. -/
structure Proposal where
  id     : BitVec 16 := 0
  record : List Byte := []
deriving DecidableEq, Repr, Inhabited

/-- The tuning state: injections by slot (kind * 256 + index), bounds, held positions and retune attempts. -/
structure Tuning where
  inj    : Tab Injection := []
  ids    : Tab (Option Ident) := []      -- R206: by slot
  bounds : Tab (Option SetRetuneBounds) := []
  hold   : Tab Int := []                 -- P_hold (R198)
  busy   : Tab Nat := []                 -- periods a retune met BUSY (R208)
  props  : Tab (Option Proposal) := []   -- R208: by slot, neither applied nor skipped yet
  retune : Option (Nat × BitVec 16 × List Byte × List Byte) := none  -- a retune whose swap is accepted: slot, id, old, new
deriving DecidableEq, Repr, Inhabited

/-! ### The solver array (spec/10_solver_array.md) -/

/-- The result area of a problem (R232, R240). -/
structure Result where
  status   : BitVec 16 := 0
  flags    : BitVec 16 := 0
  iters    : BitVec 8 := 0
  lane     : BitVec 8 := 0
  ended    : Nat := 0
  validAt  : Nat := 0
  residual : Int := 0
  sol      : List Int := []
deriving DecidableEq, Repr, Inhabited

/-- What a run has met in its arithmetic: the first OVF with its step and the stored word, the pivot flags, and a
pivot that ends the run. -/
structure Calc where
  ovf   : Option (Nat × Int) := none
  reg   : Bool := false
  small : Bool := false
  stop  : Bool := false
deriving DecidableEq, Repr, Inhabited

/-- A completed outer iteration (R225): its residual, the solution words, and what the run has met by then. -/
structure Iter where
  r     : Int := 0
  x     : List Int := []
  arith : Calc := {}
deriving DecidableEq, Repr, Inhabited

/-- What DLS_IK of an arm stages beside the positions (R249): the Jacobian before the last step, row by row, Q8.24; the tool
pose at the target; and what the feedback pose follows from. -/
structure IkPlan where
  jac   : List (List Int) := []           -- by outer iteration
  poseT : List Int := []
  jpos  : List Int := []                  -- S_k
deriving DecidableEq, Repr, Inhabited

/-- What RNEA of an arm delivers after its build step (R252 to R254): the feedforward area, the regressor with the payload-free
torques, and the normal equations after their update. -/
structure RneaPlan where
  torque : List Int := []
  wrench : List Int := []
  y      : List (List Rat) := []
  tau0   : List Rat := []
  normA  : List Int := []
  normB  : List Int := []
deriving DecidableEq, Repr, Inhabited

/-- What a run makes of the inputs captured at its start: whether they are within their bounds, the arithmetic of the run to
its end, its completed outer iterations, and what its template stages. It is fixed when the run starts; a restart repeats it
(R234). -/
structure RunPlan where
  inRange : Bool := true
  arith   : Calc := {}
  iters   : List Iter := []
  words   : List Int := []                -- the input words that were checked (R221)
  built   : Bool := true                  -- the build step of the first iteration met no OVF
  noDeck  : Bool := false                 -- R250: it had no deck estimate
  factors : List Int := []                -- of the last factorisation: L row by row, then d (R214)
  arm     : Option Nat := none            -- of an allocation: the arm of its lift (R304)
  began   : Nat := 0                      -- when the run started, and its deadline
  dl      : Nat := 0
  ik      : IkPlan := {}
  rnea    : RneaPlan := {}
deriving DecidableEq, Repr, Inhabited

/-- A run released, waiting or on a lane (R224, R225, R234). -/
structure SolverRun where
  dl     : Nat := 0
  lane   : Option Nat := none
  a      : List Int := []                -- the inputs captured at its start
  b      : List Int := []
  plan   : Option RunPlan := none        -- what the run makes of what it captured
deriving DecidableEq, Repr, Inhabited

/-- A solver problem (R222, R223, R239). -/
structure Problem where
  desc    : DefineProblem := default
  a       : List Int := []
  b       : List Int := []
  input   : Bool := false                -- inputs have taken effect
  res     : Result := default
  run     : Option SolverRun := none
  usable  : Bool := true                 -- the status was usable at the last completion (R236)
deriving DecidableEq, Repr, Inhabited

/-- A lane (R241); whether it is retired or stands in for another is its fault channel's (R495). -/
structure Lane where
  runs    : BitVec 32 := 0
  events  : BitVec 32 := 0
  running : Option Nat := none
  regs    : List (BitVec 32) := List.replicate 64 0 -- R214: the register file
  mem     : List Byte := []              -- R214: local memory, at most 16 KiB: descriptor, inputs, factors, result
deriving DecidableEq, Repr, Inhabited

/-- The solver array: problems by id (absent: not defined) and lanes. -/
structure Solver where
  problems : Tab (Option Problem) := []
  lanes    : Tab Lane := []
deriving DecidableEq, Repr, Inhabited


/-! ### Kinematics and dynamics (spec/11_kinematics_dynamics.md) -/

/-- What the firmware keeps per arm with a model (R242 to R256): the record, the feedforward area with its write
stamp, what DLS_IK staged, and the payload applied. -/
structure Kin where
  model    : Option (List Byte) := none
  torque   : List Int := []              -- feedforward area: τ per joint
  wrench   : List Int := [0, 0, 0, 0, 0, 0]
  ffStamp  : Nat := 0
  ikOk     : Bool := false               -- the latest DLS_IK result is usable and staged
  ikPos    : List Int := []              -- staged joint positions
  regY     : List (List Rat) := []       -- R253: Y and τ_0 of the last build step
  tau0     : List Rat := []
  jac      : List Int := []              -- 6 × joints words, Q8.24, row by row
  poseT    : List Int := []              -- tool pose at the target: x, y, z, then the quaternion
  poseF    : List Int := []              -- the pose of the feedback
  payload  : List Int := [0, 0, 0, 0]    -- π_app, format q_x
  normA    : List Int := []              -- the payload normal matrix, lower triangle
  normB    : List Int := []
  prevOk   : Bool := false               -- the previous RNEA run was valid
deriving DecidableEq, Repr, Inhabited

/-! ### Pans and separation (spec/12_pans_separation.md) -/

/-- The state of an object at a pass (R264, R284). -/
inductive ObjPhase where
  | unbound
  | empty
  | valid
  | lost
  | stale
deriving DecidableEq, Repr, Inhabited

/-- An object record (R263) with its stamp. -/
structure ObjRec where
  kind   : BitVec 8 := 0
  flags  : BitVec 8 := 0
  resv   : Bool := false                 -- a reserved value stands in it
  p0     : List Int := [0, 0, 0]
  p1     : List Int := [0, 0, 0]
  radius : Int := 0
  v      : List Int := [0, 0, 0]
  stamp  : Nat := 0
deriving DecidableEq, Repr, Inhabited

/-- An object (R263, R264): the records of its source, and its state and record at the last pass. -/
structure Obj where
  recs   : List ObjRec := []             -- newest first, back to the one of the last pass
  failed : Bool := false
  phase  : ObjPhase := .unbound
  now    : ObjRec := default
deriving DecidableEq, Repr, Inhabited

/-- The results of one pair entry at the last pass (R270, R277, R284). -/
structure PairRes where
  d      : Int := 0
  sp     : Int := 0
  h      : Int := 0
  vr     : Int := 0
  vo     : Int := 0
  cA     : Int := 0
  cB     : Int := 0
  gA     : Int := 0
  gB     : Int := 0
  flags  : BitVec 16 := 0                -- bit 0 VIOLATED, 1 LOST, 2 STALE, 3 tie rule
  pipe   : BitVec 8 := 0
  stamp  : Nat := 0
deriving DecidableEq, Repr, Inhabited

/-- What the last pass gave for a pan (R273, R275, R276, R279, R284). -/
structure PanRes where
  stamp    : Nat := 0
  flags    : BitVec 8 := 0               -- bit 0 SEP request, 1 island request, 2 fallback, 3 DISCREPANCY
  nearest  : BitVec 16 := 0xFFFF
  d        : Int := 0
  sp       : Int := 0
  dIsl     : Int := 0
  dIslSet  : Bool := false
  dSet     : Bool := false
  nearPipe : Nat := 0                    -- the pipeline of the nearest entry
  sHat     : List Nat := []              -- min(s_host, s_deck) of the members at B_k (R277)
  sPan     : List Nat := []              -- s_p,a of the members
deriving DecidableEq, Repr, Inhabited

/-- The separation pass (R268): its boundary, when its inputs were complete, what it captured of them, and which channel has
decided. -/
structure SepPass where
  stamp    : Nat := 0                    -- B_k of the pass
  running  : Bool := false
  inputs   : Option Nat := none          -- when its inputs were complete
  sepDone  : Bool := false
  islDone  : Bool := false
  safePos  : Tab (Option Int) := []      -- safe joint positions for B_k by global joint
  islPos   : Tab (Option Int) := []      -- those that the island has read from the containers itself (R274)
  path     : Tab (Int × Int × Nat) := [] -- S_k and the path velocity by global joint (R269)
deriving DecidableEq, Repr, Inhabited

/-- The safety parameter set (R486): item bytes by opcode * 65536 + key, in the order of the canonical image. -/
abbrev SafetySet := Tab (List Byte)

/-- The separation engine, the island and the planner (R258 to R284). -/
structure Sep where
  pass     : SepPass := default
  objs     : Tab Obj := []
  pairs    : Tab PairRes := []
  pans     : Tab PanRes := []
  planners : Tab SetPanPlanner := []     -- R283: planner configuration by pan
  hints    : Tab SetObjectSource := []   -- bindings to hints, by object
  hintsNext : List SetObjectSource := [] -- bindings accepted in COMMISSION, in effect at commit (R282)
  prevEnds : Tab (List Int) := []        -- measured capsule ends of the last pass, by capsule
  prevSph  : Tab (List Int) := []        -- sphere centres of the last pass, by sphere
  exported : Option (Nat × List Byte) := none -- R438: the stamp and payload of the export container to be sent
  isl      : SafetySet := []             -- R274: the island's own copy of safety kinematics and parameter sets
  islCheck : BitVec 32 := 0              -- and its check value
  first    : Bool := true                -- no decision of SEP since reset or DORMANT
  firstIsl : Bool := true                -- and none of the island
deriving DecidableEq, Repr, Inhabited

/-! ### Deck motion and ballast (spec/13_deck_motion_ballast.md) -/

/-- A motion-sensor port (R285, R286). -/
structure MotionPort where
  cfg      : Option ConfigMotionPort := none
  reading  : Bool := false
  edge     : Nat := 0                    -- the latched stamp of the DRDY edge being read
  lastGood : Option Nat := none
  silence  : Nat := 0                    -- CT from which the next 10 ms of silence count
  sample   : List Int := [0, 0, 0, 0, 0, 0]
  rate     : List Rat := []              -- R287: the rates of its last good sample in the deck frame, rad/s
  force    : List Rat := []              -- and the specific force at the reference point, m/s²
  alpha    : List Rat := []              -- and the angular acceleration from successive samples
  used     : Bool := true                -- fusion has taken it
deriving DecidableEq, Repr, Inhabited

/-- The estimate of fusion after one sample (R287): attitude in rad, heave in m and m/s, and what the sample gave in the deck
frame. -/
structure Fused where
  stamp : Nat := 0
  phi   : Rat := 0
  theta : Rat := 0
  z     : Rat := 0
  vz    : Rat := 0
  omega : List Rat := [0, 0, 0]
  alpha : List Rat := [0, 0, 0]
  force : List Rat := [0, 0, 0]
deriving DecidableEq, Repr, Inhabited

/-- A kept component of the predictor (R289): amplitude, frequency in Hz, and phase in revolutions at the window's first
value. -/
structure Wave where
  amp   : Rat := 0
  freq  : Rat := 0
  phase : Rat := 0
deriving DecidableEq, Repr, Inhabited

/-- The predictor's model (R289): the stamp of the first value of its window, and of heel, trim and heave the mean and the kept
components. -/
structure PredModel where
  since : Nat := 0
  parts : List (Rat × List Wave) := []
deriving DecidableEq, Repr, Inhabited

/-- The deck state record of R288. -/
structure DeckRec where
  stamp   : Nat := 0
  angles  : List (BitVec 32) := [0, 0, 0]
  z       : BitVec 32 := 0
  omega   : List (BitVec 32) := [0, 0, 0]
  alpha   : List (BitVec 32) := [0, 0, 0]
  aRef    : List (BitVec 32) := [0, 0, 0]
  gD      : List (BitVec 32) := [0, 0, 0]
  phiS    : BitVec 32 := 0
  thetaS  : BitVec 32 := 0
  flags   : BitVec 16 := 0
  quality : BitVec 16 := 0
deriving DecidableEq, Repr, Inhabited

/-- The load frame's last pose (R292). -/
structure LoadPose where
  stamp : Nat := 0
  pose  : List Int := []
deriving DecidableEq, Repr, Inhabited

/-- A declared lift (R298). -/
structure Lift where
  p        : DeclareLift := default
  phiRef   : Int := 0
  thetaRef : Int := 0
  tankRef  : List Int := []
  phiEnd   : Int := 0                    -- LSB 2^-24 rad
  thetaEnd : Int := 0
  holding  : Bool := false
  started  : Bool := false
  heelStop : Bool := false
deriving DecidableEq, Repr, Inhabited

/-- The last ballast status (R301). -/
structure BallastStat where
  reqId : BitVec 16 := 0
  state : BitVec 8 := 0
  stamp : Nat := 0
  tanks : List Int := []
deriving DecidableEq, Repr, Inhabited

/-- A ballast request staged for its cycle (R300). -/
structure BallastReq where
  reqId : BitVec 16 := 0
  arm   : Nat := 0
  from_ : Nat := 0                       -- the start of the cycle in which it leaves (R300)
  until_ : Nat := 0
  dm    : List (BitVec 32) := []
deriving DecidableEq, Repr, Inhabited

/-- Deck motion, lifts and ballast (R285 to R306). -/
structure Deck where
  ports     : List MotionPort := [default, default]
  cfg       : Option ConfigDeck := none
  vessel    : Option SetVessel := none
  est       : DeckRec := default
  started   : Option Nat := none         -- when fusion started
  fused     : List Fused := []           -- R287: newest first, back to the one used at B_k
  heaveV    : Rat := 0                   -- R288: the heave speed at B_k, beside the record
  vals      : List (Int × Int × Int) := [] -- R289: φ, θ and z at 16 Hz, newest first; at most 1,024
  valAt     : Nat := 0                   -- the stamp of the newest
  preds     : List (Rat × Rat) := []     -- R290: φ and θ as predicted 2 s ahead at each 16 Hz value since the first model
  model     : Option PredModel := none   -- R289
  means     : List (Nat × Rat × Rat) := [] -- R288: heel and trim at the boundaries of the last T_avg, newest first
  moments   : List (Nat × Rat × Rat) := [] -- R297: and the mass moments, heel and trim
  fHist     : Tab (List (Nat × Rat)) := [] -- R293: by arm, what can still be the largest |f| of the last 64 s, newest first
  limits    : Tab (Option SetDeckLimits) := []
  fPred     : Tab Int := []
  loadDef   : Option DefineLoadFrame := none
  load      : Option LoadPose := none
  loadSaid  : Bool := false              -- LOAD_STALE posted for the present staleness
  ballast   : Option ConfigBallast := none
  bounds    : Option SetBallastBounds := none
  status    : Option BallastStat := none
  lifts     : Tab (Option Lift) := []
  mH        : Int := 0                   -- M_h and M_t, kg·m
  mT        : Int := 0
  alloc     : List (BitVec 32) := []
  allocArm  : Nat := 0
  allocStat : BitVec 16 := 0
  hostSend  : Option Nat := none         -- a SEND_BALLAST_REQUEST with recompute: valid_until of what the allocation gives
  nextReq   : BitVec 16 := 1
  toSend    : Option BallastReq := none
  reqArms   : Tab Nat := []              -- R304: the arm of a request, by req_id
deriving DecidableEq, Repr, Inhabited


/-! ### Signal cores (spec/14_signal_cores.md) -/

/-- A result still in the exposed pipeline (R310, R311): cycles left, the issue order, and what it will write. -/
inductive CoreWrite where
  | g  (i : Nat) (v : BitVec 32)
  | ac (i : Nat) (v : BitVec 80)
  | loop (level : Nat) (r : LoopReg) (v : BitVec 32)
  | survivor (addr : Nat) (bits : List Byte)
  | copy (out : Bool) (dst loc brine n : Nat)
deriving DecidableEq, Repr, Inhabited

/-- A pending result and the cycles until it lands. -/
structure InFlight where
  left : Nat := 0
  w    : CoreWrite := .g 0 0
deriving DecidableEq, Repr, Inhabited

/-- The architectural state of a core (R308), its program counter, delay slots and results in flight (R310, R312), and
what GET_CORE_STATE reports (R332). -/
structure Core where
  g        : Tab (BitVec 32) := []
  ac       : List (BitVec 80) := [0, 0, 0, 0]
  ls       : List (BitVec 18) := [0, 0]
  le       : List (BitVec 18) := [0, 0]
  lc       : List (BitVec 16) := [0, 0]
  st       : BitVec 32 := 0
  svp      : BitVec 18 := 0
  odd      : Bool := false               -- the newest decision record is that of a single bit (R315)
  pm       : List (BitVec 8) := List.replicate 64 0
  ipc      : BitVec 18 := 0
  istat    : BitVec 32 := 0
  pc       : BitVec 18 := 0
  slots    : Nat := 0                    -- delay slots still to issue
  target   : BitVec 18 := 0              -- where they lead
  flight   : List InFlight := []
  mem      : Memory := []                -- local memory (R309)
  busy     : BitVec 32 := 0               -- cycles of the last period
  busyNow  : BitVec 32 := 0               -- and of the present one
  busyMax  : BitVec 32 := 0
deriving DecidableEq, Repr, Inhabited

/-- A user kernel slot (R325, R326, R330, R332). -/
structure Kernel where
  cfg     : Option LoadKernel := none
  image   : List Byte := []              -- R54, R330: its image, which the firmware reloads
  running : Bool := false
  pending : Bool := false
  faulted : Bool := false
  fault   : BitVec 8 := 0
  runs    : BitVec 32 := 0
  last    : BitVec 32 := 0
  largest : BitVec 32 := 0
  addr    : BitVec 32 := 0
deriving DecidableEq, Repr, Inhabited

/-- The signal cores, kernels, the core of each vendor kernel (index id - 1; none: no core), and the decoder core of
each line-mode channel (R322 to R324). -/
structure Sig where
  cores    : Tab Core := []
  kernels  : Tab Kernel := []
  vendor   : List (Option Nat) := [some 0, some 1, some 1, some 2, some 3, some 0]
  decoder  : List (Option Nat) := [some 2, some 3, some 2, some 3, some 2, some 3, some 2, some 3, some 2, some 3]
deriving DecidableEq, Repr, Inhabited

/-! ### The dispatch unit (spec/15_dispatch_unit.md) -/

/-- The event sources of an entry (R333), in code order. -/
inductive EvKind where
  | free
  | boundary
  | quarter
  | frame
  | edge
  | mailbox
  | completion
  | timer
  | trigger
  | hostRun
deriving DecidableEq, Repr, Inhabited

/-- The engines of R333, in code order. -/
inductive Engine where
  | none
  | loop
  | move
  | sep
  | sup
  | sig
  | solver
deriving DecidableEq, Repr, Inhabited

/-- An entry of the event table (R333), less its fires count. -/
structure EvEntry where
  kind     : EvKind := .free
  host     : Bool := false
  priority : Nat := 0
  group    : Nat := 0xFF
  rank     : Nat := 0
  stage    : Nat := 0xFF
  engine   : Engine := .none
  instance_ : Nat := 0xFF
  match_   : Nat := 0
  dlOff    : Nat := 0
  work     : Nat := 0
deriving DecidableEq, Repr, Inhabited

/-- What the unit counts and holds for an entry: its releases since reset, and the events that its source holds while
it is back-pressured, with the stamp of the first and since when (R333, R341). -/
structure EvCount where
  fires     : Nat := 0
  lastK     : Option Nat := none         -- the period of the last release of a BOUNDARY entry (R334)
  held      : Nat := 0
  heldAt    : Nat := 0
  pressed   : Bool := false
  pressedAt : Nat := 0
  said      : Bool := false
  lastAt    : Option Nat := none         -- the stamp of the last fire of a TIMER entry (R333)
  stamps    : List Nat := []             -- the stamps of the frames held, oldest first (R341)
deriving DecidableEq, Repr, Inhabited

/-- The phases of a task (R334 to R339). -/
inductive TaskPhase where
  | waiting
  | ready
  | running
deriving DecidableEq, Repr, Inhabited

/-- What the vendor runtime saves of a preempted task (R319), and where the task goes on. -/
structure CoreSave where
  g   : Tab (BitVec 32) := []
  ac  : List (BitVec 80) := []
  ls  : List (BitVec 18) := []
  le  : List (BitVec 18) := []
  lc  : List (BitVec 16) := []
  st  : BitVec 32 := 0
  svp : BitVec 18 := 0
  odd : Bool := false
  pc  : BitVec 18 := 0
deriving DecidableEq, Repr, Inhabited

/-- A task descriptor (R334, R335). -/
structure Task where
  entry   : Nat := 0
  stamp   : Nat := 0
  dl      : Nat := 0
  period  : Nat := 0
  phase   : TaskPhase := .waiting
  readyAt : Nat := 0
  unit    : Nat := 0
  preempted : Bool := false
  rerun   : Bool := false                -- run again after a fault of its core (R324)
  count   : Nat := 0                     -- further edges that the input latch counted (R341)
  since   : Nat := 0                     -- on a signal core: since when it runs there,
  ran     : Nat := 0                     -- the cycles that it ran before,
  saved   : Option CoreSave := none      -- and its context while it is preempted (R319)
deriving DecidableEq, Repr, Inhabited

/-- A record of the scheduling trace (R344). -/
structure TraceRec where
  ct     : Nat := 0
  seq    : BitVec 16 := 0
  entry  : BitVec 16 := 0
  kind   : BitVec 8 := 0
  engine : BitVec 8 := 0
  inst   : BitVec 8 := 0
  flags  : BitVec 8 := 0
deriving DecidableEq, Repr, Inhabited

/-- The trace (R344 to R346): the ring by record index, the write queue, and its mode. -/
structure Trace where
  store   : Tab TraceRec := []
  queue   : List TraceRec := []
  fill    : Bool := false
  freeze  : Bool := false
  post    : Nat := 0
  left    : Option Nat := none           -- records until a freeze closes the trace
  frozen  : Bool := false
  wp      : Nat := 0
  wraps   : BitVec 32 := 0
  written : Nat := 0
deriving DecidableEq, Repr, Inhabited

/-- A CANCEL_TASK issued to the dispatch cycle that begins at `cycle` (R350). -/
structure CancelReq where
  hdr   : Hdr := default
  entry : Nat := 0
  cycle : Nat := 0
deriving DecidableEq, Repr, Inhabited

/-- The dispatch unit (R333 to R351). -/
structure Disp where
  table    : Tab EvCount := []           -- by entry; the firmware derives the entries from the configuration (R333)
  tasks    : List Task := []             -- in order of becoming ready, then of release
  trace    : Trace := default
  latency  : Nat := 0
  cancels  : List CancelReq := []        -- cancels issued to a dispatch cycle to come, oldest first (R350)
deriving DecidableEq, Repr, Inhabited

/-! ### The skimmer (spec/16_skimmer.md) -/

/-- A skimmer record (R358, R359). -/
structure SkimRec where
  ct    : Nat := 0
  chan  : BitVec 16 := 0
  flags : BitVec 16 := 0
  value : BitVec 32 := 0
deriving DecidableEq, Repr, Inhabited

/-- The capture states of R360, in code order. -/
inductive CapPhase where
  | idle
  | armed
  | post
  | held
  | rearm
deriving DecidableEq, Repr, Inhabited

/-- A channel (R352, R354, R368). -/
structure SkimChan where
  cfg   : ConfigChannel := default
  bound : Option ConfigChannel := none   -- while an injection binds it
  last  : Option (BitVec 32) := none     -- the last stored value
  prev  : Option (BitVec 32) := none     -- the value of the last record at intake, stored or lost
  above : Bool := false
  first : Bool := true                   -- no record since arming
  level : Option Bool := none            -- the filtered level of a PIN channel
  raw   : Option Bool := none            -- the level of its pin, and since when
  rawAt : Nat := 0
deriving DecidableEq, Repr, Inhabited

/-- The skimmer (R352 to R372). -/
structure Skim where
  chans    : Tab SkimChan := []
  cap      : ConfigCapture := default
  trig     : SetTriggers := default
  phase    : CapPhase := .idle
  store    : Tab SkimRec := []
  queue    : List SkimRec := []
  lostRun  : Nat := 0                    -- records lost since the last GAP record
  lostAt   : Nat := 0
  lost     : BitVec 32 := 0
  gapSaid  : Bool := false
  wi       : Nat := 0                    -- write index
  stored   : Nat := 0                    -- records stored since arming
  mask     : BitVec 8 := 0
  first    : BitVec 32 := 0
  trigIdx  : BitVec 32 := 0
  lastIdx  : BitVec 32 := 0
  preAct   : BitVec 32 := 0
  postLeft : Nat := 0
  missed   : BitVec 32 := 0
  missNow  : Nat := 0                    -- misses of the present period
  missAt   : Nat := 0
  trigAt   : Nat := 0
  trigCyc  : Nat := 0                    -- the F300 cycle in which the trigger was accepted
  doneAt   : Nat := 0
  armOut   : Bool := false               -- the device pulls the ARM line low
  fireOut  : Bool := false               -- the device pulls the fire line low
  fireAt   : Nat := 0
  pulled   : BitVec 4 := 0               -- the XTRG lines that something outside pulls low, as far as events say
deriving DecidableEq, Repr, Inhabited

/-! ### PWM and brakes (spec/17_pwm_brake_outputs.md) -/

/-- One phase of a group (R376 to R379): the duty staged and in force, the carry, the refresh count, the high interval of
the cycle, and whether the phase ends the cycle high. -/
structure PwmPhase where
  next  : Option (BitVec 16) := none
  d     : BitVec 16 := 0
  c     : Int := 0
  count : Nat := 0
  r     : Nat := 0
  high  : Bool := false
deriving DecidableEq, Repr, Inhabited

/-- An edge of a gate within a carrier cycle (R377): when, in fine steps from the cycle start, which gate, and whether it turns
on. -/
structure GateEdge where
  step : Int := 0
  gate : Nat := 0                        -- UH UL VH VL WH WL
  on   : Bool := false
deriving DecidableEq, Repr, Inhabited

/-- A PWM group (R373 to R384, R393): `driven` says that the gates follow the phases, and `gates` are the commanded levels
UH UL VH VL WH WL, bit 0 first. -/
structure PwmGroup where
  cfg     : Option ConfigPwmGroup := none
  waits   : List (Nat × List (BitVec 16)) := []  -- DIRECT words that wait, with the boundary from which they may latch (R380)
  phases  : List PwmPhase := [default, default, default]
  driven  : Bool := false
  trip    : Bool := false
  tripAt  : Nat := 0
  tripUntil : Nat := 0                   -- TRIP_N reads low until then
  clearAt : Option Nat := none           -- an accepted CLEAR_TRIP
  restartB : Bool := false               -- R450: the gates restart at the next boundary
  coarse  : Bool := false
  span    : BitVec 16 := 0x400           -- measured span, 1/16 tap
  gates   : BitVec 6 := 0                -- the levels once the edges are past
  before  : BitVec 6 := 0                -- and before them
  edges   : List GateEdge := []          -- the edges of the present cycle, in fine steps after `edgesAt`
  edgesAt : Nat := 0                     -- in fine steps of CT, of which an LSB has 25
  cyc     : Nat := 0                     -- the cycle of the period that opens next (R375)
deriving DecidableEq, Repr, Inhabited

/-- The states of a brake output (R385). -/
inductive BrakePhase where
  | applied
  | pullIn
  | hold
deriving DecidableEq, Repr, Inhabited

/-- A brake output (R385, R386, R395). -/
structure Brake where
  cfg     : Option ConfigBrake := none
  phase   : BrakePhase := .applied
  since   : Nat := 0                     -- stamp of the last state change
  cmdRel  : Bool := false                -- the commanded state
  cmdAt   : Nat := 0
  fb      : Bool := false                -- the accepted level of BRK_FB
  fbAt    : Nat := 0
  relB    : Bool := false                -- reported released at the last boundary
  late    : Bool := false
  dropped : Bool := false
deriving DecidableEq, Repr, Inhabited

/-- PWM groups and brakes. -/
structure Pwm where
  groups : Tab PwmGroup := []
  brakes : Tab Brake := []
deriving DecidableEq, Repr, Inhabited


/-! ### The deck bus (spec/18_deck_bus_line_frames.md, spec/19_deck_bus_schedule_sluice.md) -/

/-- The modes of a channel (R396). -/
inductive ChanMode where
  | off
  | line
  | phy
deriving DecidableEq, Repr, Inhabited

/-- A frame held by a receive buffer or sent (R401). -/
structure Frame where
  type    : BitVec 8 := 0
  flags   : BitVec 8 := 0
  source  : BitVec 16 := 0
  seq     : BitVec 16 := 0
  ct      : Nat := 0
  payload : List Byte := []
deriving DecidableEq, Repr, Inhabited

/-- A bus channel (R396, R400, R410): mode, counters and link. -/
structure Channel where
  mode      : ChanMode := .off
  phyAddr   : BitVec 8 := 0
  accepted  : BitVec 32 := 0
  check     : BitVec 32 := 0
  lengthErr : BitVec 32 := 0
  rangeErr  : BitVec 32 := 0
  corrected : BitVec 32 := 0
  retry     : BitVec 32 := 0
  foreign   : BitVec 32 := 0
  linkDown  : BitVec 32 := 0
  linkUp    : Bool := false
  area      : List Byte := []            -- the decoded bits of the last line-mode frame, in its receive area (R316)
deriving DecidableEq, Repr, Inhabited

/-- A PARAM transaction (R407, R410). -/
structure ParamTx where
  hdr      : Hdr := default
  p        : DriveParam := default
  tid      : BitVec 16 := 0
  deadline : Nat := 0
  sent     : Bool := false
deriving DecidableEq, Repr, Inhabited

/-- What a FEEDBACK frame reports of its drive node (R406). -/
structure NodeRec where
  applied : Nat := 0
  state   : BitVec 8 := 0
  fault   : BitVec 16 := 0
  temp    : BitVec 16 := 0
deriving DecidableEq, Repr, Inhabited

/-- A sent frame: channel set, slot, the channels of the slot that carry it, the frame, the sluice window of R417, and what
stands on the wire: the bauds of a line burst (R398) or the Ethernet frame (R400). -/
structure Sent where
  set    : Nat := 0
  slot   : Nat := 0
  chans  : BitVec 2 := 0
  frame  : Frame := default
  open_  : Nat := 0
  close  : Nat := 0
  baud   : List Bool := []
  ether  : List Byte := []
deriving DecidableEq, Repr, Inhabited

/-- The states of a channel set (R426), in code order. -/
inductive SetState where
  | off
  | listen
  | coldstart
  | integrate
  | synced
  | passive
deriving DecidableEq, Repr, Inhabited

/-- A claim waiting for the host or granted but not yet in effect (R430, R431). -/
structure Claim where
  id    : BitVec 32 := 0
  type  : BitVec 8 := 0
  chan  : BitVec 2 := 0
  size4 : BitVec 16 := 0
deriving DecidableEq, Repr, Inhabited

/-- A grant: carried in the SYNC of its cycle, in effect from the next cycle but one (R431). -/
structure Grant where
  claim : Claim := default
  slot  : Nat := 0
  owner : Nat := 0
  dProp : BitVec 16 := 0
  effB  : Option Nat := none             -- set when its SYNC goes
deriving DecidableEq, Repr, Inhabited

/-- A channel set: a segment's pair A to D, or the spine (R411 to R435). -/
structure BusSet where
  cfg        : ConfigSync := { guard := 1, syncLoss := 4, wAcc := 64, oLim := 192, rateLim := 500 }
  entries    : Tab (BitVec 64) := []     -- schedule entries by slot (R413)
  dProp      : Tab (BitVec 16) := []     -- by owner (R412)
  loaded     : Bool := false
  state      : SetState := .off
  since      : Nat := 0                  -- stamp of the last state change
  cycles     : BitVec 32 := 0            -- cycles in the state
  invalid    : Bool := false             -- a change of Tc made the loaded table invalid (R415)
  eF         : Option Int := none        -- the last correction value; none undefined
  corrAt     : Option Nat := none        -- the cycle for which it was last formed
  sourcesX   : Tab (Option Int) := []    -- this cycle's e by source owner, on X and on Y (R421)
  sourcesY   : Tab (Option Int) := []
  srcCount   : Nat := 0                  -- sources of the last cycle
  valid      : Nat := 0                  -- valid SYNCs of this cycle
  dirty      : Bool := false             -- a SYNC of this cycle was outside its window or of another sched_id
  misses     : Nat := 0                  -- cycles without a valid SYNC
  collisions : BitVec 32 := 0
  truncations : BitVec 32 := 0
  rejections : BitVec 32 := 0
  collided   : Bool := false             -- in this cycle
  clean      : Nat := 0                  -- cold-start cycles without a collision
  backoff    : Option Nat := none        -- t_bo
  claims     : List Claim := []
  grants     : List Grant := []
  granted    : Tab (BitVec 64) := []     -- the spare entries that granted slots replaced
  seen       : List (BitVec 16 × BitVec 16) := []  -- (source, seq) of frames taken in this cycle (R416)
deriving DecidableEq, Repr, Inhabited

/-- The bus: channels in the order of R12, sets, drive profiles, PARAM transactions, and what was sent (R396 to
R435). -/
structure Bus where
  chans    : Tab Channel := []
  sets     : List BusSet := [default, default, default, default,
    { cfg := { set := 4, guard := 1, syncLoss := 4, wAcc := 128, oLim := 192, rateLim := 500 } }]
  profiles : Tab (Option ConfigDriveProfile) := []
  params   : List ParamTx := []
  nextTid  : BitVec 16 := 0
  sent     : List Sent := []             -- the frames sent in the present cycle
  trunc    : Bool := false
  eff      : Tab (Int × Int × Int) := [] -- R404: value, vel_ff and tau_ff of each joint fixed at the last boundary
  nodes    : Tab NodeRec := []           -- by set * 64 + owner
deriving DecidableEq, Repr, Inhabited

/-! ### Hierarchy, pairs and leases (spec/20_spine_pairs_leases.md) -/

/-- A pair that this device arbitrates (R444). -/
structure ArbCell where
  cfg      : Option ArbitratePair := none
  holder   : Option Nat := none          -- the arbiter holder
  former   : Option Nat := none          -- the unit that last was it
  x        : Nat := 0
  prevX    : Nat := 0                    -- X before the last grant, for a grant that is not taken
  grantAt  : Nat := 0                    -- when the last grant went
  formed   : Bool := false               -- a unit has held the lease since the pair was enabled
  request  : Option (Nat × Nat) := none  -- REQUEST of this period: unit and stamp
  release  : Option (Nat × Nat) := none  -- RELEASE: unit and T_r
  healthA  : Option LeaseMsg := none     -- the last message of each unit
  healthB  : Option LeaseMsg := none
  said     : Bool := false               -- NO_HOLDER posted in this episode
  dissolve : Bool := false
  sent     : Option LeaseMsg := none     -- the last message to the pair
deriving DecidableEq, Repr, Inhabited

/-- A worker as the manager sees it (R437, R458). -/
structure Worker where
  joined : Bool := false
  lastRx : Nat := 0
  mode   : Option (BitVec 8) := none     -- none: no message has told it
deriving DecidableEq, Repr, Inhabited

/-- A frame that the unit sends over the mirror link (R447): a record with its parts, a part sent again, an ACK with its pledge, a
NACK or a RELEASE. -/
inductive MirrorFrame where
  | record  (r : MirrorRec)
  | again   (period : BitVec 32) (part : Nat)
  | ack     (k : Nat) (pledge : Nat)
  | nack    (period : BitVec 32) (part : Nat)
  | release (tr : Nat)
deriving DecidableEq, Repr, Inhabited

/-- Pair, lease and mirror state (R436 to R458). -/
structure Pair where
  cell      : BitVec 8 := 0              -- R436
  arb       : BitVec 8 := 0
  cfg       : Option ConfigPair := none  -- R439
  dissolved : Bool := false              -- R454: holds ACTIVE slots as a single device
  xh        : Nat := 0                   -- X_h
  pledgeIn  : Nat := 0                   -- P of the newest pledge received
  pledge    : Nat := 0                   -- the running pledge this unit gave
  partnerX  : Nat := 0                   -- the partner's lease as its messages tell it: LEASE_IN is high while CT < partnerX
  shadowAt  : Option Nat := none         -- the boundary of READY to SHADOW, the partner holding at formation (R59)
  wasHolder : Bool := false              -- LEASE_OUT as of the last step
  recAAt    : Nat := 0                   -- when STO_A of the applied records last changed
  recBAt    : Nat := 0
  tt        : Nat := 0                   -- T_t of the last takeover
  takeovers : BitVec 32 := 0
  lanes     : BitVec 2 := 0              -- lanes up
  lml       : Nat := 0                   -- L_ml
  lastRec   : Option MirrorRec := none   -- the last applied record
  applied   : Bool := false              -- one has been applied since entry to SHADOW
  recNo     : Option (BitVec 32) := none -- the period of the record in reception
  parts     : List (BitVec 8) := []      -- the parts of it that are there
  lastPart  : Option (BitVec 8) := none  -- the number of its last part
  recNew    : MirrorRec := {}            -- what its parts make up
  badPart   : Option (BitVec 8) := none  -- a part waiting to be sent again
  ctErr     : Nat := 0                   -- consecutive records off by more than 102 LSB
  unfit     : BitVec 32 := 0             -- unfit reasons as last said
  partnerFit : Bool := false             -- the partner's last FIT
  partnerDig : BitVec 32 := 0
  resent    : List (BitVec 32 × Nat) := []  -- parts sent again (R447)
  out       : List MirrorFrame := []     -- the mirror frames sent in the present period
  shown     : Tab (List QMove) := []     -- the moves of each arm as the last record sent left them (R448)
  shownVal  : Nat := 0                   -- the stamps of the last 16 Hz value and of the last model sent
  shownFit  : Nat := 0
  toSend    : Option LeaseMsg := none    -- RELEASE waiting for the next slot
  stagedOk  : Nat := 0                   -- the boundary for which every output was staged by D
  cells     : Tab ArbCell := []
  workers   : Tab Worker := []
deriving DecidableEq, Repr, Inhabited

/-! ### Safety functions (spec/21_safety_functions.md) -/

/-- The states of a consumed connection (R485), in code order. -/
inductive ConnState where
  | starting
  | running
  | failed
deriving DecidableEq, Repr, Inhabited

/-- A safety connection (R483, R485, R494). -/
structure Conn where
  state   : ConnState := .starting
  lastSeq : Option (BitVec 16) := none
  tSrc    : Option Nat := none
  lastRx  : Nat := 0
  good    : Nat := 0                     -- consecutive accepted containers
  rejects : List (BitVec 32) := [0, 0, 0, 0, 0, 0, 0]
  outSeq  : BitVec 16 := 0               -- a produced connection's next seq
  stop    : Nat := 0                     -- the function that its last container demands of the device; 0 none
  stopPan : Option (Nat × Nat) := none   -- the pan and function of a demand on one pan
deriving DecidableEq, Repr, Inhabited

/-- A safe joint sample (R484). -/
structure SafeJoint where
  pos     : Int := 0
  vel     : Int := 0
  tSrc    : Nat := 0
  known   : Bool := false
  valid   : Bool := false
  braked  : Bool := false
deriving DecidableEq, Repr, Inhabited

/-- A watched stop and standstill monitoring of one arm (R471). -/
structure Watch where
  e      : Option Nat := none            -- E
  vE     : Tab Int := []                 -- |v(E)| by global joint
  still  : Bool := false                 -- standstill reached
  sos    : Bool := false
  pRef   : Tab Int := []                 -- P_ref by global joint
deriving DecidableEq, Repr, Inhabited

/-- Safe stop 1 in progress (R470). -/
structure Ss1 where
  e       : Nat := 0
  trigger : BitVec 8 := 0
deriving DecidableEq, Repr, Inhabited

/-- The phases of a brake test (R478). -/
inductive TestPhase where
  | wait
  | apply
  | plus
  | minus
deriving DecidableEq, Repr, Inhabited

/-- A brake test in progress (R478). -/
structure BrakeTesting where
  hdr    : Hdr := default
  p      : BrakeTest := default
  joint  : Nat := 0
  phase  : TestPhase := .wait
  until_ : Nat := 0
  posRef : Option Int := none            -- its safe position at step 1
  maxDev : Nat := 0
  failed : Bool := false
deriving DecidableEq, Repr, Inhabited

/-- A SIN pair (R462): the stamp from which its channels differ, and how far DISCREPANCY's clearing has come. -/
structure SinPair where
  differ : Option Nat := none
  disc   : Bool := false                 -- DISCREPANCY of this pair is latched
  both   : Bool := false                 -- both channels have read demand together since
  demand : Bool := false
deriving DecidableEq, Repr, Inhabited

/-- A pan's stop request by channel (R273, R275, R473): bit 0 of `req` is SEP's, bit 1 the island's, bit 2 a STOP
container's. -/
structure PanStop where
  req   : BitVec 3 := 0
  acted : Bool := false
deriving DecidableEq, Repr, Inhabited

/-- A committed copy in MRAM (R487): check value, recorded seal index and code, and the set. -/
structure SetCopy where
  check : BitVec 32 := 0
  index : BitVec 4 := 0
  code  : BitVec 3 := 0
  items : SafetySet := []
deriving DecidableEq, Repr, Inhabited

/-- Safety state (R459 to R494). -/
structure Safety where
  candidate : SafetySet := []
  committed : SafetySet := []
  valid     : Bool := false
  index     : BitVec 4 := 0
  code      : BitVec 3 := 0
  copyA     : Option SetCopy := none
  copyB     : Option SetCopy := none
  sealPins  : BitVec 8 := 0                  -- accepted SEAL (R45)
  sin       : BitVec 16 := 0                 -- accepted SIN
  pairs     : Tab SinPair := []
  stoA      : Bool := false
  stoB      : Bool := false
  stoAAt    : Nat := 0                       -- stamp of the last change
  stoBAt    : Nat := 0
  stoFbA    : Bool := false
  stoFbB    : Bool := false
  fbSince   : Nat := 0                       -- since when both feedbacks have read 1
  edmIn     : BitVec 8 := 0
  permit    : Option Nat := none             -- B_{k+2} of the last renewal (R461)
  latched   : BitVec 32 := 0                 -- latched triggers by code
  latchedAt : Nat := 0                       -- stamp of the latest
  latchedArg : Tab (BitVec 32) := []         -- arg of the DEMAND of each, by code (R492)
  ss1       : Option Ss1 := none
  watch     : Tab Watch := []
  joints    : Tab SafeJoint := []
  pans      : Tab PanStop := []
  conns     : Tab Conn := []
  test      : Option BrakeTesting := none
  lastPass  : Tab Nat := []                  -- by brake
  dueSaid   : BitVec 16 := 0
  needTest  : BitVec 16 := 0                 -- brakes whose late apply or failed test bars RUN (R477)
  needNode  : List Nat := []                 -- joints of drive nodes whose failed test bars RUN
  brakeRel  : BitVec 16 := 0                 -- brakes whose late release latched BRAKE (R467)
  faultChans : List (BitVec 16) := []        -- channels whose fault latched FAULT (R467)
  connTrig  : BitVec 64 := 0                 -- connections whose loss latched CONN
  brakeRelOnly : Bool := false               -- BRAKE is latched by a late release alone
  released  : Bool := false                  -- R475: the brakes have been released at a boundary
deriving DecidableEq, Repr, Inhabited

/-! ### Faults, retirement and the journal (spec/22_faults_retirement_journal.md) -/

/-- A fault channel (R495 to R499, R510). -/
structure FaultChan where
  b         : Nat := 0
  rise      : Nat := 0                   -- the stamp of the rise from 0
  applied   : Nat := 0                   -- decay instants applied since
  tDec      : Nat := 0                   -- their interval
  events    : BitVec 32 := 0
  last      : Option Nat := none
  retired   : Bool := false
  due       : Option Nat := none         -- boundary of a retirement that is due
  partner   : Option (BitVec 16) := none -- the channel it replaces or is replaced by
  changed   : Nat := 0                   -- the stamp of the retirement table's entry
deriving DecidableEq, Repr, Inhabited

/-- The policy of a class (R496). -/
structure FaultPolicy where
  nP   : Nat := 3
  nL   : Nat := 0
  tDec : Nat := 1024000000
deriving DecidableEq, Repr, Inhabited

/-- A journal record (R505). -/
structure JRec where
  ct      : Nat := 0
  num     : BitVec 32 := 0
  source  : BitVec 16 := 0
  seq     : BitVec 16 := 0
  code    : BitVec 16 := 0
  units   : Nat := 0
  flags   : BitVec 8 := 0
  payload : List Byte := []
deriving DecidableEq, Repr, Inhabited

/-- The journal: the ring's units of 32 bytes, the units at which a record begins with their count, the next unit and
num, the queue, and the retirement table (R504 to R507). -/
structure Journal where
  ring    : Tab (List Byte) := []
  heads   : Tab Nat := []
  next    : Nat := 0                     -- the unit of the next record
  newest  : Option Nat := none
  num     : BitVec 32 := 0               -- num of the next record
  written : Nat := 0                     -- units written since manufacture
  freeAt  : Nat := 0                     -- the instant from which the ring takes another record (R507)
  queue   : List JRec := []
  lost    : BitVec 32 := 0               -- records lost since reset
  lostNow : BitVec 32 := 0               -- lost and not yet said
  lostAt  : Nat := 0
  table   : List (BitVec 16 × Bool × Option (BitVec 16) × Nat) := []
deriving DecidableEq, Repr, Inhabited

/-- Faults and the journal (R495 to R510). -/
structure Faults where
  chans    : Tab FaultChan := []
  policies : Tab FaultPolicy := []
  missed   : Option (Nat × Nat × Nat) := none -- this period's missed stagings: first entry, count, stamp (R506)
  journal  : Journal := default
deriving DecidableEq, Repr, Inhabited

/-! ### The whole device -/

/-- Everything the device holds but the queue of waiting commands. -/
structure Dev where
  time    : Time := {}
  power   : Power := {}
  fuses   : Fuses := {}
  boot    : Boot := {}
  host    : HostIf := {}
  arms    : Tab Arm := []
  joints  : Tab Joint := []
  mults   : Tab Mult := []
  chops   : Tab Chopper := []
  loop    : Loop := {}
  tuning  : Tuning := {}
  solver  : Solver := {}
  kin     : Tab Kin := []
  sep     : Sep := {}
  deck    : Deck := {}
  sig     : Sig := {}
  disp    : Disp := {}
  skim    : Skim := {}
  pwm     : Pwm := {}
  bus     : Bus := {}
  pair    : Pair := {}
  safety  : Safety := {}
  faults  : Faults := {}
  waiting : List Waiting := []         -- accepted commands whose effect boundary is to come, oldest first
  fresh   : Nat := 0                   -- the model's own: how many free values have been drawn
deriving DecidableEq, Repr

/-- The state of the machine: the device, and the commands and events that wait, first in, first out. -/
structure State where
  dev     : Dev := {}
  pending : List Instr := []
deriving DecidableEq, Repr

/-- Why the machine would stop. No command and no event of this device stops it: each has an effect, is refused with a
status code of R111, or finds its condition absent and changes nothing. -/
inductive Fault
deriving DecidableEq, Repr

/-- A command without a meaning. -/
inductive Refusal where
  /-- Raised by the dispatch for a row that has no meaning in the model yet, by its mnemonic. Safe. -/
  | notModelled (mnemonic : String)
deriving DecidableEq, Repr

/-- The machine right after reset, before the boot runs: every field at the value the spec gives, and where it gives
none at the value the assumption log names (log entry 1); nothing waits. -/
def State.reset : State := {}

end Sys2Proof.Machine
end

