-- ==== Sys2Proof/Machine/Ops.lean ====
section
/-! DEFINITION. The named operations that the meanings share: tables and memory, bytes and check values, free values,
cell time and boundaries, stamps, notices and the journal queue, and the events of the fault channels. -/

namespace Sys2Proof.Machine

/-- The clamp of R219. -/
def sat32 (x : Int) : Int := clampInt (-2147483648) 2147483647 x

/-! ### Tables -/

/-- The record of a table at a key; the default where none is listed. -/
def look {α : Type} [Inhabited α] : Tab α → Nat → α
  | [], _ => default
  | (k, v) :: t, n => if k = n then v else look t n

/-- A table without its entry at a key. -/
def drop1 {α : Type} (t : Tab α) (n : Nat) : Tab α := t.filter (fun e => e.1 ≠ n)

/-- A table with an entry put in its place; the keys stay strictly rising when they were. -/
def insert1 {α : Type} (n : Nat) (v : α) : Tab α → Tab α
  | [] => [(n, v)]
  | (k, w) :: t => if n < k then (n, v) :: (k, w) :: t else if n = k then (n, v) :: t else (k, w) :: insert1 n v t

/-- A table after a write; writing the default removes the entry, which keeps the form canonical. -/
def put {α : Type} [Inhabited α] [DecidableEq α] (t : Tab α) (n : Nat) (v : α) : Tab α :=
  if v = default then drop1 t n else insert1 n v t

/-- A record of a table changed by a function. -/
def upd {α : Type} [Inhabited α] [DecidableEq α] (t : Tab α) (n : Nat) (f : α → α) : Tab α := put t n (f (look t n))

/-- Every listed record of a table changed by a function; an unlisted record stays at the default. -/
def mapTab {α : Type} [Inhabited α] [DecidableEq α] (f : Nat → α → α) (t : Tab α) : Tab α :=
  t.foldl (fun acc e => put acc e.1 (f e.1 e.2)) t

/-- The canonical form: keys strictly rising, no entry equal to the default. -/
abbrev Tab.wf {α : Type} [Inhabited α] (t : Tab α) : Prop :=
  t.Pairwise (fun a b => a.1 < b.1) ∧ ∀ e ∈ t, e.2 ≠ default

/-! ### Integer roots -/

/-- The root below bit `b`, bit by bit from the top. -/
def isqrtFrom : Nat → Nat → Nat → Nat
  | 0, _, r => r
  | b + 1, n, r => if (r + 2 ^ b) * (r + 2 ^ b) ≤ n then isqrtFrom b n (r + 2 ^ b) else isqrtFrom b n r

/-- The integer square root, for values below 2^320. -/
def isqrt (n : Nat) : Nat := isqrtFrom 160 n 0

/-- rne of the square root of n / m, half to even (R169, R217). -/
def rneSqrt (n m : Nat) : Nat :=
  let f := isqrt (4 * n / m)
  let r := f / 2
  if f % 2 = 0 then r else if f * f * m = 4 * n ∧ r % 2 = 0 then r else r + 1

/-! ### One unit of the device changed by a function -/

def Dev.onTime (d : Dev) (f : Time → Time) : Dev := { d with time := f d.time }

def Dev.onPower (d : Dev) (f : Power → Power) : Dev := { d with power := f d.power }

def Dev.onFuses (d : Dev) (f : Fuses → Fuses) : Dev := { d with fuses := f d.fuses }

def Dev.onBoot (d : Dev) (f : Boot → Boot) : Dev := { d with boot := f d.boot }

def Dev.onHost (d : Dev) (f : HostIf → HostIf) : Dev := { d with host := f d.host }

def Dev.onLoop (d : Dev) (f : Loop → Loop) : Dev := { d with loop := f d.loop }

def Dev.onTuning (d : Dev) (f : Tuning → Tuning) : Dev := { d with tuning := f d.tuning }

def Dev.onSolver (d : Dev) (f : Solver → Solver) : Dev := { d with solver := f d.solver }

def Dev.onSep (d : Dev) (f : Sep → Sep) : Dev := { d with sep := f d.sep }

def Dev.onDeck (d : Dev) (f : Deck → Deck) : Dev := { d with deck := f d.deck }

def Dev.onSig (d : Dev) (f : Sig → Sig) : Dev := { d with sig := f d.sig }

def Dev.onDisp (d : Dev) (f : Disp → Disp) : Dev := { d with disp := f d.disp }

def Dev.onSkim (d : Dev) (f : Skim → Skim) : Dev := { d with skim := f d.skim }

def Dev.onPwm (d : Dev) (f : Pwm → Pwm) : Dev := { d with pwm := f d.pwm }

def Dev.onBus (d : Dev) (f : Bus → Bus) : Dev := { d with bus := f d.bus }

def Dev.onPair (d : Dev) (f : Pair → Pair) : Dev := { d with pair := f d.pair }

def Dev.onSafety (d : Dev) (f : Safety → Safety) : Dev := { d with safety := f d.safety }

def Dev.onFaults (d : Dev) (f : Faults → Faults) : Dev := { d with faults := f d.faults }

def Dev.onJournal (d : Dev) (f : Journal → Journal) : Dev := d.onFaults (fun x => { x with journal := f x.journal })

def Dev.onArm (d : Dev) (a : Nat) (f : Arm → Arm) : Dev := { d with arms := upd d.arms a f }

def Dev.onJoint (d : Dev) (j : Nat) (f : Joint → Joint) : Dev := { d with joints := upd d.joints j f }

def Dev.onMult (d : Dev) (m : Nat) (f : Mult → Mult) : Dev := { d with mults := upd d.mults m f }

def Dev.onChop (d : Dev) (c : Nat) (f : Chopper → Chopper) : Dev := { d with chops := upd d.chops c f }

def Dev.onKin (d : Dev) (a : Nat) (f : Kin → Kin) : Dev := { d with kin := upd d.kin a f }

/-! ### Bytes, words and check values -/

/-- The number that bytes spell, least significant first (R4). -/
def leNat : List Byte → Nat
  | [] => 0
  | b :: bs => b.toNat + 256 * leNat bs

/-- The `n` bytes of a number, least significant first. -/
def leBytes : Nat → Nat → List Byte
  | 0, _ => []
  | n + 1, v => BitVec.ofNat 8 v :: leBytes n (v / 256)

/-- The bytes of a word of whole bytes. -/
def wordBytes {w : Nat} (v : BitVec w) : List Byte := leBytes (w / 8) v.toNat

/-- The two's complement bytes of an integer, in `n` bytes. -/
def intBytes (n : Nat) (v : Int) : List Byte := leBytes n (BitVec.ofInt (8 * n) v).toNat

/-- A word of `w` bits, of whole bytes, at a byte offset; bytes that are missing read 0. -/
def rd (w : Nat) (b : List Byte) (off : Nat) : BitVec w := BitVec.ofNat w (leNat ((b.drop off).take (w / 8)))

/-- `n` words of `w` bits from a byte offset on, as many as the bytes hold. -/
def rdList (w : Nat) (b : List Byte) (off : Nat) : Nat → List (BitVec w)
  | 0 => []
  | n + 1 => if off < b.length then rd w b off :: rdList w b (off + w / 8) n else []

/-- All the words of `w` bits that bytes hold. -/
def rdWords (w : Nat) (b : List Byte) : List (BitVec w) := rdList w b 0 ((b.length + w / 8 - 1) / (w / 8))

/-- Bit `i` of a word is put at a value. -/
def setBit {w : Nat} (v : BitVec w) (i : Nat) (x : Bool) : BitVec w :=
  if x then v ||| BitVec.ofNat w (2 ^ i) else v &&& ~~~(BitVec.ofNat w (2 ^ i))

/-- Bit 0 or 1 as a number. -/
def bit (x : Bool) : Nat := if x then 1 else 0

/-- One bit step of a bit-reflected CRC-32. -/
def crcStep (poly c : BitVec 32) : BitVec 32 := if c.getLsbD 0 then (c >>> 1) ^^^ poly else c >>> 1

/-- One byte of a bit-reflected CRC-32. -/
def crcByte (poly c : BitVec 32) (b : Byte) : BitVec 32 :=
  let s := crcStep poly
  s (s (s (s (s (s (s (s (c ^^^ b.setWidth 32))))))))

/-- A bit-reflected CRC-32 with initial value and final XOR 0xFFFF_FFFF; `poly` is the reversed polynomial. -/
def crcReflected (poly : BitVec 32) (bs : List Byte) : BitVec 32 :=
  bs.foldl (crcByte poly) 0xFFFFFFFF ^^^ 0xFFFFFFFF

/-- CRC-32C: 0x1EDC_6F41, bit-reflected (R98). -/
def crc32c (bs : List Byte) : BitVec 32 := crcReflected 0x82F63B78 bs

/-- The safety check: 0xF4AC_FB13, bit-reflected (R482). -/
def safetyCrc (bs : List Byte) : BitVec 32 := crcReflected 0xC8DF352F bs

/-- Bytes padded with zeros to a multiple of four. -/
def pad4 (b : List Byte) : List Byte := b ++ List.replicate ((4 - b.length % 4) % 4) 0

/-- A word added with saturation at its largest value. -/
def satInc {w : Nat} (v : BitVec w) : BitVec w := if v = BitVec.allOnes w then v else v + 1

/-! ### Memory -/

/-- `n` bytes of a memory from an offset on. -/
def memRead (m : Memory) (off : Nat) : Nat → List Byte
  | 0 => []
  | n + 1 => look m off :: memRead m (off + 1) n

/-- A memory after bytes are written from an offset on. -/
def memWrite (m : Memory) (off : Nat) : List Byte → Memory
  | [] => m
  | b :: bs => memWrite (put m off b) (off + 1) bs

/-! ### Free values -/

/-- The device after `n` free values have been drawn. -/
def Dev.draw (d : Dev) (n : Nat) : Dev := { d with fresh := d.fresh + n }

/-- `n` free integers, drawn at the counter. -/
def Dev.freeInts (d : Dev) (n : Nat) : List Int := (List.range n).map (fun i => Config.freeInt (d.fresh + i))

/-- `n` free words of 32 bits, drawn at the counter. -/
def Dev.freeWords (d : Dev) (n : Nat) : List (BitVec 32) :=
  (List.range n).map (fun i => Config.freeWord (d.fresh + i) 32)

/-! ### Cell time and the control period -/

/-- The state of the time base at an instant: CT never moves backwards (R9). -/
def Dev.advance (d : Dev) (t : Nat) : Dev := { d with time := { d.time with ct := max d.time.ct t } }

/-- Boundary `j` of the epoch in force (R19). -/
def Dev.boundary (d : Dev) (j : Nat) : Nat := d.time.ct0 + j * d.time.tc

/-- The present boundary B_k. -/
def Dev.bk (d : Dev) : Nat := d.boundary d.time.k

/-- The next boundary B_{k+1}. -/
def Dev.bNext (d : Dev) : Nat := d.boundary (d.time.k + 1)

/-- The control period from B_{k+1} on: the one of a SET_TIMING that takes effect there, else the present one. -/
def Dev.tcNext (d : Dev) : Nat :=
  match (d.time.pending.filter (fun p => decide (p.effB = d.bNext))).getLast? with
  | some p => p.tc
  | none => d.time.tc

/-- B_{k+2}. -/
def Dev.bNext2 (d : Dev) : Nat := d.bNext + d.tcNext

/-- The effect boundary of a command accepted with a stamp (R23), and E(t) of a demand (R469). -/
def Dev.effectAt (d : Dev) (t : Nat) : Nat :=
  if t + 4096 ≤ d.bNext then d.bNext
  else if t + 4096 ≤ d.bNext2 then d.bNext2
  else d.bNext2 + d.tcNext * ((t + 4096 - d.bNext2 + d.tcNext - 1) / d.tcNext)

/-- The first boundary after a stamp. -/
def Dev.boundaryAfter (d : Dev) (t : Nat) : Nat :=
  if t < d.bNext then d.bNext else d.bNext + d.tcNext * ((t - d.bNext) / d.tcNext + 1)

/-- The code of SET_TIMING for a control period in LSB (R18, R114). -/
def tcCode (tc : Nat) : Nat := if tc = 64000 then 0 else if tc = 128000 then 1 else if tc = 256000 then 2 else 3

/-- The control period in LSB for a code of SET_TIMING. -/
def tcOfCode (c : Nat) : Nat := 64000 * 2 ^ c

/-! ### Roles, pairs and leases as other rules ask for them -/

/-- The device is strapped or fused ARBITER (R3, R43). -/
def Dev.isArbiter (d : Dev) : Bool := d.boot.role = 2

/-- The device is a MANAGER. -/
def Dev.isManager (d : Dev) : Bool := d.boot.role = 1

/-- The device is a unit of a pair (R439, R454). -/
def Dev.inPair (d : Dev) : Bool := d.pair.cfg.isSome && !d.pair.dissolved

/-- The unit holds the lease: CT below X_h, and CT valid (R445). -/
def Dev.holdsLease (d : Dev) : Bool := d.inPair && d.time.valid && decide (d.time.ct < d.pair.xh)

/-- ACTIVE slots are this device's: it holds the lease, or it is in no pair (R414). -/
def Dev.active (d : Dev) : Bool := !d.inPair || d.holdsLease

/-- UNIT of the source identity (R12, R436). -/
def Dev.unitBits (d : Dev) : Nat :=
  if d.isArbiter then (if d.pair.arb = 1 then 3 else 2)
  else match d.pair.cfg with
    | some c => if c.unit = 1 then 1 else 0
    | none => 0

/-- The source identity of a class and number (R12). -/
def Dev.source (d : Dev) (cls inst : Nat) : BitVec 16 :=
  BitVec.ofNat 16 (d.pair.cell.toNat % 16 * 4096 + d.unitBits * 1024 + cls % 16 * 64 + inst % 64)

/-! ### Stamps (R11, R13) -/

/-- A source stamps an item at an instant: its sequence advances, and the stamp moves on by 1 LSB where the sequence
wraps at an unchanged CT. Answers the stamp, the sequence and the device. -/
def Dev.stampItem (d : Dev) (cls inst t : Nat) : Nat × BitVec 16 × Dev :=
  let key := cls * 64 + inst
  let n := look d.time.seqs key
  let t' := if n = 0 ∧ look d.time.lastItem key = t + 1 then t + 1 else t
  (t', n, { d with time := { d.time with
    seqs := put d.time.seqs key (n + 1), lastItem := put d.time.lastItem key (t' + 1) } })

/-! ### Interrupts, notices and the journal queue -/

/-- A W1C bit of IRQ_STAT is set (R97). -/
def Dev.irq (d : Dev) (i : Nat) : Dev := { d with host := { d.host with irqSticky := setBit d.host.irqSticky i true } }

/-- The units of a record with a payload of `n` bytes (R505). -/
def recUnits (n : Nat) : Nat := (24 + n + 31) / 32

/-- A record joins the journal queue, unless the queue is full and its class may be dropped (R507). -/
def Dev.queueRecord (d : Dev) (r : JRec) : Dev :=
  let j := d.faults.journal
  let cls := r.code.toNat / 256
  let j' := if 128 ≤ j.queue.length ∧ cls ≠ 0x01 ∧ cls ≠ 0x0E
    then { j with lost := j.lost + 1, lostNow := satInc j.lostNow, lostAt := r.ct }
    else { j with queue := j.queue ++ [r] }
  { d with faults := { d.faults with journal := j' } }

/-- A journal record of a source (R505, R506). -/
def Dev.journal (d : Dev) (cls inst t : Nat) (code : BitVec 16) (payload : List Byte) : Dev :=
  let (t', n, d') := d.stampItem cls inst t
  d'.queueRecord { ct := t', source := d.source cls inst, seq := n, code := code, units := recUnits payload.length,
                   payload := payload }

/-- A notice at its place in the queue, which stands in order of stamp (R107): after every notice whose stamp is not later. The
numbers stay in the order of the queue. -/
def insertNotice (n : Notice) : List Notice → List Notice
  | [] => [n]
  | m :: l => if n.ct < m.ct then { n with seq := m.seq } :: insertNotice { m with seq := n.seq } l else m :: insertNotice n l

/-- A notice joins the queue, or is counted lost (R107). -/
def Dev.queueNotice (d : Dev) (n : Notice) : Dev :=
  let h := d.host
  let n' := { n with seq := h.noticeSeq }
  let h' := if 256 ≤ h.notices.length
    then { h with lost := satInc h.lost, healthSticky := setBit h.healthSticky 1 true }
    else { h with notices := insertNotice n' h.notices }
  { d with host := { h' with noticeSeq := h.noticeSeq + 1 } }

/-- A notice of a source; where its chapter says so it is journalled with its arg and the given items (R107, R506). -/
def Dev.notice (d : Dev) (cls inst t : Nat) (code : BitVec 16) (arg : BitVec 32) (journalled : Bool)
    (items : List Byte := [0, 0, 0, 0]) : Dev :=
  let (t', n, d') := d.stampItem cls inst t
  let src := d.source cls inst
  let d'' := d'.queueNotice { ct := t', source := src, code := code, arg := arg }
  if journalled then
    d''.queueRecord { ct := t', source := src, seq := n, code := code, units := recUnits (4 + items.length),
                      payload := wordBytes arg ++ items }
  else d''

/-! ### Commands whose effect boundary is to come (R23) -/

/-- A command joins those that wait for their boundary. -/
def Dev.await (d : Dev) (stamp : Nat) (c : Instr) : Dev :=
  { d with waiting := d.waiting ++ [{ effB := d.effectAt stamp, stamp := stamp, cmd := c }] }

/-- A command joins them with the block that it copied (R108). -/
def Dev.awaitBlock (d : Dev) (stamp : Nat) (c : Instr) (b : List Byte) : Dev :=
  { d with waiting := d.waiting ++ [{ effB := d.effectAt stamp, stamp := stamp, cmd := c, block := b }] }

/-! ### Fault channels (R495 to R497) -/

/-- The id of a fault channel (R495). -/
def chanId (cls idx : Nat) : BitVec 16 := BitVec.ofNat 16 (cls * 256 + idx)

/-- How many channels a class has (R495). -/
def classSize : Nat → Nat
  | 0x01 => 10 | 0x02 => 2 | 0x03 => 36 | 0x04 => 4 | 0x05 => 4 | 0x06 => 8 | 0x07 => 24 | 0x08 => 2 | 0x09 => 24
  | 0x0A => 1 | _ => 0

/-- The id names a channel of R495. -/
def isChan (id : BitVec 16) : Bool := decide (id.toNat % 256 < classSize (id.toNat / 256))

/-- The record of a fault channel. -/
def Dev.chan (d : Dev) (id : BitVec 16) : FaultChan := look d.faults.chans id.toNat

/-- The channel is retired. -/
def Dev.isRetired (d : Dev) (cls idx : Nat) : Bool := (d.chan (chanId cls idx)).retired

/-- The policy of a channel's class (R496). -/
def Dev.policyOf (d : Dev) (id : BitVec 16) : FaultPolicy := look d.faults.policies (id.toNat / 256)

/-- A sigma-delta input belongs to a configured current slot: group g uses inputs 3g to 3g+2 (R186). -/
def Dev.sdInUse (d : Dev) (i : Nat) : Bool := (look d.loop.currents (i / 3)).cfg.isSome

/-- The channel is in use (R495): it is configured, or it is a lane or spare taking its lane test; what the host has switched off is
not (log entry 206). -/
def Dev.chanInUse (d : Dev) (id : BitVec 16) : Bool :=
  let i := id.toNat % 256
  match id.toNat / 256 with
  | 0x01 => decide ((look d.bus.chans i).mode ≠ .off)
  | 0x02 => match d.pair.cfg with
    | some c => c.lanes.getLsbD i
    | none => false
  | 0x03 => !d.isArbiter && !d.power.offMask.getLsbD (if i < 18 then 4 else 5)
  | 0x04 => !d.isArbiter && !d.power.offMask.getLsbD 6
  | 0x05 => !d.isArbiter && !d.power.offMask.getLsbD 7
  | 0x06 => (look d.pwm.groups i).cfg.isSome
  | 0x07 => d.sdInUse i
  | 0x08 => match (d.deck.ports.getD i default).cfg with
    | some c => decide (c.enable = 1)
    | none => false
  | 0x09 => (look d.mults i).step.isSome || (look d.mults i).chop.isSome
  | 0x0A => !d.power.offMask.getLsbD 13
  | _ => false

/-- How many channels are retired: HEALTH.RETIRED saturates at 255 (R93). -/
def Dev.retiredCount (d : Dev) : Nat := (d.faults.chans.filter (fun e => e.2.retired)).length

/-- The domains that a mask keeps off: in the ARBITER role those of R50 stay off whatever it says. -/
def Dev.offMaskOf (d : Dev) (m : BitVec 16) : BitVec 16 := if d.isArbiter then m ||| 0x09F8 else m

/-- The host has switched a domain off, counting a SET_DOMAINS accepted and not yet in effect (R50, R67). -/
def Dev.domOff (d : Dev) (i : Nat) : Bool :=
  (d.waiting.foldl (fun acc w => match w.cmd with
    | .setDomains _ p => d.offMaskOf p.offMask
    | _ => acc) d.power.offMask).getLsbD i

/-- The host has switched off both halves of the solver array (R50). -/
def Dev.solverOff (d : Dev) : Bool := d.domOff 4 && d.domOff 5

/-- The domain that a class of stamping source lies in (R12, R47); a solver source is a lane. -/
def sourceDomain (cls inst : Nat) : Nat :=
  match cls with
  | 1 => 1 | 2 => 2 | 3 => 7 | 4 => if inst < 18 then 4 else 5 | 5 => 3 | 6 => 6 | 7 => 8 | 8 => 9 | 10 => 11 | 11 => 10
  | _ => 0

/-- The sources of domains that power up from OFF begin again with sequence 0 (R13). -/
def Time.restartSources (x : Time) (up : Nat → Bool) : Time :=
  let keep := fun (k : Nat) => !up (sourceDomain (k / 64) (k % 64))
  { x with seqs := x.seqs.filter (fun e => keep e.1), lastItem := x.lastItem.filter (fun e => keep e.1) }

/-- The domain of a solver lane is not switched off (R50, R215). -/
def Dev.laneOn (d : Dev) (l : Nat) : Bool := !d.power.offMask.getLsbD (if l < 18 then 4 else 5)

/-- HEALTH.NO_SPARE (R93, R498): some retired channel's service is taken over by no spare; a lane of 32 to 35, and a
lane whose domain is switched off, does not set it. -/
def Dev.noSpare (d : Dev) : Bool :=
  d.faults.chans.any (fun e => e.2.retired &&
    (if e.1 / 256 = 3 then decide (e.1 % 256 < 32) && d.laneOn (e.1 % 256) && e.2.partner.isNone else true))

/-- A bucket after the decay instants up to a stamp (R496). -/
def FaultChan.decayTo (c : FaultChan) (t : Nat) : FaultChan :=
  if c.b = 0 ∨ c.tDec = 0 ∨ t < c.rise then c
  else
    let due := (t - c.rise) / c.tDec
    let b' := c.b - (due - c.applied)
    { c with b := b', applied := due }

/-- A bucket after an event at a stamp (R496): its decay instants come first, and the rise from 0 sets new ones. -/
def FaultChan.event (c : FaultChan) (tDec t : Nat) : FaultChan :=
  let c' := c.decayTo t
  let c'' := if c'.b = 0 then { c' with rise := t, applied := 0, tDec := tDec } else c'
  { c'' with b := min 255 (c''.b + 1), events := c''.events + 1, last := some t }

/-- The event makes the channel permanent (R497). -/
def permanentAt (p : FaultPolicy) (auto : Bool) (b : Nat) : Bool :=
  decide (p.nP ≤ b) || (auto && decide (0 < p.nL) && decide (p.nL ≤ b))

/-- arg of the notices of class 0x0F: channel id and bucket (R508). -/
def faultArg (id : BitVec 16) (b : Nat) : BitVec 32 := BitVec.ofNat 32 (id.toNat + b % 256 * 65536)

/-- An entry of the retirement table is written (R504): filled in the order in which channels first changed. -/
def Journal.tableSet (j : Journal) (id : BitVec 16) (retired : Bool) (partner : Option (BitVec 16)) (t : Nat) :
    Journal :=
  { j with table :=
    if j.table.any (fun e => e.1 = id) then j.table.map (fun e => if e.1 = id then (id, retired, partner, t) else e)
    else j.table ++ [(id, retired, partner, t)] }

/-- A level of THRESHOLD is posted and journalled (R497). -/
def Dev.threshold (d : Dev) (id : BitVec 16) (b t level : Nat) : Dev :=
  d.notice 1 0 t 0x0F01 (faultArg id b) true (leBytes 4 level)

/-- An event of a fault channel (R495 to R497): counted once per stamp on a channel in use and in service; THRESHOLD
where the bucket rises to a threshold; and where the channel becomes permanent, its retirement is set for the first
boundary after the stamp and its entry of the retirement table is written. -/
def Dev.faultEvent (d : Dev) (cls idx t : Nat) : Dev :=
  let id := chanId cls idx
  let c := d.chan id
  if c.retired ∨ !d.chanInUse id ∨ c.last = some t then d
  else
    let p := d.policyOf id
    let c' := c.event p.tDec t
    let due := if permanentAt p (d.time.policyForce = .autonomous) c'.b ∧ c'.due = none then some (d.boundaryAfter t)
      else c'.due
    let d1 := { d with faults := { d.faults with chans := put d.faults.chans id.toNat { c' with due := due } } }
    let d2 := if 0 < p.nL ∧ c'.b = p.nL ∧ c'.b ≠ (c.decayTo t).b then d1.threshold id c'.b t 0 else d1
    let d3 := if c'.b = p.nP ∧ c'.b ≠ (c.decayTo t).b then d2.threshold id c'.b t 1 else d2
    if due ≠ c'.due then
      { d3 with faults := { d3.faults with journal := d3.faults.journal.tableSet id true none (due.getD 0) } }
    else d3

end Sys2Proof.Machine
end

