-- ==== Sys2Proof/Machine/Operands.lean ====
section
/-! DEFINITION. Fuse fields, mode and status codes, the register and pin views, block references, and how a message is
taken, judged and answered (R98 to R102, R108, R527). -/

namespace Sys2Proof.Machine

/-! ### Codes -/

/-- The status codes of R111. -/
inductive Status where
  | ok | busy | length | check | mode | fused | range | seq | deadline | retired | notconv | okCapped | pivot
  | pivotReg | tripActive | lease | sealed | unconfirmed | queueFull | unknownOpcode
deriving DecidableEq, Repr, Inhabited

/-- The code of a status (R111). -/
def Status.code : Status → Nat
  | .ok => 0 | .busy => 1 | .length => 2 | .check => 3 | .mode => 4 | .fused => 5 | .range => 6 | .seq => 7
  | .deadline => 8 | .retired => 9 | .notconv => 0xA | .okCapped => 0xB | .pivot => 0xC | .pivotReg => 0xD
  | .tripActive => 0xE | .lease => 0xF | .sealed => 0x10 | .unconfirmed => 0x11 | .queueFull => 0x12
  | .unknownOpcode => 0x13

/-- The mode code of R57. -/
def Mode.code : Mode → Nat
  | .dormant => 0 | .commission => 1 | .ready => 2 | .run => 3 | .tune => 4 | .hold => 5 | .safeOff => 6
  | .shadow => 7 | .boot => 8

/-- The mode that a code names. -/
def Mode.ofCode : Nat → Mode
  | 0 => .dormant | 1 => .commission | 2 => .ready | 3 => .run | 4 => .tune | 5 => .hold | 6 => .safeOff | 7 => .shadow
  | _ => .boot

/-- The modes with torque: RUN, HOLD and TUNE. -/
def Mode.torque : Mode → Bool
  | .run => true | .hold => true | .tune => true | _ => false

/-- All modes except DORMANT. -/
def awake : List Mode := [.commission, .ready, .run, .tune, .hold, .safeOff, .shadow]

/-! ### Fuses (R78, R79) -/

/-- Bit `i` of the map of R79 as sensed at the last boot. -/
def Dev.fuse (d : Dev) (i : Nat) : Bool := (d.fuses.sensed.getD (i / 64) 0).getLsbD (i % 64)

/-- A field of the map as sensed. -/
def Dev.fuseField (d : Dev) (lo n : Nat) : Nat :=
  (List.range n).foldr (fun i acc => bit (d.fuse (lo + i)) + 2 * acc) 0

/-- Blown bits of a row. -/
def ones (r : BitVec 64) : Nat := ((List.range 64).filter (fun i => r.getLsbD i)).length

/-- C, the anti-rollback count as sensed (R79). -/
def Dev.rollback (d : Dev) : Nat := ones (d.fuses.sensed.getD 10 0)

/-- CLASS_FORBID for an opcode class in the present mode (R79). -/
def Dev.classForbidden (d : Dev) (cls : Nat) : Bool :=
  decide (2 ≤ cls) && decide (cls ≤ 0xE) && decide (d.power.mode ≠ .boot)
    && d.fuse (704 + 8 * (cls - 2) + d.power.mode.code)

/-! ### Replies -/

/-- A reply in the format of R98 and R99. -/
def replyBytes (op : Nat) (seq : BitVec 16) (repeated taken : Bool) (ct : Nat) (st : Status) (data : List Byte) :
    List Byte :=
  let payload := leBytes 2 st.code ++ [0, 0] ++ pad4 data
  let body := leBytes 2 op ++ wordBytes seq ++ leBytes 2 payload.length
    ++ leBytes 2 (1 + 2 * bit repeated + 4 * bit taken) ++ leBytes 8 ct ++ payload
  body ++ wordBytes (crc32c body)

/-- A stored reply with REPEAT set, for a repeat (R101). -/
def asRepeat (r : List Byte) : List Byte :=
  let body := (r.take (r.length - 4)).set 6 (r.getD 6 0 ||| 2)
  body ++ wordBytes (crc32c body)

/-- A reply is put into an outbound slot and MBX_OUT_DB shows it (R95, R99). -/
def HostIf.putReply (h : HostIf) (slot : Nat) (r : List Byte) : HostIf :=
  { h with slots := upd h.slots slot (fun s => { s with outb := r, ready := true, owned := true, held := none }) }

/-- The reply of a taken message is posted; a repeat of it that is held gets the same reply, with REPEAT set
(R101), whatever was taken in between. -/
def Dev.reply (d : Dev) (h : Hdr) (op : Nat) (st : Status) (data : List Byte) : Dev :=
  let r := replyBytes op h.seq false true h.stamp st data
  match h.link with
  | .host =>
    let lastOne := h.seq + 1 = d.host.expect
    let host1 := d.host.putReply h.slot r
    let host2 := if lastOne then { host1 with last := some r } else host1
    let heldSlots := (List.range 8).filter (fun i => decide ((look host2.slots i).held = some h.seq))
    { d with host := heldSlots.foldl (fun a i => a.putReply i (asRepeat r)) host2 }
  | .maint =>
    let m := d.host.maint
    let lastOne := h.seq + 1 = m.expect
    { d with host := { d.host with maint :=
      { m with owned := false, reply := some (if m.repeatHeld then asRepeat r else r), repeatHeld := false,
               last := if lastOne then some r else m.last } } }

/-- The message is taken (end of step 4 of R100): E advances, its crc is kept for the repeat rule, the host watchdog
is renewed by a message of the host link (R106), and CT has reached the acceptance stamp. -/
def Dev.take (d : Dev) (h : Hdr) : Dev :=
  let d := d.advance h.stamp
  match h.link with
  | .host =>
    { d with host := { d.host with
      expect := h.seq + 1, anyTaken := true, lastCrc := h.crc, last := none,
      slots := upd d.host.slots h.slot (fun s => { s with owned := true }),
      wd := if d.host.wd.period = 0 then d.host.wd
        else { d.host.wd with deadline := some (h.stamp + d.host.wd.period) } } }
  | .maint =>
    { d with host := { d.host with maint :=
      { d.host.maint with expect := h.seq + 1, anyTaken := true, lastCrc := h.crc, last := none, owned := true,
                          reply := none } } }

/-! ### How a command is judged (R100, R527) -/

/-- On which link a command is accepted (R83, R527): on both; on both and on neither while a bit of R79 is blown; on the
host link alone; through MAINT_MSG alone; as a maintenance write under an MF_* bit of R79, on the host link too or not;
or so under a condition on its parameters. -/
inductive LinkRule where
  | both
  | bothUnless (mf : Nat)
  | hostOnly
  | maintOnly
  | write (mf : Nat) (onHost : Bool) (ok : Bool)
deriving DecidableEq, Repr, Inhabited

/-- Step 8 of R100 as far as the link goes. -/
def LinkRule.judge (r : LinkRule) (d : Dev) (l : Link) : Option Status :=
  match r, l with
  | .both, _ => none
  | .bothUnless mf, _ => if d.fuse mf then some .fused else none
  | .hostOnly, .host => none
  | .hostOnly, .maint => some .mode
  | .maintOnly, .maint => none
  | .maintOnly, .host => some .mode
  | .write _ onHost _, .host => if onHost then none else some .mode
  | .write mf _ ok, .maint => if !ok then some .mode else if d.fuse mf then some .fused else none

/-- What a command is: its opcode, whether the payload has the length of its structure, the link rule, the modes that
allow it, whether its fields are in range, its own conditions, and its effect, which answers the reply's status and
data, or none while the reply is to come. -/
structure Sem where
  op    : Nat
  lenOk : Bool
  link  : LinkRule := .hostOnly
  modes : List Mode := awake
  range : Dev → Bool := fun _ => true
  cond  : Dev → Option Status := fun _ => none
  eff   : Dev → Dev × Option (Status × List Byte)

/-- Who answers a link: nobody, AON (R83), the boot ROM in a host boot (R74), or the firmware. -/
inductive Server where
  | nobody | aon | rom | firmware
deriving DecidableEq, Repr

/-- Who answers a link in the present state. -/
def Dev.server (d : Dev) (l : Link) : Server :=
  match d.power.mode, l with
  | .dormant, .maint => .aon
  | .dormant, .host => .nobody
  | .boot, .maint => .aon
  | .boot, .host => if d.boot.hostBoot then .rom else .nobody
  | _, _ => .firmware

/-- Steps 9 to 11 of R100. -/
def Sem.lastSteps (m : Sem) (h : Hdr) (d : Dev) : Status :=
  if !m.lenOk then .length
  else if h.flags ≠ 0 ∨ !m.range d then .range
  else (m.cond d).getD .ok

/-- Steps 5 to 11 of R100 for a taken message. -/
def Sem.judge (m : Sem) (h : Hdr) (d : Dev) : Status :=
  if h.ct ≠ 0 ∧ h.ct < h.stamp then .deadline
  else match d.server h.link with
    | .nobody => .mode
    | .aon => if m.op ∈ [0x0100, 0x0F11, 0x0122] then m.lastSteps h d else .mode
    | .rom => if m.op ∈ [0x0118, 0x0114] then m.lastSteps h d else .mode
    | .firmware =>
      if d.classForbidden (m.op / 256) then .fused
      else match m.link.judge d h.link with
        | some st => st
        | none => if d.power.mode ∉ m.modes then .mode else m.lastSteps h d

/-- A taken message of a command: judged, executed where every step passes, and answered (R100). -/
def runCmd (m : Sem) (h : Hdr) (d : Dev) : Dev :=
  if d.server h.link = .nobody then d
  else
    let d := d.take h
    match m.judge h d with
    | .ok =>
      match m.eff d with
      | (d', some (st, data)) => d'.reply h m.op st data
      | (d', none) => d'
    | st => d.reply h m.op st []

/-! ### Block references (R108) -/

/-- A block in MEMB, copied and checked in the order of R108; `sizeOk` is step 4, `own` step 5. -/
def Dev.block (d : Dev) (offset length crc : BitVec 32) (sizeOk : Bool) (own : Option Status) :
    Except Status (List Byte) :=
  let o := offset.toNat
  let n := length.toNat
  if n < 8 ∨ 8388608 < n ∨ n % 8 ≠ 0 then .error .length
  else if o % 8 ≠ 0 ∨ 8388608 < o + n then .error .range
  else if d.power.domains.getD 13 .off = .off ∨ d.isRetired 0x0A 0 then .error .retired
  else if !sizeOk then .error .length
  else match own with
    | some st => .error st
    | none =>
      let b := memRead d.host.memB o n
      if crc32c b ≠ crc then .error .check else .ok b

/-- The block of a reference that has passed every check. -/
def Dev.blockBytes (d : Dev) (offset length : BitVec 32) : List Byte := memRead d.host.memB offset.toNat length.toNat

/-- Step 7 of R108 follows the check of the copy: a content check over the block. -/
def Dev.blockCond (d : Dev) (offset length crc : BitVec 32) (sizeOk : Bool) (own : Option Status)
    (content : List Byte → Bool) : Option Status :=
  match d.block offset length crc sizeOk own with
  | .error st => some st
  | .ok b => if content b then none else some .range

/-- Bytes written into the brine store from an offset of space 0x0 on: MEMA, then MEMB (R110). -/
def HostIf.writeBrine (h : HostIf) (off : Nat) (data : List Byte) : HostIf :=
  if off < 0x800000
  then { h with memA := memWrite h.memA off (data.take (0x800000 - off)), memB := memWrite h.memB 0 (data.drop (0x800000 - off)) }
  else { h with memB := memWrite h.memB (off - 0x800000) data }

/-- A block is cut into records of `n` bytes. -/
def chunks (n : Nat) : Nat → List Byte → List (List Byte)
  | 0, _ => []
  | k + 1, b => b.take n :: chunks n k (b.drop n)

/-! ### From an effect on the device to an outcome -/

/-- The IRQ_STAT bits in force (R97). -/
def Dev.irqStat (d : Dev) : BitVec 32 :=
  let r := (List.range 8).any (fun i => (look d.host.slots i).ready)
  let s := setBit (setBit d.host.irqSticky 0 r) 1 (!d.host.notices.isEmpty)
  setBit s 7 (!d.time.valid)

/-- A trigger of R467 is latched. -/
def Dev.latchedTrig (d : Dev) (code : Nat) : Bool := d.safety.latched.getLsbD code

/-- FAULT_N is asserted (R501). -/
def Dev.faultAsserted (d : Dev) : Bool :=
  decide (d.boot.step ≠ 0) || d.boot.stopped || d.noSpare || d.latchedTrig 0x0A || d.latchedTrig 0x09

/-- What follows from the state at the end of every command or event: FAULT_N and its interrupt, and the interrupt
condition with its MSI (R97, R501). -/
def Dev.settle (d : Dev) : Dev :=
  let f := d.faultAsserted
  let d1 := if f && d.boot.faultN then d.irq 3 else d
  let d2 := { d1 with boot := { d1.boot with faultN := !f } }
  let c := decide (d2.irqStat &&& d2.host.irqEn ≠ 0)
  { d2 with host := { d2.host with
    irqCond := c, msiCount := if c && !d2.host.irqCond && d2.host.msiOn then d2.host.msiCount + 1
      else d2.host.msiCount } }

end Sys2Proof.Machine
end

