-- ==== Sys2Proof/Machine/CorePipeline.lean ====
section
/-! DEFINITION. A signal core by itself (spec/14_signal_cores.md): the instruction word, the exposed pipeline, saturation, the
hardware loops, the ACS unit, interrupts, and a run from local memory (R307 to R321). -/

namespace Sys2Proof.Machine

/-! ### The instruction word (R320, R321) -/

/-- The fields of a word that its class does not use are zero, and its class and size are none of the reserved ones (R320). SIZE
serves the integer unit, the lanes and local memory, and is 64 bits for the last only. -/
def fieldsOk (w : BitVec 64) : Bool :=
  let cls := (w.extractLsb' 60 4).toNat
  let size := (w.extractLsb' 51 2).toNat
  let dst := w.extractLsb' 46 5
  let a := w.extractLsb' 41 5
  let b := w.extractLsb' 36 5
  let imm := w.extractLsb' 0 32
  decide (cls ≤ 8)
    && (if cls = 3 then decide (size ≤ 2) else if cls ≤ 1 then decide (size ≤ 1) else decide (size = 0))
    && (decide (cls ≤ 2) || !w.getLsbD 53)
    && (decide (cls = 1) || decide (w.extractLsb' 32 4 = 0))
    && (match cls with
      | 1 => imm == 0 && decide (a.toNat % 4 = 0) && decide (b.toNat % 4 = 0)
      | 2 => b == 0
      | 6 => dst == 0 && a == 0 && b == 0
      | 7 => imm == 0
      | 8 => a == 0 && b == 0 && imm == 0
      | _ => true)

/-- A register number of a word. -/
def wordReg (w : BitVec 64) (i : Nat) : Fin 32 := (w.extractLsb' i 5).toFin

/-- The instruction that a word holds (R320, R321): which operation OP names is `Config`'s. SRCB of a store is the register that it
stores (DEDUCED, log entry 153). -/
def decodeCore (w : BitVec 64) : CoreOp :=
  let op := w.extractLsb' 54 6
  let s := w.getLsbD 53
  let pair := !w.getLsbD 51
  let d := wordReg w 46
  let a := wordReg w 41
  let b := wordReg w 36
  let imm := w.extractLsb' 0 32
  let x := Config.coreImm imm
  match (w.extractLsb' 60 4).toNat with
  | 0 => match Config.aluForm op with
    | .add => .add pair s d a b
    | .sub => .sub pair s d a b
    | .logic f => .logic f d a b
    | .shl => .shl pair s d a x.shift
    | .shr => .shr pair s d a x.shift
    | .compare f => .compare f d a b
    | .move => .move d a
    | .setImm => .setImm d imm
    | .getSt => .getSt d
    | .setSt => .setSt a
    | .getLoop l r => .getLoop l r d
    | .setLoop l r => .setLoop l r a
  | 1 => .mac (w.getLsbD 51) s (Config.macForm op) a b (w.extractLsb' 32 4)
  | 2 => .mova s x.rne d (Fin.ofNat 4 a.val) x.shift
  | 3 =>
    let m := Config.memForm op
    let size := if w.getLsbD 52 then .double else m.2
    if m.1 then .store size b a imm.toInt else .load size d a imm.toInt
  | 4 => .xfer (Config.xferOut op) d a b imm.toNat
  | 5 => match Config.branchForm op with
    | .jump f => .branch f a b (imm.setWidth 18)
    | .call => .call d (imm.setWidth 18)
    | .reti => .reti
  | 6 => .loop (Config.loopLevel op) x.last x.count
  | 7 => match Config.acsForm op with
    | .init => .acsInit
    | .step two => .acsStep two a
    | .tb => .tb d a
  | _ => match Config.sysForm op with
    | .endTask => .endTask
    | .fence => .fence
    | .readCt => .readCt d

/-! ### One instruction of a core (R308 to R315) -/

/-- A general register as read: g0 reads 0 (R308). -/
def Core.reg (c : Core) (i : Nat) : BitVec 32 := if i = 0 then 0 else look c.g i

/-- ST.SV is set (R313). -/
def Core.setSv (c : Core) (x : Bool) : Core := if x then { c with st := c.st ||| 1 } else c

/-- A signed value clamped to a width, and whether that changed it. -/
def clampW (w : Nat) (v : Int) : Int × Bool :=
  let u := clampInt (-(2 ^ (w - 1))) (2 ^ (w - 1) - 1) v
  (u, decide (u ≠ v))

/-- An arithmetic result on 32 bits or on two halves of 16 (R313): wrapped, or clamped where `sat` is set. -/
def aluResult (pair sat : Bool) (f : Int → Int → Int) (a b : BitVec 32) : BitVec 32 × Bool :=
  let one := fun (w : Nat) (x y : Int) =>
    if sat then ((clampW w (f x y)).1, (clampW w (f x y)).2) else (f x y, false)
  if pair then
    let lo := one 16 (a.extractLsb' 0 16).toInt (b.extractLsb' 0 16).toInt
    let hi := one 16 (a.extractLsb' 16 16).toInt (b.extractLsb' 16 16).toInt
    (BitVec.ofInt 16 hi.1 ++ BitVec.ofInt 16 lo.1, lo.2 || hi.2)
  else
    let r := one 32 a.toInt b.toInt
    (BitVec.ofInt 32 r.1, r.2)

/-- The accumulator that a MAC adds to: the sum of all earlier MACs into it (R311). -/
def Core.acNow (c : Core) (i : Nat) : BitVec 80 :=
  c.flight.foldl (fun v f => match f.w with
    | .ac j x => if j = i then x else v
    | _ => v) (c.ac.getD i 0)

/-- A result is issued with its latency (R310). -/
def Core.issue (c : Core) (l : Nat) (w : CoreWrite) : Core := { c with flight := c.flight ++ [{ left := l, w := w }] }

/-- A MAC on the lanes of a mask, with operands of `w` bits (R313, R321): the clamp of S is to 31 or to 63 bits. -/
def Core.mac (c : Core) (w l : Nat) (sat : Bool) (f : MacForm) (a b : Nat) (lanes : BitVec 4) : Core :=
  (List.range 4).foldl (fun c i =>
    if !lanes.getLsbD i then c
    else
      let x := ((c.reg ((a + i) % 32)).setWidth w).toInt
      let y := ((c.reg ((b + i) % 32)).setWidth w).toInt
      let v := match f with
        | .mul => x * y
        | .mac => (c.acNow i).toInt + x * y
        | .msub => (c.acNow i).toInt - x * y
      let (r, s) := if sat then clampW (2 * w) v else (v, false)
      (c.setSv s).issue l (.ac i (BitVec.ofInt 80 r))) c

/-- MOVA (R314): shift right, round towards -∞ or half to even, then saturate or keep the low 32 bits. -/
def movaResult (sat rne : Bool) (v : BitVec 80) (shift : Nat) : BitVec 32 × Bool :=
  let r := if rne then rneDiv v.toInt (2 ^ shift) else v.toInt / (2 ^ shift : Int)
  let (u, s) := if sat then clampW 32 r else (r, false)
  (BitVec.ofInt 32 u, s)

/-! ### The ACS unit (R315) -/

/-- Parity of a number of seven bits. -/
def parity7 (n : Nat) : Bool := (List.range 7).foldl (fun p i => p != n.testBit i) false

/-- The two output bits of the code for input bit u from state s, whose newest bit is bit 5: generators 171 and 133
octal. -/
def codeBits (s : Nat) (u : Bool) : Bool × Bool :=
  let r := bit u * 64 + s % 64
  (parity7 (r &&& 0o171), parity7 (r &&& 0o133))

/-- The branch metric of one information bit (R315): the Hamming distance, a punctured position counting 0. -/
def branchMetric (s : Nat) (u : Bool) (x y px py : Bool) : Nat :=
  let (a, b) := codeBits s u
  bit (!px && (a != x)) + bit (!py && (b != y))

/-- The candidate with the smaller metric modulo 256; on equality the first, which is the lower state. -/
def acsBetter (a b : BitVec 8 × Nat) : BitVec 8 × Nat := if (b.1 - a.1).msb then b else a

/-- The survivor of a new state: its metric and which of its predecessors won. -/
def acsState (two : Bool) (pm : List (BitVec 8)) (bits punct : BitVec 4) (s : Nat) : BitVec 8 × Nat :=
  let m := fun (p : Nat) (u : Bool) (i : Nat) =>
    branchMetric p u (bits.getLsbD (2 * i)) (bits.getLsbD (2 * i + 1)) (punct.getLsbD (2 * i)) (punct.getLsbD (2 * i + 1))
  let cand := fun (j : Nat) =>
    if two then
      let p := s % 16 * 4 + j
      let mid := bit (s.testBit 4) * 32 + p / 2
      (pm.getD p 0 + BitVec.ofNat 8 (m p (s.testBit 4) 0 + m mid (s.testBit 5) 1), j)
    else
      let p := s % 32 * 2 + j
      (pm.getD p 0 + BitVec.ofNat 8 (m p (s.testBit 5) 0), j)
  (List.range (if two then 4 else 2)).tail.foldl (fun best j => acsBetter best (cand j)) (cand 0)

/-- The decision bits of a step: a word of 64 bits, or two for a radix-4 step, with the bit of each state. -/
def decisionBytes (two : Bool) (win : List Nat) : List Byte :=
  let word := fun (i : Nat) => leBytes 8 ((win.zipIdx).foldl (fun acc e => acc + bit (e.1.testBit i) * 2 ^ e.2) 0)
  if two then word 0 ++ word 1 else word 0

/-- The bytes that one step writes at SVP. -/
def stepBytes (two : Bool) : Nat := if two then 16 else 8

/-- A traceback of two information bits for each radix-4 step below `svp`, from a state (R315). -/
def traceback (m : Memory) (svp : Nat) : Nat → Nat → Nat
  | 0, _ => 0
  | n + 1, s =>
    let o := svp - 16
    let j0 := (leNat (memRead m o 8)).testBit s
    let j1 := (leNat (memRead m (o + 8) 8)).testBit s
    bit j1 + 2 * bit j0 + 4 * traceback m o n (s % 16 * 4 + 2 * bit j1 + bit j0)

/-- TB from a state (R315): 16 information bits in eight records, and how far SVP goes back. Where the newest record is that of the
single odd bit, that bit and the seven records before it (DEDUCED, log entry 194). -/
def Core.tb (c : Core) (s : Nat) : Nat × BitVec 18 :=
  if c.odd then
    let j := (leNat (memRead c.mem (c.svp.toNat - 8) 8)).testBit s
    (bit j + 2 * traceback c.mem (c.svp.toNat - 8) 7 (s % 32 * 2 + bit j), 120)
  else (traceback c.mem c.svp.toNat 8 s, 128)

/-! ### Control flow and one cycle (R310 to R312, R318) -/

/-- A loop level that is active and holds the address. -/
def Core.inLoop (c : Core) (n : Nat) : Bool :=
  decide (c.lc.getD n 0 ≠ 0) && decide ((c.ls.getD n 0).toNat ≤ c.pc.toNat) && decide (c.pc.toNat ≤ (c.le.getD n 0).toNat)

/-- The address after the one that issues, and the loop counts, where no branch leads elsewhere (R312). -/
def Core.sequence (c : Core) : Core :=
  let last := fun (n : Nat) => decide (c.lc.getD n 0 ≠ 0) && decide (c.pc = c.le.getD n 0)
  if last 1 ∧ c.lc.getD 1 0 ≠ 1 then { c with lc := c.lc.set 1 (c.lc.getD 1 0 - 1), pc := c.ls.getD 1 0 }
  else
    let c1 := if last 1 then { c with lc := c.lc.set 1 0 } else c
    if last 0 ∧ c.lc.getD 0 0 ≠ 1 then { c1 with lc := c1.lc.set 0 (c.lc.getD 0 0 - 1), pc := c.ls.getD 0 0 }
    else { (if last 0 then { c1 with lc := c1.lc.set 0 0 } else c1) with pc := c.pc + 8 }

/-- A register of a loop level as a word, and written. -/
def Core.loopReg (c : Core) (n : Nat) : LoopReg → BitVec 32
  | .start => (c.ls.getD n 0).setWidth 32
  | .last => (c.le.getD n 0).setWidth 32
  | .count => (c.lc.getD n 0).setWidth 32

def Core.setLoopReg (c : Core) (n : Nat) (r : LoopReg) (v : BitVec 32) : Core :=
  match r with
  | .start => { c with ls := c.ls.set n (v.setWidth 18) }
  | .last => { c with le := c.le.set n (v.setWidth 18) }
  | .count => { c with lc := c.lc.set n (v.setWidth 16) }

/-- A result lands; of a transfer, the flag (R321). -/
def Core.land (c : Core) (w : CoreWrite) : Core :=
  match w with
  | .g i v => if i = 0 then c else { c with g := put c.g i v }
  | .ac i v => { c with ac := c.ac.set i v }
  | .loop n r v => c.setLoopReg n r v
  | .survivor o b => { c with mem := memWrite c.mem o b }
  | .copy _ dst _ _ _ => if dst = 0 then c else { c with g := put c.g dst 1 }

/-- The end of a cycle: results whose latency has elapsed land, the later-issued last (R310, R311). -/
def Core.tick (c : Core) : Core :=
  let fs := c.flight.map (fun f => { f with left := f.left - 1 })
  let done := fs.filter (fun f => f.left = 0)
  done.foldl (fun c f => c.land f.w) { c with flight := fs.filter (fun f => f.left ≠ 0) }

/-- How the run of a core ends. -/
inductive CoreEnd where
  | going
  | ended
  | illegal
  | access
deriving DecidableEq, Repr, Inhabited

/-- The instruction may not issue at this place (R312): a branch in the last two instructions of an active body, a loop
with a body of less than two instructions or a count of 0. -/
def Core.illegal (c : Core) (op : CoreOp) : Bool :=
  let late := [0, 1].any (fun n => c.inLoop n && decide ((c.le.getD n 0).toNat < c.pc.toNat + 16))
  match op with
  | .branch _ _ _ _ => late
  | .call _ _ => late
  | .reti => late
  | .loop _ last count => decide (last.toNat < c.pc.toNat + 16) || decide (count = 0)
  | _ => false

/-- Whether a condition holds of two registers. -/
def Core.holds (c : Core) (f : CoreTest) (a b : Nat) : Bool :=
  match f with
  | .always => true
  | .zero => c.reg a == 0
  | .nonzero => c.reg a != 0
  | .negative => (c.reg a).msb
  | .equal => c.reg a == c.reg b
  | .less => decide ((c.reg a).toInt < (c.reg b).toInt)

/-- The bytes of an access. -/
def sizeBytes : CoreSize → Nat
  | .byte => 1 | .half => 2 | .word => 4 | .double => 8

/-- The address of an access: g[SRCA] + IMM, within local memory. -/
def Core.addr (c : Core) (a : Fin 32) (imm : Int) : Nat := (((c.reg a).toNat + imm) % 262144).toNat

/-- A load issues its result; a double one fills the pair DST, DST + 1, low word first (DEDUCED, log entry 153). -/
def Core.load (c : Core) (size : CoreSize) (dst : Fin 32) (addr : Nat) : Core :=
  let v := leNat (memRead c.mem addr (sizeBytes size))
  let w := 8 * sizeBytes size
  let c1 := c.issue 3 (.g dst.val (if w < 32 ∧ Config.loadSigned then (BitVec.ofNat w v).signExtend 32 else BitVec.ofNat 32 v))
  if size = .double then c1.issue 3 (.g ((dst.val + 1) % 32) (BitVec.ofNat 32 (v / 2 ^ 32))) else c1

/-- The bytes that a store writes. -/
def Core.storeBytes (c : Core) (size : CoreSize) (src : Fin 32) : List Byte :=
  (wordBytes (c.reg src) ++ wordBytes (c.reg ((src.val + 1) % 32))).take (sizeBytes size)

/-- A logic operation. -/
def logicOf (f : CoreLogic) (a b : BitVec 32) : BitVec 32 :=
  match f with
  | .and => a &&& b
  | .or => a ||| b
  | .xor => a ^^^ b

/-- What an instruction but LOOP does in the cycle of its issue: it reads what has landed, and issues what is to land. A transfer has
its local address in g[SRCA], its brine-store address in g[SRCB] and its length in IMM; CT at the cycle is `ct` (log entry 153). -/
def Core.operate (c : Core) (ct : Nat) (op : CoreOp) : Core :=
  let alu := fun (r : BitVec 32 × Bool) (dst : Fin 32) => (c.setSv r.2).issue 1 (.g dst.val r.1)
  match op with
  | .add pair sat dst a b => alu (aluResult pair sat (· + ·) (c.reg a) (c.reg b)) dst
  | .sub pair sat dst a b => alu (aluResult pair sat (· - ·) (c.reg a) (c.reg b)) dst
  | .logic f dst a b => c.issue 1 (.g dst.val (logicOf f (c.reg a) (c.reg b)))
  | .shl pair sat dst a n => alu (aluResult pair sat (fun x _ => x * 2 ^ n.val) (c.reg a) 0) dst
  | .shr pair sat dst a n => alu (aluResult pair sat (fun x _ => x / 2 ^ n.val) (c.reg a) 0) dst
  | .compare f dst a b => c.issue 1 (.g dst.val (Config.compareWord (c.holds f a b)))
  | .move dst a => c.issue 1 (.g dst.val (c.reg a))
  | .setImm dst v => c.issue 1 (.g dst.val v)
  | .getSt dst => c.issue 1 (.g dst.val c.st)
  | .setSt a => { c with st := c.reg a &&& 3 }
  | .getLoop level r dst => c.issue 1 (.g dst.val (c.loopReg (bit level) r))
  | .setLoop level r a => c.issue 1 (.loop (bit level) r (c.reg a))
  | .mac wide sat f a b lanes => c.mac (if wide then 32 else 16) (if wide then 4 else 3) sat f a.val b.val lanes
  | .mova sat rne dst src shift =>
    let r := movaResult sat rne (c.ac.getD src.val 0) shift.val
    (c.setSv r.2).issue 2 (.g dst.val r.1)
  | .load size dst a imm => c.load size dst (c.addr a imm)
  | .store size src a imm => { c with mem := memWrite c.mem (c.addr a imm) (c.storeBytes size src) }
  | .xfer out dst a b n =>
    (c.issue 1 (.g dst.val 0)).issue (2 + Config.xferCycles n) (.copy out dst.val (c.addr a 0) ((c.reg b).toNat % 16777216) n)
  | .branch _ _ _ _ => c
  | .call dst _ => c.issue 1 (.g dst.val ((c.pc + 24).setWidth 32))
  | .reti => { c with st := c.istat }
  | .loop _ _ _ => c
  | .acsInit => { c with pm := 0 :: List.replicate 63 64, odd := false }
  | .acsStep two a =>
    let x := Config.acsBits (c.reg a)
    let r : List (BitVec 8 × Nat) := (List.range 64).map (acsState two c.pm x.1 x.2)
    ({ c with pm := r.map Prod.fst, svp := c.svp + BitVec.ofNat 18 (stepBytes two), odd := !two }).issue 2
      (.survivor c.svp.toNat (decisionBytes two (r.map Prod.snd)))
  | .tb dst a =>
    let r := c.tb ((c.reg a).toNat % 64)
    ({ c with svp := c.svp - r.2, odd := false }).issue 2 (.g dst.val (BitVec.ofNat 32 r.1))
  | .endTask => c
  | .fence => c
  | .readCt dst => c.issue 1 (.g dst.val (BitVec.ofNat 32 ct))

/-- An instruction issues, and the flow goes on by the loop registers as they stand (R312). LOOP sets its level after that. -/
def Core.issueNext (c : Core) (ct : Nat) (op : CoreOp) : Core :=
  match op with
  | .loop level last count =>
    let n := bit level
    let c1 := ({ c with lc := c.lc.set n 0 } : Core).sequence
    { c1 with ls := c1.ls.set n (c.pc + 8), le := c1.le.set n last, lc := c1.lc.set n count }
  | _ => (c.operate ct op).sequence

/-- Where a branch leads, if it is taken. -/
def Core.branchTo (c : Core) (op : CoreOp) : Option (BitVec 18) :=
  match op with
  | .branch f a b target => if c.holds f a b then some target else none
  | .call _ target => some target
  | .reti => some c.ipc
  | _ => none

/-- One cycle: the instruction at the program counter issues. Two delay slots follow a branch (R312). The end of the task leaves the
core where it is. -/
def Core.cycle (c : Core) (ct : Nat) (op : CoreOp) : Core × CoreEnd :=
  if op = .endTask then (c, .ended)
  else if c.illegal op then (c, .illegal)
  else
    let c2 := c.issueNext ct op
    let c3 := if c.slots = 1 then { c2 with slots := 0, pc := c.target } else { c2 with slots := c.slots - 1 }
    let c4 := match c.branchTo op with
      | some a => { c3 with slots := 2, target := a }
      | none => c3
    (c4.tick, .going)

/-! ### A run from local memory, with the brine store (R309, R321, R325, R326) -/

/-- A core that runs, and the brine store that its transfers reach. -/
structure SignalRun where
  core  : Core
  brine : HostIf

/-- Bytes of the brine store: MEMA, then MEMB (R110). -/
def HostIf.readBrine (h : HostIf) (off n : Nat) : List Byte :=
  memRead h.memA off (min n (0x800000 - off)) ++ memRead h.memB (max off 0x800000 - 0x800000) (n - (0x800000 - off))

/-- A transfer copies its block (R321). -/
def SignalRun.copy (r : SignalRun) (w : CoreWrite) : SignalRun :=
  match w with
  | .copy false _ loc at_ n => { r with core := { r.core with mem := memWrite r.core.mem loc (r.brine.readBrine at_ n) } }
  | .copy true _ loc at_ n => { r with brine := r.brine.writeBrine at_ (memRead r.core.mem loc n) }
  | _ => r

/-- A cycle of the core, and the transfers that end in it. -/
def SignalRun.tick (r : SignalRun) (c : Core) : SignalRun :=
  (r.core.flight.filter (fun f => f.left = 1)).foldl (fun r f => r.copy f.w) { r with core := c }

/-- An access outside what a user kernel may write, or a branch outside its region (R325, R326): its own region and MEMB. Vendor
code in its interrupts is not held to it. -/
def Core.strays (c : Core) (op : CoreOp) : Bool :=
  decide (0x30000 ≤ c.pc.toNat) && match op with
  | .store size _ a imm => decide (c.addr a imm < 0x30000) || decide (0x40000 < c.addr a imm + sizeBytes size)
  | .xfer out _ a b n =>
    let at_ := (c.reg b).toNat % 16777216
    if out then decide (at_ < 0x800000) || decide (0x1000000 < at_ + n)
    else decide (c.addr a 0 < 0x30000) || decide (0x40000 < c.addr a 0 + n)
  | .reti => false
  | _ => match c.branchTo op with
    | some a => decide (a.toNat < 0x30000)
    | none => false

/-- The instruction word at the program counter. -/
def Core.fetch (c : Core) : BitVec 64 := BitVec.ofNat 64 (leNat (memRead c.mem c.pc.toNat 8))

/-- One cycle of a run: the word at the program counter, of a user kernel or of vendor code, at an instant. -/
def SignalRun.cycle (r : SignalRun) (user : Bool) (ct : Nat) : SignalRun × CoreEnd :=
  let w := r.core.fetch
  let op := decodeCore w
  if !fieldsOk w then (r, .illegal)
  else if user ∧ r.core.strays op ∧ !r.core.illegal op then (r, .access)
  else
    let c := r.core.cycle ct op
    if c.2 = .going then (r.tick c.1, .going) else (r, c.2)

/-- CT LSB in a number of cycles of F1200, and cycles in a span of CT (R7). -/
def cyclesCt (n : Nat) : Nat := n * 128 / 150

def ctCycles (n : Nat) : Nat := n * 150 / 128

/-- A run of at most `n` cycles that ends at instant `t`. -/
def SignalRun.run (user : Bool) (t : Nat) : Nat → SignalRun → SignalRun × CoreEnd
  | 0, r => (r, .going)
  | n + 1, r =>
    match r.cycle user (t - cyclesCt (n + 1)) with
    | (r', .going) => SignalRun.run user t n r'
    | x => x

/-- Every issued instruction completes (R317), and every transfer. -/
def SignalRun.drain (r : SignalRun) : SignalRun :=
  (List.range (r.core.flight.foldl (fun m f => max m f.left) 0)).foldl (fun r _ => r.tick r.core.tick) r

/-- An interrupt (R317, R318): where ST.IE is 1, the pending delay slots execute, every issued instruction completes, IPC and ISTAT
are written, ST.IE is cleared, and the core goes to the vector. -/
def SignalRun.interrupt (r : SignalRun) (user : Bool) (t : Nat) : SignalRun :=
  if r.core.st.getLsbD 1 then
    let q := (SignalRun.run user t r.core.slots r).1.drain
    { q with core := { q.core with ipc := q.core.pc, istat := q.core.st, st := q.core.st &&& ~~~2, pc := Config.coreVector } }
  else r

end Sys2Proof.Machine
end

