-- ==== Sys2Proof/Machine/EventTable.lean ====
section
/-! DEFINITION. The event table, the scheduling trace, and the life of a task: released, ready, dispatched, ended
(spec/15_dispatch_unit.md, R333 to R346). The firmware derives the entries from the configuration; which index it gives
an entry is the model's choice but for the solver problems, problem p at 0x600 + p. -/

namespace Sys2Proof.Machine

/-! ### The entries -/

/-- The code of an event source (R333). -/
def EvKind.code : EvKind → Nat
  | .free => 0 | .boundary => 1 | .quarter => 2 | .frame => 3 | .edge => 4 | .mailbox => 5 | .completion => 6
  | .timer => 7 | .trigger => 8 | .hostRun => 9

/-- The code of an engine (R333). -/
def Engine.code : Engine → Nat
  | .none => 0 | .loop => 1 | .move => 2 | .sep => 3 | .sup => 4 | .sig => 5 | .solver => 6

/-- Internal task codes: the vendor kernels under their ids (R322), and the firmware's and engines' own tasks. -/
def workInterp : Nat := 0x10
def workLaws : Nat := 0x11
def workCurrent : Nat := 0x12
def workPass : Nat := 0x13
def workSup : Nat := 0x14
def workMailbox : Nat := 0x15
def workNotices : Nat := 0x16
def workMirror : Nat := 0x17
def workTest : Nat := 0x18
def workPipes : Nat := 0x19
def workCores : Nat := 0x1A
def workPwm : Nat := 0x1B

/-- An entry of a solver problem, and the problem's id. -/
def problemOf (e : Nat) : Option Nat := if 0x600 ≤ e ∧ e < 0x700 then some (e - 0x600) else none

/-- An entry of a user kernel, and the kernel's slot. -/
def kernelOf (e : Nat) : Option Nat := if 0x700 ≤ e ∧ e < 0x708 then some (e - 0x700) else none

/-- The match word of an EDGE entry (R333, R353): the pin code, and the edge in bit 8. R353 gives MSn_DRDY no code; the model takes
the first reserved ones, 0xA4 and 0xA5 (DESIGN CHOICE, log entry 178). -/
def drdyMatch (port : Nat) : Nat := 0x100 + 0xA4 + port

/-- The group rank of a problem: its place among the problems of its group, by id (R246, R336). -/
def Dev.problemRank (d : Dev) (g : BitVec 8) (id : Nat) : Nat :=
  min 15 (d.solver.problems.filter (fun e => decide (e.1 < id) && (match e.2 with
    | some p => p.desc.group == g
    | none => false))).length

/-- The group rank of a user kernel: after the problems of its group, by slot. -/
def Dev.kernelRank (d : Dev) (g : BitVec 8) (slot : Nat) : Nat :=
  min 15 (d.problemRank g 256 + (d.sig.kernels.filter (fun e => decide (e.1 < slot) && (match e.2.cfg with
    | some c => c.group == g
    | none => false))).length)

/-- The release class of a problem or kernel as an event source: every period, every pass, or on demand (R224, R330). -/
def runKind (run : BitVec 8) (nSep : Nat) : EvKind × Nat :=
  if run = 0 then (.boundary, 1) else if run = 1 then (.boundary, nSep) else (.hostRun, 0)

/-- The entry of a solver problem. -/
def Dev.problemEntry (d : Dev) (id : Nat) : EvEntry :=
  match look d.solver.problems id with
  | some p =>
    let c := p.desc
    { kind := (runKind c.run d.time.nSep).1, host := decide (192 ≤ id), priority := c.priority.toNat,
      group := c.group.toNat, rank := if c.group = 0xFF then 0 else d.problemRank c.group id,
      stage := if id < 192 then 1 else 0xFF, engine := .solver, match_ := (runKind c.run d.time.nSep).2,
      dlOff := c.dlOff.toNat, work := id }
  | none => {}

/-- The entry of a user kernel. -/
def Dev.kernelEntry (d : Dev) (slot : Nat) : EvEntry :=
  match (look d.sig.kernels slot).cfg with
  | some c =>
    { kind := (runKind c.run d.time.nSep).1, host := true, priority := c.priority.toNat, group := c.group.toNat,
      rank := if c.group = 0xFF then 0 else d.kernelRank c.group slot, engine := .sig, instance_ := c.core.toNat,
      match_ := (runKind c.run d.time.nSep).2, dlOff := d.time.tc - 4096, work := slot }
  | none => {}

/-- A vendor kernel's entry, where a core runs the kernel and it has work (R322). -/
def Dev.vendorEntry (d : Dev) (kernel : Nat) (has : Bool) (kind : EvKind) (m prio stage dl : Nat) : EvEntry :=
  match d.sig.vendor.getD (kernel - 1) none with
  | some c => if has ∧ !d.power.offMask.getLsbD 7
      then { kind := kind, priority := prio, stage := stage, engine := .sig, instance_ := c, match_ := m, dlOff := dl,
             work := kernel } else {}
  | none => {}

/-- The decoding of a line-mode channel's slot (R322, R323). -/
def Dev.viterbiEntry (d : Dev) (ch slot : Nat) : EvEntry :=
  match d.sig.decoder.getD ch none with
  | some c => if (look d.bus.chans ch).mode = .line then
      { kind := .frame, priority := 1, engine := .sig, instance_ := c, match_ := ch + 256 * slot, dlOff := d.time.tc / 4,
        work := if ch % 2 = 0 then 4 else 5 } else {}
  | none => {}

/-- An engine's or the firmware's own entry, where it has work. -/
def ownEntry (has : Bool) (kind : EvKind) (eng : Engine) (m prio stage dl work : Nat) : EvEntry :=
  if has then { kind := kind, priority := prio, stage := stage, engine := eng, match_ := m, dlOff := dl, work := work }
  else {}

/-- A standby self-test of a separation pipeline or a signal core, which it names (R333, R503). -/
def standbyEntry (eng : Engine) (i work : Nat) : EvEntry :=
  { kind := .timer, priority := 7, engine := eng, instance_ := if eng = .sig then i else 0xFF, match_ := 1073741824,
    dlOff := 1073741824, work := work }

/-- An entry of the event table (R333). -/
def Dev.entry (d : Dev) (e : Nat) : EvEntry :=
  let dk := d.time.tc - 4096
  let q := d.time.tc / 4 - 4096
  let deck := d.deck.cfg.isSome
  let arms := d.arms.any (fun x => x.2.cfg.isSome)
  let laws := d.loop.joints.any (fun x => x.2.cfg.isSome) || d.loop.arms.any (fun x => x.2.cfg.isSome)
  let currents := d.loop.currents.any (fun x => x.2.cfg.isSome)
  let pans := !d.safety.committed.isEmpty
  if 0x600 ≤ e ∧ e < 0x700 then d.problemEntry (e - 0x600)
  else if 0x100 ≤ e ∧ e < 0x600 then d.viterbiEntry ((e - 0x100) / 128) ((e - 0x100) % 128)
  else if 0x700 ≤ e ∧ e < 0x708 then d.kernelEntry (e - 0x700)
  else match e with
    | 0 => d.vendorEntry 1 deck .boundary 1 0 0 dk
    | 1 => d.vendorEntry 1 (deck && (d.deck.ports.getD 0 default).cfg.isSome) .edge (drdyMatch 0) 0 0xFF dk
    | 2 => d.vendorEntry 1 (deck && (d.deck.ports.getD 1 default).cfg.isSome) .edge (drdyMatch 1) 0 0xFF dk
    | 3 => d.vendorEntry 2 deck .timer 64000000 6 0xFF 64000000
    | 4 => d.vendorEntry 2 deck .timer 1073741824 6 0xFF 1073741824
    | 5 => d.vendorEntry 3 currents .quarter 0 1 0xFF q
    | 6 => d.vendorEntry 6 (!d.sep.hints.isEmpty) .boundary d.time.nSep 3 0xFF dk
    | 8 => ownEntry arms .boundary .move 1 0 2 dk workInterp
    | 9 => ownEntry laws .boundary .loop 1 0 3 dk workLaws
    | 10 => ownEntry currents .quarter .loop 0 1 0xFF q workCurrent
    | 11 => ownEntry (pans && !d.power.offMask.getLsbD 6) .boundary .sep d.time.nSep 1 0xFF dk workPass
    | 12 => ownEntry true .boundary .sup 1 1 3 dk workSup
    | 13 => ownEntry true .mailbox .sup 0 3 0xFF (2 * d.time.tc) workMailbox
    | 14 => ownEntry true .timer .sup d.time.tc 5 0xFF (2 * d.time.tc) workNotices
    | 15 => ownEntry d.pair.cfg.isSome .boundary .sup 1 1 0xFF dk workMirror
    | _ => if 0x720 ≤ e ∧ e < 0x744 then ownEntry (!d.isArbiter) .timer .solver 1073741824 7 0xFF 1073741824 workTest
      else if 0x744 ≤ e ∧ e < 0x748 ∧ !d.isArbiter then standbyEntry .sep (e - 0x744) workPipes
      else if 0x748 ≤ e ∧ e < 0x74C ∧ !d.isArbiter then standbyEntry .sig (e - 0x748) workCores
      else if 0x74C ≤ e ∧ e < 0x754 then
        ownEntry (!d.isArbiter && (look d.pwm.groups (e - 0x74C)).cfg.isSome) .timer .sup 1024000 7 0xFF 1024000 workPwm
      else {}

/-- An entry that stays live in SHADOW: the VITERBI entries, the standby self-tests and the mirror task (R347). -/
def shadowLive (e : Nat) : Bool := decide (0x100 ≤ e ∧ e < 0x600) || decide (0x720 ≤ e) || decide (e = 15)

/-- The self-tests that run in SHADOW alone (R503): those of the pipelines and cores, and the readback and calibration of the PWM
groups. -/
def standbyOnly (e : Nat) : Bool := decide (0x744 ≤ e ∧ e < 0x754)

/-- An entry is live in the present mode (R347, R503). -/
def Dev.entryLive (d : Dev) (e : Nat) : Bool :=
  match d.power.mode with
  | .dormant => false
  | .boot => false
  | .shadow => shadowLive e
  | _ => !standbyOnly e && !(match kernelOf e with
    | some k => (look d.sig.kernels k).faulted
    | none => false)

/-! ### The trace (R344 to R346) -/

/-- A stored trace record. -/
def Trace.store1 (x : Trace) (r : TraceRec) : Trace :=
  { x with store := put x.store x.wp r, wp := (x.wp + 1) % 65536,
           wraps := if x.wp = 65535 then x.wraps + 1 else x.wraps, written := x.written + 1 }

/-- The trace closes with a FROZEN record, and the notice TRACE_FROZEN says so (R346, R348). -/
def Dev.freezeTrace (d : Dev) (t : Nat) : Dev :=
  let (t', n, d1) := d.stampItem 2 0 t
  let d2 := d1.onDisp (fun x => { x with trace :=
    { x.trace.store1 { ct := t', seq := n, entry := 0x800, kind := 0x0F } with frozen := true, queue := [], left := none } })
  d2.notice 2 0 t 0x0902 (BitVec.ofNat 32 d2.disp.trace.wp) false

/-- The write queue drains one record; the trace closes where FILL or a freeze says so. -/
def Dev.traceDrain (d : Dev) (t : Nat) : Dev :=
  match d.disp.trace.queue with
  | [] => d
  | r :: q =>
    let d1 := d.onDisp (fun x => { x with trace := { x.trace.store1 r with queue := q, left := x.trace.left.map (· - 1) } })
    let x := d1.disp.trace
    if (x.fill ∧ x.wp = 65535) ∨ x.left = some 0 then d1.freezeTrace t else d1

/-- The write queue has 512 places; where it is full the unit has held until a record was written (R345). -/
def Trace.room (x : Trace) : Trace :=
  match x.queue with
  | r :: q => if x.queue.length < 512 then x else { x.store1 r with queue := q, left := x.left.map (· - 1) }
  | [] => x

/-- The trace takes no further record: it is frozen, or its queue is full and the next record closes it (R345, R346). -/
def Trace.closed (x : Trace) : Bool :=
  x.frozen || (decide (512 ≤ x.queue.length) && ((x.fill && decide (x.wp = 65534)) || decide (x.left = some 1)))

/-- A trace record joins the write queue. -/
def Dev.trace (d : Dev) (t kind : Nat) (entry : BitVec 16) (engine inst flags : Nat) : Dev :=
  if d.disp.trace.closed then d
  else
    let (t', n, d') := d.stampItem 2 0 t
    d'.onDisp (fun x => { x with trace := { x.trace.room with queue := x.trace.room.queue ++
      [{ ct := t', seq := n, entry := entry, kind := BitVec.ofNat 8 kind, engine := BitVec.ofNat 8 engine,
         inst := BitVec.ofNat 8 inst, flags := BitVec.ofNat 8 flags }] } })

/-- Flags of a trace record of an entry: priority and HOST. -/
def EvEntry.flags (e : EvEntry) : Nat := e.priority % 8 + 32 * bit e.host

/-- A trace record of an entry. -/
def Dev.traceEntry (d : Dev) (t kind e inst extra : Nat) : Dev :=
  let x := d.entry e
  d.trace t kind (BitVec.ofNat 16 e) x.engine.code inst (x.flags + extra)

/-- A trace record without an entry (NO_ENTRY). -/
def Dev.traceBare (d : Dev) (t kind inst : Nat) : Dev := d.trace t kind 0x800 0 inst 0

/-- A skimmer trigger meets freeze-on-trigger: the trace closes `post` records later (R346). -/
def Dev.traceTrigger (d : Dev) (t : Nat) : Dev :=
  let x := d.disp.trace
  if x.freeze ∧ !x.frozen ∧ x.left = none then
    if x.post = 0 then d.freezeTrace t
    else d.onDisp (fun y => { y with trace := { y.trace with left := some y.trace.post } })
  else d

/-! ### Tasks (R334 to R342) -/

/-- The sources that draw on the reserved descriptors (R335). -/
def EvKind.reserved : EvKind → Bool
  | .boundary => true | .quarter => true | .completion => true | .timer => true | _ => false

/-- Descriptors in use, reserved or not (R335). -/
def Dev.descriptors (d : Dev) (res : Bool) : Nat :=
  (d.disp.tasks.filter (fun t => (d.entry t.entry).kind.reserved == res)).length

/-- An entry has a task that is released but not yet running (R334); a preempted task has run. -/
def Dev.taskWaits (d : Dev) (e : Nat) : Bool :=
  d.disp.tasks.any (fun t => decide (t.entry = e) && decide (t.phase ≠ .running) && !t.preempted)

/-- The task of an entry, the newest where two exist. -/
def Dev.taskOf (d : Dev) (e : Nat) : Option Task := (d.disp.tasks.filter (fun t => decide (t.entry = e))).getLast?

/-- The running task of an entry. -/
def Dev.taskRunning (d : Dev) (e : Nat) : Option Task :=
  d.disp.tasks.find? (fun t => decide (t.entry = e) && decide (t.phase = .running))

/-- What the unit counts for an entry is changed. -/
def Dev.onCount (d : Dev) (e : Nat) (f : EvCount → EvCount) : Dev :=
  d.onDisp (fun x => { x with table := upd x.table e f })

/-- The source of an entry is back-pressured: it already has a task not yet running, or no unreserved descriptor is
free (R341). -/
def Dev.pressedNow (d : Dev) (e : Nat) : Bool :=
  !(d.entry e).kind.reserved && (d.taskWaits e || decide (640 ≤ d.descriptors false))

/-- The source identity of a back-pressured source: its channel, or the dispatch unit (R344). -/
def Dev.sourceOf (d : Dev) (e : Nat) : BitVec 16 :=
  let x := d.entry e
  match x.kind with
  | .frame => d.source 8 (x.match_ % 256)
  | .trigger => d.source 10 0
  | .mailbox => d.source 11 0
  | _ => d.source 2 0

/-- A task of an entry comes into being (R334), with the count of the edges that its latch held; one with neither a stage nor a
group is ready at release (R336). -/
def Dev.newTask (d : Dev) (t stamp e : Nat) (count : Nat := 0) : Dev :=
  let x := d.entry e
  let now := decide (x.stage = 0xFF) && decide (x.group = 0xFF)
  let d1 := (d.onCount e (fun c => { c with fires := c.fires + 1, lastK := some d.time.k })).onDisp (fun y => { y with tasks := y.tasks ++
    [{ entry := e, stamp := stamp, dl := stamp + x.dlOff, period := d.time.k, count := count,
       phase := if now then .ready else .waiting, readyAt := if now then t else 0 }] })
  let d2 := d1.traceEntry t 0x01 e 0 0
  if now then d2.traceEntry t 0x02 e 0 0 else d2

/-- The frames held for a channel (R341). -/
def Dev.framesHeld (d : Dev) (ch : Nat) : Nat :=
  (List.range 128).foldl (fun n s => n + (look d.disp.table (0x100 + 128 * ch + s)).held) 0

/-- The clock of a domain starts, with a WAKE record (R54, R55, R343); a domain that is OFF or RETAINed does not. -/
def Dev.startDomain (d : Dev) (t i : Nat) : Dev :=
  if d.power.domains.getD i .off = .stopped
  then (d.onPower (fun p => { p with domains := p.domains.set i .running })).traceBare t 0x0B i else d

/-- A frame arrival, a doorbell, an input edge or a trigger wakes DISP (R55). -/
def Dev.wakeDisp (d : Dev) (t : Nat) : Dev := d.startDomain t 2

/-- The source of an entry fires at an instant (R334, R341, R342): a task is released with its stamp, merged into the
waiting one, or the event is held. An event between boundaries wakes DISP (R55). -/
def Dev.fire (d0 : Dev) (t stamp e : Nat) : Dev :=
  let x := d0.entry e
  let d := if x.kind.reserved then d0 else d0.wakeDisp t
  if x.kind = .free ∨ !d.entryLive e then d0
  else if x.kind.reserved then
    if d.taskWaits e then (d.onCount e (fun c => { c with fires := c.fires + 1 })).traceEntry t 0x01 e 0 64
    else d.newTask t stamp e
  else if d.pressedNow e then
    let c := look d.disp.table e
    if x.kind = .frame ∧ 16 ≤ d.framesHeld (x.match_ % 256) then d.faultEvent 1 (x.match_ % 256) t
    else
      let d1 := d.onCount e (fun c => { c with held := min 256 (c.held + 1), heldAt := if c.held = 0 then stamp else c.heldAt,
                                               stamps := if x.kind = .frame then c.stamps ++ [stamp] else c.stamps,
                                               pressed := true, pressedAt := if c.pressed then c.pressedAt else t })
      if c.pressed then d1 else d1.trace t 0x09 (d.sourceOf e) 0 0 0
  else d.newTask t stamp e

/-- A task ends: its descriptor is freed (R335). -/
def Dev.dropTask (d : Dev) (t : Task) : Dev := d.onDisp (fun x => { x with tasks := x.tasks.erase t })

/-- The conditions of R336 for a waiting task; the time-scaling problem of a pan also waits for the monitor decision of the
pass (R277). -/
def Dev.mayBeReady (d : Dev) (t : Task) : Bool :=
  let x := d.entry t.entry
  (!decide (0x620 ≤ t.entry ∧ t.entry < 0x660) || d.sep.pass.sepDone) && d.disp.tasks.all (fun u =>
    let y := d.entry u.entry
    decide (u.period ≠ t.period) ||
      (!(decide (x.stage ≠ 0xFF) && decide (y.stage < x.stage))
        && !(decide (x.group ≠ 0xFF) && decide (y.group = x.group) && decide (y.rank < x.rank) && decide (u ≠ t))))

/-- Waiting tasks whose conditions hold become ready, in ascending entry index (R336, R339). -/
def Dev.evalReady (d : Dev) (t : Nat) : Dev :=
  let due := (d.disp.tasks.filter (fun x => decide (x.phase = .waiting) && d.mayBeReady x)).mergeSort
    (fun a b => decide (a.entry ≤ b.entry))
  due.foldl (fun d x =>
    (d.onDisp (fun y => { y with tasks := y.tasks.map (fun z => if z = x then { z with phase := .ready, readyAt := t } else z) })
      ).traceEntry t 0x02 x.entry 0 0) d

/-- A running task completes: COMPLETE is written, and what waited for it may become ready (R337). -/
def Dev.completeTask (d : Dev) (t : Nat) (x : Task) : Dev :=
  ((d.dropTask x).traceEntry t 0x04 x.entry x.unit 0).evalReady t

/-- A READY record of a task in the same cycle gets ANNULLED. -/
def Trace.annul (x : Trace) (e t : Nat) : Trace :=
  { x with queue := x.queue.map (fun r =>
      if r.kind = 2 ∧ r.entry.toNat = e ∧ r.ct = t then { r with flags := r.flags ||| 8 } else r) }

/-- What a task was running on is free: its solver lane, or its user kernel, which may have been preempted. -/
def Dev.freeUnit (d : Dev) (x : Task) : Dev :=
  match problemOf x.entry, kernelOf x.entry with
  | some id, _ =>
    if x.phase = .running then d.onSolver (fun s => { s with
      problems := upd s.problems id (fun o => o.map (fun p => { p with run := none }))
      lanes := upd s.lanes x.unit (fun l => { l with running := none }) }) else d
  | _, some k =>
    if x.phase = .running ∨ x.preempted then
      d.onSig (fun s => { s with kernels := upd s.kernels k (fun y => { y with running := false }) }) else d
  | _, _ => d

/-- A task is removed, with a CANCEL record (R338); a run of it is aborted. -/
def Dev.removeTask (d : Dev) (t : Nat) (x : Task) (extra : Nat) : Dev :=
  ((d.freeUnit x).dropTask x).traceEntry t 0x05 x.entry (if x.phase = .running then x.unit else 0) extra

/-- Every task of an entry that goes away is removed (R341). -/
def Dev.cancelTasks (d : Dev) (t e : Nat) : Dev :=
  (d.disp.tasks.filter (fun x => decide (x.entry = e))).foldl (fun d x => d.removeTask t x 0) d

/-- A cancel applied in the dispatch cycle that begins at `c`, after its step 4: the outcome (R350) and the device. What waited for
the task becomes ready in the next cycle (R336, R337). -/
def Dev.cancel (d : Dev) (c e : Nat) : Nat × Dev :=
  match d.taskOf e with
  | none => (0, d)
  | some x =>
    match x.phase with
    | .waiting =>
      if d.mayBeReady x then (2, (d.traceEntry c 0x02 e 0 8).removeTask c x 8) else (1, d.removeTask c x 0)
    | .ready =>
      let same := decide (x.readyAt = c) && !x.preempted
      let d1 := if same then d.onDisp (fun y => { y with trace := y.trace.annul e c }) else d
      (if same then 2 else 1, d1.removeTask c x (if same then 8 else 0))
    | .running => (3, d.removeTask c x 0)

/-- A cancel takes effect in its cycle, and its reply is posted (R350); a kernel that waits for its boundary stays. -/
def Dev.applyCancel (d : Dev) (x : CancelReq) : Dev :=
  let r := d.cancel x.cycle x.entry
  r.2.reply x.hdr 0x0920 .ok (leBytes 1 r.1 ++ [0, 0, 0] ++ leBytes 8 x.cycle)

/-- The cancels whose cycle begins before an instant take effect, in the order of their cycles. -/
def Dev.cancelsBefore (d : Dev) (t : Nat) : Dev :=
  let due := (d.disp.cancels.filter (fun x => decide (x.cycle < t))).mergeSort (fun a b => decide (a.cycle ≤ b.cycle))
  due.foldl Dev.applyCancel (d.onDisp (fun y => { y with cancels := y.cancels.filter (fun x => !decide (x.cycle < t)) }))

/-- A mode suspends entries: their tasks are cancelled, each with a record (R347). A run on a solver lane or of a user kernel
is aborted; any other running task runs to completion, and its record carries LATE (R338). -/
def Dev.suspendTasks (d : Dev) (t : Nat) : Dev :=
  d.disp.tasks.foldl (fun d x =>
    if d.entryLive x.entry then d
    else if x.phase = .running ∧ !decide (0x600 ≤ x.entry ∧ x.entry < 0x708) then d.traceEntry t 0x05 x.entry x.unit 16
    else d.removeTask t x 0) d

/-! ### Clocks on demand (R52 to R55) -/

/-- The exceptions of R52: the domain runs continuously. -/
def Dev.domContinuous (d : Dev) (i : Nat) : Bool :=
  match i with
  | 1 => decide (d.power.mode = .commission) || !d.power.pending.isEmpty
  | 8 => d.pwm.groups.any (fun e => e.2.cfg.isSome) || d.pwm.brakes.any (fun e => e.2.cfg.isSome)
    || d.mults.any (fun e => e.2.step.isSome || e.2.chop.isSome) || d.deck.ports.any (·.reading)
  | 11 => decide (d.skim.phase = .armed) || decide (d.skim.phase = .post)
  | _ => false

/-- The domains that R52 has run continuously run: what stopped before starts with what makes it so. -/
def Dev.runContinuous (d : Dev) : Dev :=
  [1, 8, 11].foldl (fun d i => if d.domContinuous i then d.startDomain d.time.ct i else d) d

end Sys2Proof.Machine
end

