-- ==== Sys2Proof/Machine/Capture.lean ====
section
/-! DEFINITION. What the skimmer takes in (spec/16_skimmer.md, R352 to R368): records, triggers and missed triggers; the
internal signals it records; and from there the outcome of a command or event: its effect on the device, what follows
from the state it leaves, and the records of the internal signals that it changed. -/

namespace Sys2Proof.Machine

/-! ### The internal signals (R92, R355) -/

/-- DEV_STATUS (R92). -/
def Dev.devStatus (d : Dev) : BitVec 32 :=
  BitVec.ofNat 32 (d.power.mode.code + 16 * bit d.boot.fwRun + 32 * bit d.time.valid + 64 * bit (!d.boot.faultN)
    + 128 * bit (d.safety.stoA && d.safety.stoB)
    + 256 * bit d.holdsLease
    + 512 * bit (!d.power.pending.isEmpty) + 1024 * bit (d.time.policyForce == .autonomous)
    + 4096 * d.boot.step.toNat + 65536 * d.boot.fail.toNat)

/-- The state code of an arm (R145). -/
def ArmPhase.code : ArmPhase → Nat
  | .idle => 0 | .moving => 1 | .paused => 2 | .stopping => 3 | .stopped => 4

/-- The value of an internal code of R355. -/
def Dev.internal (d : Dev) (code : Nat) : BitVec 32 :=
  if code = 0 then BitVec.ofNat 32 d.power.mode.code
  else if code = 1 then d.devStatus
  else if code = 2 then BitVec.ofNat 32 (bit (d.safety.stoA && d.safety.stoB))
  else if code = 3 then BitVec.ofNat 32 (bit d.holdsLease)
  else if code = 4 then BitVec.ofNat 32 (bit d.loop.activeB)
  else if 0x40 ≤ code ∧ code < 0x80 then ((look d.safety.pans (code - 0x40)).req &&& 3).setWidth 32
  else if 0x80 ≤ code ∧ code < 0x90 then BitVec.ofNat 32 (look d.arms (code - 0x80)).phase.code
  else if 0x90 ≤ code ∧ code < 0x9A then
    if d.isRetired 1 (code - 0x90) then 2
    else if (d.bus.sets.getD ((code - 0x90) / 2) default).state = .passive then 1 else 0
  else if 0xA0 ≤ code ∧ code < 0xA8 then BitVec.ofNat 32 (bit (look d.pwm.groups (code - 0xA0)).trip)
  else if 0xB0 ≤ code ∧ code < 0xC0 then
    match look d.deck.lifts (code - 0xB0) with
    | some l => BitVec.ofNat 32 (bit l.holding)
    | none => 0
  else 0

/-- The codes of R355. -/
def internalCode (c : Nat) : Bool :=
  decide (c ≤ 4) || decide (0x40 ≤ c ∧ c < 0x90) || decide (0x90 ≤ c ∧ c < 0x9A) || decide (0xA0 ≤ c ∧ c < 0xA8)
    || decide (0xB0 ≤ c ∧ c < 0xC0)

/-! ### Missed stagings (R24, R495, R506) -/

/-- An output of an engine that is no fault channel was not staged: HEALTH.MISSED, and a MISSED record for the
period. -/
def Dev.missed (d : Dev) (t entry : Nat) : Dev :=
  { d with
    host := { d.host with healthSticky := setBit d.host.healthSticky 2 true }
    faults := { d.faults with missed := match d.faults.missed with
      | some (e, n, s) => some (e, n + 1, s)
      | none => some (entry, 1, t) } }

/-- The MISSED record of the period that ends (R495, R506), from the supervisor (DESIGN CHOICE, log entry 133). -/
def Dev.missedRecord (d : Dev) : Dev :=
  match d.faults.missed with
  | some (e, n, s) =>
    ({ d with faults := { d.faults with missed := none } } : Dev).journal 1 0 s 0x0F06
      (leBytes 2 e ++ leBytes 2 (min n 65535) ++ leBytes 4 0)
  | none => d

/-! ### Channels, records and triggers (R352, R357 to R364) -/

/-- The store's records (R361). -/
def skimSize : Nat := 131072

/-- A channel's configuration in force: an injection's while it binds the channel (R368). -/
def SkimChan.now (c : SkimChan) : ConfigChannel := c.bound.getD c.cfg

/-- A record joins the intake queue, or is lost where the queue is full (R357). -/
def Skim.intake (k : Skim) (r : SkimRec) : Skim :=
  if 256 ≤ k.queue.length then
    { k with lost := k.lost + 1, lostRun := k.lostRun + 1, lostAt := if k.lostRun = 0 then r.ct else k.lostAt }
  else { k with queue := k.queue ++ [r] }

/-- Records stored since arming, with those that wait in the queue. -/
def Skim.taken (k : Skim) : Nat := k.stored + k.queue.length

/-- The F300 cycle of an instant (R8, R337): 75 cycles to 256 LSB. -/
def f300Cycle (t : Nat) : Nat := t * 75 / 256

/-- A TRIGGER record. -/
def SkimRec.isTrigger (r : SkimRec) : Bool := decide (r.flags.toNat % 4 = 1)

/-- A source met now joins the accepted trigger (R362): both are met in the same F300 cycle. -/
def Dev.joins (d : Dev) : Bool := decide (d.skim.phase = .post) && decide (f300Cycle d.time.ct = d.skim.trigCyc)

/-- More sources met in the F300 cycle of the accepted trigger join it (R362): its record carries their mask too. -/
def Dev.joinTrigger (d : Dev) (mask : Nat) : Dev :=
  let k := d.skim
  if !d.joins ∨ k.mask ||| BitVec.ofNat 8 mask = k.mask then d
  else
    let m := k.mask ||| BitVec.ofNat 8 mask
    let merge := fun (r : SkimRec) => if r.isTrigger
      then { r with chan := 0xFF00 + m.setWidth 16, flags := BitVec.ofNat 16 (1 + 32 * bit (m == 16)) } else r
    let fire := decide (k.cap.role ≠ 0) && decide (k.cap.fireOut = 1) && decide (mask ≠ 16)
    d.onSkim (fun k => { k with
      mask := m, queue := k.queue.map merge, store := upd k.store k.trigIdx.toNat merge
      fireOut := fire || k.fireOut, fireAt := if fire then d.time.ct else k.fireAt })

/-- A further triggering DATA record of that cycle is stored before the TRIGGER record too, and counts in pre_actual (R361). -/
def Skim.joinData (k : Skim) (r : SkimRec) : Skim :=
  if 256 ≤ k.queue.length ∨ !k.queue.any SkimRec.isTrigger then k.intake r
  else
    let pre := min k.cap.pre.toNat (k.preAct.toNat + 1)
    let idx := (k.trigIdx.toNat + 1) % skimSize
    let place := fun (x : SkimRec) => if x.isTrigger then [r, { x with value := BitVec.ofNat 32 pre }] else [x]
    { k with queue := k.queue.flatMap place, preAct := BitVec.ofNat 32 pre, trigIdx := BitVec.ofNat 32 idx,
             first := BitVec.ofNat 32 ((idx + skimSize - pre) % skimSize) }

/-- The device itself pulls an XTRG line low (R365, R366). -/
def Skim.pulls (k : Skim) (i : BitVec 8) : Bool := (k.armOut && k.cap.armLine == i) || (k.fireOut && k.cap.fireLine == i)

/-- An XTRG line reads low (R41): something outside or the device itself pulls it. -/
def Skim.lineLow (k : Skim) (i : BitVec 8) : Bool := k.pulled.getLsbD i.toNat || k.pulls i

/-- Something outside pulls an XTRG line low, or releases it. -/
def Skim.pull (k : Skim) (i : BitVec 8) (low : Bool) : Skim := { k with pulled := setBit k.pulled i.toNat low }

/-- A trigger from sources in a mask: accepted in ARMED, missed in HELD and REARM, without effect otherwise (R360 to R364,
R366, R370). -/
def Dev.skimTrigger (d0 : Dev) (t mask : Nat) : Dev :=
  let k := d0.skim
  let d := if k.phase = .idle then d0 else d0.wakeDisp t
  match k.phase with
  | .armed =>
    let pre := min k.cap.pre.toNat k.taken
    let idx := (k.wi + k.queue.length) % skimSize
    let r : SkimRec := { ct := t, chan := BitVec.ofNat 16 (0xFF00 + mask), flags := BitVec.ofNat 16 (1 + 32 * bit (mask == 16)),
                         value := BitVec.ofNat 32 pre }
    let fire := decide (k.cap.role ≠ 0) && decide (k.cap.fireOut = 1) && decide (mask ≠ 16)
    let d1 := d.onSkim (fun k => { k with
      phase := .post, queue := k.queue ++ [r], mask := BitVec.ofNat 8 mask, trigIdx := BitVec.ofNat 32 idx,
      first := BitVec.ofNat 32 ((idx + skimSize - pre) % skimSize), preAct := BitVec.ofNat 32 pre, trigAt := t,
      trigCyc := f300Cycle d.time.ct, postLeft := skimSize - k.cap.pre.toNat, fireOut := fire || k.fireOut,
      fireAt := if fire then d.time.ct else k.fireAt })
    (d1.notice 10 0 t 0x0A01 (BitVec.ofNat 32 pre) false).traceTrigger t
  | .post => d.joinTrigger mask
  | .held => d.onSkim (fun k => { k with missed := k.missed + 1, missNow := k.missNow + 1,
                                         missAt := if k.missNow = 0 then t else k.missAt })
  | .rearm => d.onSkim (fun k => { k with missed := k.missed + 1, missNow := k.missNow + 1,
                                          missAt := if k.missNow = 0 then t else k.missAt })
  | _ => d

/-- A condition's operator on a record (R362). -/
def condMet (op : Nat) (ref mask : BitVec 32) (prev : Option (BitVec 32)) (v : BitVec 32) : Bool :=
  match op with
  | 0 => true
  | 1 => v == ref
  | 2 => v != ref
  | 3 => decide (ref.toInt < v.toInt)
  | 4 => decide (v.toInt < ref.toInt)
  | 5 => (v &&& mask) == ref
  | 6 => match prev with
    | some p => decide (p.toInt ≤ ref.toInt) && decide (ref.toInt < v.toInt)
    | none => false
  | _ => match prev with
    | some p => decide (ref.toInt ≤ p.toInt) && decide (v.toInt < ref.toInt)
    | none => false

/-- The mask of the enabled conditions that a record of a channel meets (R362). -/
def Skim.condMask (k : Skim) (ch : Nat) (prev : Option (BitVec 32)) (v : BitVec 32) : Nat :=
  (List.range 4).foldl (fun m i =>
    let w := fun j => k.trig.conds.getD (3 * i + j) 0
    let c := w 0
    if k.trig.enable.getLsbD i ∧ c.toNat % 256 = ch ∧ condMet (c.toNat / 256 % 256) (w 1) (w 2) prev v then m + 2 ^ i
    else m) 0

/-- A record of a channel is taken in (R352, R360 to R364). A record that the full queue loses is not the channel's last stored
one; in HELD and REARM, where nothing is stored, the last that was met stands for it (DESIGN CHOICE, log entry 181). -/
def Dev.skimData (d : Dev) (t ch : Nat) (v : BitVec 32) (flags : Nat) : Dev :=
  let k := d.skim
  let c := look k.chans ch
  let m := k.condMask ch (if c.first then none else c.prev) v
  let lost := (decide (k.phase = .armed) || decide (k.phase = .post)) && decide (256 ≤ k.queue.length)
  let note := fun (k : Skim) => { k with chans := upd k.chans ch (fun c => { c with
    last := if lost then c.last else some v, prev := some v, first := false }) }
  let r : SkimRec := { ct := t, chan := BitVec.ofNat 16 ch, flags := BitVec.ofNat 16 flags, value := v }
  match k.phase with
  | .idle => d
  | .armed =>
    let d1 := d.onSkim (fun k => note (k.intake r))
    if m = 0 then d1 else d1.skimTrigger t m
  | .post =>
    let d1 := d.onSkim (fun k => note (if m = 0 then k.intake r else if d.joins then k.joinData r
      else k.intake { r with flags := BitVec.ofNat 16 (flags + 16) }))
    if m = 0 then d1 else d1.joinTrigger m
  | _ =>
    let d1 := d.onSkim note
    if m = 0 then d1 else d1.skimTrigger t m

/-- A value with 32 bits, and whether it saturated (R356). -/
def loopWord (v : Int) : BitVec 32 × Bool :=
  let c := clampInt (-2147483648) 2147483647 v
  (BitVec.ofInt 32 c, decide (c ≠ v))

/-- A sample of a loop variable: stored on each channel of its source where it differs from the last stored value, or where
EVERY is set (R352, R356). `key` is slot kind * 256 + index. -/
def Dev.skimLoop (d : Dev) (t key var : Nat) (v : BitVec 32) (sat : Bool) : Dev :=
  d.skim.chans.foldl (fun d e =>
    let c := e.2.now
    if c.kind = 4 ∧ c.source.toNat = key + 1024 * var ∧ (c.flags.getLsbD 0 ∨ (look d.skim.chans e.1).last ≠ some v)
    then d.skimData t e.1 v (4 * bit sat) else d) d

/-- The records of the internal signals that changed from one state of the device to another (R352, R355). -/
def Dev.skimInternal (old d : Dev) : Dev :=
  d.skim.chans.foldl (fun d' e =>
    let c := e.2.now
    if c.kind = 3 ∧ old.internal c.source.toNat ≠ d.internal c.source.toNat
    then d'.skimData d.time.ct e.1 (d.internal c.source.toNat) 0 else d') d

/-! ### The pins whose level the model holds (R353) -/

/-- The BRK_OUT level of a brake at an instant (R385): static in PULL_IN; in HOLD a PWM of hold_period ticks, high for
rne(hold × hold_period, 16) ticks from each period start. The first period starts where HOLD does (log entry 155). -/
def Brake.outAt (b : Brake) (t : Nat) : Bool :=
  match b.phase, b.cfg with
  | .pullIn, _ => true
  | .hold, some c =>
    let period := c.holdPeriod.toNat
    decide ((((t - b.since) * 25 / 64 % period : Nat) : Int) < rneDiv (c.hold.toNat * period : Nat) 65536)
  | _, _ => false

/-- The level of the pin of a code of R353, where the state holds it: BRK_OUT, STEP, DIR, the STO outputs and feedbacks, EDM_IN,
LEASE_OUT, FAULT_N, ALIVE, XTRG, and SEAL as accepted. The level of any other pin, and an edge of a clocked output between two
commands, comes with PIN_CHANNEL_CHANGE. -/
def Dev.codeLevel (d : Dev) (c : Nat) : Option Bool :=
  let k := c % 16
  if 0x30 ≤ c ∧ c < 0x38 then some (d.safety.edmIn.getLsbD (c - 0x30))
  else if 0x50 ≤ c ∧ c < 0x60 then some ((look d.pwm.brakes k).outAt d.time.ct)
  else if 0x60 ≤ c ∧ c < 0x70 then (look d.mults k).step.map (fun s =>
    d.power.mode.torque && (decide (0 < (look d.mults k).gen.active) ^^ s.flags.getLsbD 0))
  else if 0x70 ≤ c ∧ c < 0x80 then (look d.mults k).step.map (fun s =>
    d.power.mode.torque && ((look d.mults k).gen.dirPos ^^ s.flags.getLsbD 1))
  else if 0x8C ≤ c ∧ c < 0x94 then some (d.safety.sealPins.getLsbD (c - 0x8C))
  else if 0x88 ≤ c ∧ c < 0x8C then some (!d.skim.lineLow (BitVec.ofNat 8 (c - 0x88)))
  else match c with
    | 0x80 => some d.safety.stoA
    | 0x81 => some d.safety.stoB
    | 0x82 => some d.safety.stoFbA
    | 0x83 => some d.safety.stoFbB
    | 0x84 => some d.holdsLease
    | 0x86 => some d.boot.faultN
    | 0x87 => some d.boot.alive
    | _ => none

/-- A PIN channel's pin is at a level: accepted once it has been stable for the glitch filter's F300 cycles, and recorded with the
stamp of its first cycle where it changes the filtered level (R352). The first level a channel knows is no change. -/
def Dev.pinSeen (d : Dev) (ch : Nat) (now : Bool) : Dev :=
  let on := fun (f : SkimChan → SkimChan) (d : Dev) => d.onSkim (fun k => { k with chans := upd k.chans ch f })
  let c := look d.skim.chans ch
  let at_ := if c.raw = some now then c.rawAt else d.time.ct
  let d1 := if c.raw = some now then d else on (fun c => { c with raw := some now, rawAt := d.time.ct }) d
  if c.level = some now then d1
  else if c.level.isNone then on (fun c => { c with level := some now }) d1
  else if f300Cycle d.time.ct - f300Cycle at_ < c.cfg.glitch.toNat then d1
  else (on (fun c => { c with level := some now }) d1).skimData at_ ch (BitVec.ofNat 32 (bit now)) 0

/-- The PIN channels whose pins the state holds see their levels. -/
def Dev.skimPins (d : Dev) : Dev :=
  d.skim.chans.foldl (fun (d' : Dev) (e : Nat × SkimChan) =>
    let c := e.2.now
    match (if c.kind == 1 then d.codeLevel c.source.toNat else none) with
    | some l => d'.pinSeen e.1 l
    | none => d') d

/-! ### From an effect on the device to an outcome -/

/-- The state after a command or event has left the device as `d`: the clocks that must run (R52), what follows from the state it
leaves, the records of the internal signals and of the pins that it changed, and what follows from a trigger that such a record pulls. -/
def State.after (s : State) (d : Dev) : State := { s with dev := ((s.dev.skimInternal d.runContinuous.settle).skimPins).settle }

/-- A command or event with an effect on the device: the next state, the waiting queue unchanged. -/
def State.act (s : State) (f : Dev → Dev) : Host.Outcome State Fault Refusal := .next (s.after (f s.dev))

end Sys2Proof.Machine
end

