-- ==== Sys2Proof/Machine/Parse.lean ====
section
/-! DEFINITION. From the bytes of a mailbox message to the command they spell: the parameter structures of every
opcode, little-endian (R4), and the opcode map (R112, R113). A payload shorter than its structure reads as if zeros
followed it; step 9 of R100 then refuses it by its length. -/

namespace Sys2Proof.Machine

/-- The parameters of ECHO in a payload (R114). -/
def parseEcho (b : List Byte) : Echo :=
  { data := b.drop 0 }

/-- The parameters of GET_NOTICES in a payload (R114). -/
def parseGetNotices (b : List Byte) : GetNotices :=
  { max := rd 8 b 0, reserved := rd 24 b 1 }

/-- The parameters of SET_HOST_WATCHDOG in a payload (R114). -/
def parseSetHostWatchdog (b : List Byte) : SetHostWatchdog :=
  { period := rd 32 b 0, action := rd 8 b 4, reserved := rd 24 b 5 }

/-- The parameters of SET_MODE in a payload (R65). -/
def parseSetMode (b : List Byte) : SetMode :=
  { target := rd 8 b 0, reserved := rd 24 b 1 }

/-- The parameters of SET_WAKE in a payload (R66). -/
def parseSetWake (b : List Byte) : SetWake :=
  { sources := rd 8 b 0, gpio := rd 8 b 1, edge := rd 8 b 2, reserved := rd 8 b 3, alarm := rd 64 b 4 }

/-- The parameters of SET_DOMAINS in a payload (R67). -/
def parseSetDomains (b : List Byte) : SetDomains :=
  { offMask := rd 16 b 0, reserved := rd 16 b 2 }

/-- The parameters of DEVICE_RESET in a payload (R86). -/
def parseDeviceReset (b : List Byte) : DeviceReset :=
  { key := rd 32 b 0 }

/-- The parameters of BOOT_IMAGE in a payload (R86). -/
def parseBootImage (b : List Byte) : BootImage :=
  { length := rd 32 b 0 }

/-- The parameters of FUSE_PROGRAM in a payload (R81). -/
def parseFuseProgram (b : List Byte) : FuseProgram :=
  { row := rd 8 b 0, reserved := rd 24 b 1, mask := rd 64 b 4 }

/-- The parameters of SET_TIMING in a payload (R114). -/
def parseSetTiming (b : List Byte) : SetTiming :=
  { tc := rd 8 b 0, nSep := rd 8 b 1, reserved := rd 16 b 2 }

/-- The parameters of SET_POLICY in a payload (R26). -/
def parseSetPolicy (b : List Byte) : SetPolicy :=
  { level := rd 8 b 0, reserved := rd 24 b 1 }

/-- The parameters of MAINT_READ in a payload (R84). -/
def parseMaintRead (b : List Byte) : MaintRead :=
  { space := rd 8 b 0, reserved := rd 24 b 1, offset := rd 32 b 4, length := rd 32 b 8 }

/-- The parameters of RUN_SELFTEST in a payload (R528). -/
def parseRunSelftest (b : List Byte) : RunSelftest :=
  { blocks := rd 8 b 0, reserved := rd 24 b 1 }

/-- The parameters of CONFIG_ARM in a payload (R136). -/
def parseConfigArm (b : List Byte) : ConfigArm :=
  { arm := rd 8 b 0, joints := rd 8 b 1, first := rd 8 b 2, reserved0 := rd 8 b 3, kinds := rd 16 b 4,
    reserved1 := rd 16 b 6, vLin := rd 32 b 8, aLin := rd 32 b 12, vRot := rd 32 b 16, aRot := rd 32 b 20 }

/-- The parameters of SET_JOINT_LIMITS in a payload (R137). -/
def parseSetJointLimits (b : List Byte) : SetJointLimits :=
  { joint := rd 8 b 0, reserved := rd 24 b 1, vmax := rd 32 b 4, amax := rd 32 b 8, pmin := rd 64 b 12,
    pmax := rd 64 b 20 }

/-- The parameters of SET_SCALING in a payload (R138). -/
def parseSetScaling (b : List Byte) : SetScaling :=
  { arms := rd 16 b 0, sHost := rd 16 b 2, slew := rd 16 b 4, reserved := rd 16 b 6 }

/-- The parameters of APPEND_JOINT_MOVE in a payload (R140). -/
def parseAppendJointMove (b : List Byte) : AppendJointMove :=
  { arm := rd 8 b 0, flags := rd 8 b 1, id := rd 16 b 2, vfrac := rd 16 b 4, afrac := rd 16 b 6, blend := rd 32 b 8,
    reserved0 := rd 32 b 12, targets := rdList 64 b 16 12 }

/-- The parameters of APPEND_CART_MOVE in a payload (R141). -/
def parseAppendCartMove (b : List Byte) : AppendCartMove :=
  { arm := rd 8 b 0, flags := rd 8 b 1, id := rd 16 b 2, vfrac := rd 16 b 4, afrac := rd 16 b 6, blend := rd 32 b 8,
    reserved0 := rd 32 b 12, frame := rd 8 b 16, reserved1 := rd 24 b 17, x := rd 32 b 20, y := rd 32 b 24,
    z := rd 32 b 28, qw := rd 32 b 32, qx := rd 32 b 36, qy := rd 32 b 40, qz := rd 32 b 44 }

/-- The parameters of STOP_ARMS in a payload (R142). -/
def parseStopArms (b : List Byte) : StopArms :=
  { arms := rd 16 b 0, flush := rd 8 b 2, reserved := rd 8 b 3 }

/-- The parameters of RESUME_ARMS in a payload (R143). -/
def parseResumeArms (b : List Byte) : ResumeArms :=
  { arms := rd 16 b 0, flush := rd 8 b 2, reserved := rd 8 b 3 }

/-- The parameters of FLUSH_QUEUE in a payload (R144). -/
def parseFlushQueue (b : List Byte) : FlushQueue :=
  { arms := rd 16 b 0, flush := rd 8 b 2, reserved := rd 8 b 3 }

/-- The parameters of GET_ARM_STATE in a payload (R145). -/
def parseGetArmState (b : List Byte) : GetArmState :=
  { arm := rd 8 b 0, reserved := rd 24 b 1 }

/-- The parameters of CONFIG_JOINT_SLOT in a payload (R190). -/
def parseConfigJointSlot (b : List Byte) : ConfigJointSlot :=
  { joint := rd 8 b 0, kind := rd 8 b 1, missLimit := rd 8 b 2, flags := rd 8 b 3, uMin := rd 32 b 4,
    uMax := rd 32 b 8, reserved := rd 32 b 12 }

/-- The parameters of CONFIG_ARM_SLOT in a payload (R191). -/
def parseConfigArmSlot (b : List Byte) : ConfigArmSlot :=
  { arm := rd 8 b 0, law := rd 8 b 1, axes := rd 8 b 2, reserved := rd 8 b 3, fLim := rd 32 b 4, mLim := rd 32 b 8 }

/-- The parameters of CONFIG_CURRENT_SLOT in a payload (R193). -/
def parseConfigCurrentSlot (b : List Byte) : ConfigCurrentSlot :=
  { group := rd 8 b 0, joint := rd 8 b 1, polePairs := rd 8 b 2, reserved := rd 8 b 3, offset := rd 32 b 4,
    kt := rd 32 b 8, iScale := rd 32 b 12, iMax := rd 32 b 16, vDc := rd 32 b 20 }

/-- The parameters of SET_ARM_TARGET in a payload (R192). -/
def parseSetArmTarget (b : List Byte) : SetArmTarget :=
  { arm := rd 8 b 0, reserved := rd 24 b 1, target := rdList 32 b 4 6 }

/-- The parameters of LOAD_BANK in a payload (R194). -/
def parseLoadBank (b : List Byte) : LoadBank :=
  { kind := rd 8 b 0, index := rd 8 b 1, reserved := rd 16 b 2, record := b.drop 4 }

/-- The parameters of LOAD_BANK_BLOCK in a payload (R194). -/
def parseLoadBankBlock (b : List Byte) : LoadBankBlock :=
  { offset := rd 32 b 0, length := rd 32 b 4, crc := rd 32 b 8, count := rd 16 b 12, reserved := rd 16 b 14 }

/-- The parameters of SWAP_BANKS in a payload (R178). -/
def parseSwapBanks (b : List Byte) : SwapBanks :=
  { preset := rd 8 b 0, reserved := rd 24 b 1 }

/-- The parameters of SET_SLOT_MODE in a payload (R196). -/
def parseSetSlotMode (b : List Byte) : SetSlotMode :=
  { joint := rd 8 b 0, state := rd 8 b 1, reserved := rd 16 b 2, uMan := rd 32 b 4 }

/-- The parameters of GET_SLOT_STATE in a payload (R197). -/
def parseGetSlotState (b : List Byte) : GetSlotState :=
  { kind := rd 8 b 0, index := rd 8 b 1, reserved := rd 16 b 2 }

/-- The parameters of START_INJECTION in a payload (R210). -/
def parseStartInjection (b : List Byte) : StartInjection :=
  { kind := rd 8 b 0, index := rd 8 b 1, point := rd 8 b 2, signal := rd 8 b 3, flags := rd 8 b 4, cInj := rd 8 b 5,
    cOut := rd 8 b 6, cFb := rd 8 b 7, n := rd 32 b 8, excLimit := rd 32 b 12, velLimit := rd 32 b 16,
    id := rd 16 b 20, axis := rd 8 b 22, reserved := rd 8 b 23, block := rdList 8 b 24 72 }

/-- The parameters of STOP_INJECTION in a payload (R211). -/
def parseStopInjection (b : List Byte) : StopInjection :=
  { kind := rd 8 b 0, index := rd 8 b 1, reserved := rd 16 b 2 }

/-- The parameters of GET_INJECTION_STATE in a payload (R212). -/
def parseGetInjectionState (b : List Byte) : GetInjectionState :=
  { kind := rd 8 b 0, index := rd 8 b 1, reserved := rd 16 b 2 }

/-- The parameters of SET_RETUNE_BOUNDS in a payload (R213). -/
def parseSetRetuneBounds (b : List Byte) : SetRetuneBounds :=
  { joint := rd 8 b 0, reserved0 := rd 24 b 1, omegaC := rd 32 b 4, kpMin := rd 32 b 8, kpMax := rd 32 b 12,
    kiMin := rd 32 b 16, kiMax := rd 32 b 20, kdMin := rd 32 b 24, kdMax := rd 32 b 28, rMax := rd 16 b 32,
    reserved1 := rd 16 b 34 }

/-- The parameters of DEFINE_PROBLEM in a payload (R238). -/
def parseDefineProblem (b : List Byte) : DefineProblem :=
  { id := rd 8 b 0, template := rd 8 b 1, n := rd 8 b 2, run := rd 8 b 3, priority := rd 8 b 4, group := rd 8 b 5,
    flags := rd 8 b 6, kRef := rd 8 b 7, qA := rd 8 b 8, qL := rd 8 b 9, qB := rd 8 b 10, qX := rd 8 b 11,
    qR := rd 8 b 12, outerCap := rd 8 b 13, reserved0 := rd 16 b 14, lambda := rd 32 b 16, pivotThr := rd 32 b 20,
    tol := rd 32 b 24, acc := rd 32 b 28, boundA := rd 32 b 32, boundB := rd 32 b 36, dlOff := rd 32 b 40,
    reserved1 := rd 32 b 44 }

/-- The parameters of REMOVE_PROBLEM in a payload (R238). -/
def parseRemoveProblem (b : List Byte) : RemoveProblem :=
  { id := rd 8 b 0, reserved := rd 24 b 1 }

/-- The parameters of SET_PROBLEM_INPUT in a payload (R239). -/
def parseSetProblemInput (b : List Byte) : SetProblemInput :=
  { id := rd 8 b 0, reserved := rd 24 b 1, words := rdWords 32 (b.drop 4) }

/-- The parameters of GET_PROBLEM_RESULT in a payload (R240). -/
def parseGetProblemResult (b : List Byte) : GetProblemResult :=
  { id := rd 8 b 0, reserved := rd 24 b 1 }

/-- The parameters of GET_PROBLEM_DESCRIPTOR in a payload (R240). -/
def parseGetProblemDescriptor (b : List Byte) : GetProblemDescriptor :=
  { id := rd 8 b 0, reserved := rd 24 b 1 }

/-- The parameters of GET_LANE_STATE in a payload (R241). -/
def parseGetLaneState (b : List Byte) : GetLaneState :=
  { lane := rd 8 b 0, reserved := rd 24 b 1 }

/-- The parameters of CONFIG_SEPARATION in a payload (R283). -/
def parseConfigSeparation (b : List Byte) : ConfigSeparation :=
  { inCut := rd 32 b 0, zDisc := rd 32 b 4 }

/-- The parameters of DEFINE_PAN in a payload (R283). -/
def parseDefinePan (b : List Byte) : DefinePan :=
  { pan := rd 8 b 0, reserved := rd 8 b 1, arms := rd 16 b 2 }

/-- The parameters of SET_PARAM_SET in a payload (R283). -/
def parseSetParamSet (b : List Byte) : SetParamSet :=
  { set := rd 8 b 0, reserved0 := rd 24 b 1, tLat := rd 32 b 4, tS := rd 32 b 8, c := rd 32 b 12, zD := rd 32 b 16,
    zR := rd 32 b 20, zIsl := rd 32 b 24, vHMin := rd 32 b 28, reserved1 := rd 32 b 32 }

/-- The parameters of LOAD_SAFETY_KINEMATICS in a payload (R283). -/
def parseLoadSafetyKinematics (b : List Byte) : LoadSafetyKinematics :=
  { offset := rd 32 b 0, length := rd 32 b 4, crc := rd 32 b 8, count := rd 16 b 12, reserved := rd 16 b 14 }

/-- The parameters of LOAD_CAPSULES in a payload (R283). -/
def parseLoadCapsules (b : List Byte) : LoadCapsules :=
  { offset := rd 32 b 0, length := rd 32 b 4, crc := rd 32 b 8, count := rd 16 b 12, reserved := rd 16 b 14 }

/-- The parameters of LOAD_PAIRS in a payload (R267). -/
def parseLoadPairs (b : List Byte) : LoadPairs :=
  { offset := rd 32 b 0, length := rd 32 b 4, crc := rd 32 b 8, first := rd 16 b 12, count := rd 16 b 14 }

/-- The parameters of LOAD_ISLAND in a payload (R283). -/
def parseLoadIsland (b : List Byte) : LoadIsland :=
  { offset := rd 32 b 0, length := rd 32 b 4, crc := rd 32 b 8, spheres := rd 16 b 12, pairs := rd 16 b 14 }

/-- The parameters of SET_OBJECT_SOURCE in a payload (R283). -/
def parseSetObjectSource (b : List Byte) : SetObjectSource :=
  { object := rd 8 b 0, source := rd 8 b 1, connection := rd 8 b 2, entry := rd 8 b 3, age := rd 32 b 4,
    reserved := rd 32 b 8 }

/-- The parameters of SET_PAN_PLANNER in a payload (R283). -/
def parseSetPanPlanner (b : List Byte) : SetPanPlanner :=
  { pan := rd 8 b 0, enable := rd 8 b 1, reserved := rd 16 b 2, m := rd 32 b 4, weights := rdList 16 b 8 12 }

/-- The parameters of GET_PAN_STATE in a payload (R284). -/
def parseGetPanState (b : List Byte) : GetPanState :=
  { pan := rd 8 b 0, reserved := rd 24 b 1 }

/-- The parameters of GET_PAIR_RESULT in a payload (R284). -/
def parseGetPairResult (b : List Byte) : GetPairResult :=
  { entry := rd 16 b 0, reserved := rd 16 b 2 }

/-- The parameters of GET_OBJECT_STATE in a payload (R284). -/
def parseGetObjectState (b : List Byte) : GetObjectState :=
  { object := rd 8 b 0, reserved := rd 24 b 1 }

/-- The parameters of CONFIG_MOTION_PORT in a payload (R306). -/
def parseConfigMotionPort (b : List Byte) : ConfigMotionPort :=
  { port := rd 8 b 0, enable := rd 8 b 1, spiMode := rd 8 b 2, check := rd 8 b 3, clkKhz := rd 16 b 4,
    nBytes := rd 8 b 6, nCmd := rd 8 b 7, cmd := rdList 8 b 8 4, offsets := rdList 8 b 12 6, width := rd 8 b 18,
    reserved := rd 8 b 19, rateScale := rd 32 b 20, forceScale := rd 32 b 24, rateMax := rd 32 b 28,
    fMax := rd 32 b 32, mount := rdList 32 b 36 4 }

/-- The parameters of CONFIG_DECK in a payload (R306). -/
def parseConfigDeck (b : List Byte) : ConfigDeck :=
  { lever := rdList 32 b 0 6, tauC := rd 16 b 24, tH := rd 8 b 26, qMin := rd 8 b 27, tAvg := rd 16 b 28,
    reserved := rd 16 b 30 }

/-- The parameters of SET_VESSEL in a payload (R306). -/
def parseSetVessel (b : List Byte) : SetVessel :=
  { displacement := rd 32 b 0, gmT := rd 32 b 4, gmL := rd 32 b 8, xCf := rd 32 b 12, yCf := rd 32 b 16,
    heelMax := rd 16 b 20, trimMax := rd 16 b 22, hyst := rd 16 b 24, heelStop := rd 16 b 26, reserved := rd 32 b 28 }

/-- The parameters of DEFINE_LOAD_FRAME in a payload (R292). -/
def parseDefineLoadFrame (b : List Byte) : DefineLoadFrame :=
  { channel := rd 8 b 0, slot := rd 8 b 1, enable := rd 8 b 2, reserved := rd 8 b 3, loadAge := rd 64 b 4 }

/-- The parameters of SET_DECK_LIMITS in a payload (R296). -/
def parseSetDeckLimits (b : List Byte) : SetDeckLimits :=
  { arm := rd 8 b 0, reserved := rd 24 b 1, fQuiet := rd 32 b 4, fLim := rd 32 b 8, hS := rd 32 b 12,
    tLead := rd 32 b 16 }

/-- The parameters of CONFIG_BALLAST in a payload (R306). -/
def parseConfigBallast (b : List Byte) : ConfigBallast :=
  { count := rd 8 b 0, reserved := rd 24 b 1, ballastAge := rd 32 b 4, tanks := rdWords 32 (b.drop 8) }

/-- The parameters of SET_BALLAST_BOUNDS in a payload (R302). -/
def parseSetBallastBounds (b : List Byte) : SetBallastBounds :=
  { dmTankMax := rd 32 b 0, dmTotalMax := rd 32 b 4 }

/-- The parameters of DECLARE_LIFT in a payload (R298). -/
def parseDeclareLift (b : List Byte) : DeclareLift :=
  { arm := rd 8 b 0, flags := rd 8 b 1, firstId := rd 16 b 2, lastId := rd 16 b 4, mass := rd 32 b 6,
    centres := rdList 32 b 10 6, reserved0 := rd 16 b 34, reserved1 := rd 32 b 36 }

/-- The parameters of CLOSE_LIFT in a payload (R298). -/
def parseCloseLift (b : List Byte) : CloseLift :=
  { arm := rd 8 b 0, reserved := rd 24 b 1 }

/-- The parameters of SEND_BALLAST_REQUEST in a payload (R302). -/
def parseSendBallastRequest (b : List Byte) : SendBallastRequest :=
  { recompute := rd 8 b 0, arm := rd 8 b 1, count := rd 8 b 2, reserved := rd 8 b 3, validFor := rd 32 b 4,
    dm := rdWords 32 (b.drop 8) }

/-- The parameters of GET_HEEL_STATE in a payload (R306). -/
def parseGetHeelState (b : List Byte) : GetHeelState :=
  { arm := rd 8 b 0, reserved := rd 24 b 1 }

/-- The parameters of LOAD_KERNEL in a payload (R330). -/
def parseLoadKernel (b : List Byte) : LoadKernel :=
  { slot := rd 8 b 0, core := rd 8 b 1, run := rd 8 b 2, priority := rd 8 b 3, group := rd 8 b 4,
    reserved := rd 24 b 5, offset := rd 32 b 8, length := rd 32 b 12, crc := rd 32 b 16, entry := rd 32 b 20,
    budget := rd 32 b 24 }

/-- The parameters of REMOVE_KERNEL in a payload (R331). -/
def parseRemoveKernel (b : List Byte) : RemoveKernel :=
  { slot := rd 8 b 0, reserved := rd 24 b 1 }

/-- The parameters of RUN_KERNEL in a payload (R331). -/
def parseRunKernel (b : List Byte) : RunKernel :=
  { slot := rd 8 b 0, reserved := rd 24 b 1 }

/-- The parameters of ASSIGN_VENDOR in a payload (R331). -/
def parseAssignVendor (b : List Byte) : AssignVendor :=
  { kernel := rd 8 b 0, core := rd 8 b 1, reserved0 := rd 16 b 2, channels := rd 16 b 4, reserved1 := rd 16 b 6 }

/-- The parameters of GET_CORE_STATE in a payload (R332). -/
def parseGetCoreState (b : List Byte) : GetCoreState :=
  { core := rd 8 b 0, reserved := rd 24 b 1 }

/-- The parameters of GET_KERNEL_STATE in a payload (R332). -/
def parseGetKernelState (b : List Byte) : GetKernelState :=
  { slot := rd 8 b 0, reserved := rd 24 b 1 }

/-- The parameters of SET_TRACE in a payload (R346). -/
def parseSetTrace (b : List Byte) : SetTrace :=
  { mode := rd 8 b 0, restart := rd 8 b 1, freeze := rd 8 b 2, reserved := rd 8 b 3, post := rd 32 b 4 }

/-- The parameters of TRACE_MARK in a payload (R349). -/
def parseTraceMark (b : List Byte) : TraceMark :=
  { mark := rd 16 b 0, reserved := rd 16 b 2 }

/-- The parameters of GET_EVENT_ENTRY in a payload (R351). -/
def parseGetEventEntry (b : List Byte) : GetEventEntry :=
  { entry := rd 16 b 0, reserved := rd 16 b 2 }

/-- The parameters of CANCEL_TASK in a payload (R350). -/
def parseCancelTask (b : List Byte) : CancelTask :=
  { kind := rd 8 b 0, id := rd 8 b 1, reserved := rd 16 b 2 }

/-- The parameters of CONFIG_CHANNEL in a payload (R372). -/
def parseConfigChannel (b : List Byte) : ConfigChannel :=
  { channel := rd 8 b 0, kind := rd 8 b 1, source := rd 16 b 2, flags := rd 8 b 4, glitch := rd 8 b 5,
    reserved := rd 16 b 6, lo := rd 32 b 8, hi := rd 32 b 12 }

/-- The parameters of CONFIG_CAPTURE in a payload (R372). -/
def parseConfigCapture (b : List Byte) : ConfigCapture :=
  { pre := rd 32 b 0, postTime := rd 32 b 4, role := rd 8 b 8, armLine := rd 8 b 9, fireLine := rd 8 b 10,
    fireOut := rd 8 b 11, reserved := rd 32 b 12 }

/-- The parameters of SET_TRIGGERS in a payload (R372). -/
def parseSetTriggers (b : List Byte) : SetTriggers :=
  { enable := rd 8 b 0, reserved := rd 24 b 1, conds := rdList 32 b 4 12 }

/-- The parameters of CONFIG_STEP in a payload (R162). -/
def parseConfigStep (b : List Byte) : ConfigStep :=
  { channel := rd 8 b 0, joint := rd 8 b 1, flags := rd 8 b 2, reserved := rd 8 b 3, k := rd 32 b 4, w := rd 16 b 8,
    tDs := rd 16 b 10, lagLimit := rd 32 b 12 }

/-- The parameters of CONFIG_CHOPPER in a payload (R163). -/
def parseConfigChopper (b : List Byte) : ConfigChopper :=
  { channel := rd 8 b 0, joint := rd 8 b 1, fast := rd 8 b 2, blank := rd 8 b 3, k := rd 32 b 4, iRun := rd 16 b 8,
    iHold := rd 16 b 10, holdDelay := rd 16 b 12, tOff := rd 8 b 14, brk := rd 8 b 15, tOnMax := rd 16 b 16,
    brkHi := rd 8 b 18, reserved0 := rd 8 b 19, reserved1 := rd 32 b 20 }

/-- The parameters of GET_RATE_STATE in a payload (R164). -/
def parseGetRateState (b : List Byte) : GetRateState :=
  { channel := rd 8 b 0, reserved := rd 24 b 1 }

/-- The parameters of CONFIG_PWM_GROUP in a payload (R390). -/
def parseConfigPwmGroup (b : List Byte) : ConfigPwmGroup :=
  { group := rd 8 b 0, source := rd 8 b 1, update := rd 8 b 2, tripState := rd 8 b 3, nC := rd 8 b 4,
    nRef := rd 8 b 5, reserved0 := rd 16 b 6, tDt := rd 32 b 8, tMin := rd 32 b 12, tRf := rd 32 b 16,
    reserved1 := rd 32 b 20 }

/-- The parameters of SET_PWM_DUTY in a payload (R391). -/
def parseSetPwmDuty (b : List Byte) : SetPwmDuty :=
  { group := rd 8 b 0, reserved0 := rd 24 b 1, dU := rd 16 b 4, dV := rd 16 b 6, dW := rd 16 b 8,
    reserved1 := rd 16 b 10 }

/-- The parameters of CLEAR_TRIP in a payload (R383). -/
def parseClearTrip (b : List Byte) : ClearTrip :=
  { groups := rd 8 b 0, reserved := rd 24 b 1 }

/-- The parameters of GET_PWM_STATE in a payload (R393). -/
def parseGetPwmState (b : List Byte) : GetPwmState :=
  { group := rd 8 b 0, reserved := rd 24 b 1 }

/-- The parameters of CONFIG_BRAKE in a payload (R394). -/
def parseConfigBrake (b : List Byte) : ConfigBrake :=
  { brake := rd 8 b 0, joint := rd 8 b 1, fbPol := rd 8 b 2, reserved0 := rd 8 b 3, tPull := rd 16 b 4,
    hold := rd 16 b 6, holdPeriod := rd 32 b 8, tFb := rd 16 b 12, reserved1 := rd 16 b 14 }

/-- The parameters of GET_BRAKE_STATE in a payload (R395). -/
def parseGetBrakeState (b : List Byte) : GetBrakeState :=
  { brake := rd 8 b 0, reserved := rd 24 b 1 }

/-- The parameters of CONFIG_BUS_CHANNEL in a payload (R396). -/
def parseConfigBusChannel (b : List Byte) : ConfigBusChannel :=
  { channel := rd 8 b 0, mode := rd 8 b 1, phyAddr := rd 8 b 2, reserved := rd 8 b 3 }

/-- The parameters of CONFIG_DRIVE_PROFILE in a payload (R405). -/
def parseConfigDriveProfile (b : List Byte) : ConfigDriveProfile :=
  { segment := rd 8 b 0, reserved := rd 24 b 1, tApply := rd 32 b 4, tHold := rd 32 b 8 }

/-- The parameters of DRIVE_PARAM in a payload (R410). -/
def parseDriveParam (b : List Byte) : DriveParam :=
  { channel := rd 8 b 0, slot := rd 8 b 1, op := rd 8 b 2, sub := rd 8 b 3, index := rd 16 b 4, n := rd 16 b 6,
    timeout := rd 32 b 8, data := b.drop 12 }

/-- The parameters of GET_BUS_STATS in a payload (R410). -/
def parseGetBusStats (b : List Byte) : GetBusStats :=
  { channel := rd 8 b 0, clear := rd 8 b 1, reserved := rd 16 b 2 }

/-- The parameters of LOAD_SCHEDULE in a payload (R415). -/
def parseLoadSchedule (b : List Byte) : LoadSchedule :=
  { offset := rd 32 b 0, length := rd 32 b 4, crc := rd 32 b 8, set := rd 8 b 12, reserved := rd 24 b 13 }

/-- The parameters of CONFIG_SYNC in a payload (R435). -/
def parseConfigSync (b : List Byte) : ConfigSync :=
  { set := rd 8 b 0, guard := rd 8 b 1, syncLoss := rd 8 b 2, claim := rd 8 b 3, wAcc := rd 16 b 4,
    oLim := rd 16 b 6, rateLim := rd 16 b 8, reserved0 := rd 16 b 10, reserved1 := rd 32 b 12 }

/-- The parameters of GRANT_SPARE in a payload (R431). -/
def parseGrantSpare (b : List Byte) : GrantSpare :=
  { set := rd 8 b 0, slot := rd 8 b 1, owner := rd 8 b 2, reserved0 := rd 8 b 3, claimId := rd 32 b 4,
    dProp := rd 16 b 8, reserved1 := rd 16 b 10 }

/-- The parameters of RELEASE_SLOT in a payload (R431). -/
def parseReleaseSlot (b : List Byte) : ReleaseSlot :=
  { set := rd 8 b 0, slot := rd 8 b 1, reserved := rd 16 b 2 }

/-- The parameters of GET_SCHEDULE_ENTRY in a payload (R435). -/
def parseGetScheduleEntry (b : List Byte) : GetScheduleEntry :=
  { set := rd 8 b 0, slot := rd 8 b 1, reserved := rd 16 b 2 }

/-- The parameters of GET_SYNC_STATE in a payload (R435). -/
def parseGetSyncState (b : List Byte) : GetSyncState :=
  { set := rd 8 b 0, reserved := rd 24 b 1 }

/-- The parameters of CONFIG_HIERARCHY in a payload (R436). -/
def parseConfigHierarchy (b : List Byte) : ConfigHierarchy :=
  { cell := rd 8 b 0, arb := rd 8 b 1, reserved := rd 16 b 2 }

/-- The parameters of CONFIG_PAIR in a payload (R439). -/
def parseConfigPair (b : List Byte) : ConfigPair :=
  { unit := rd 8 b 0, lanes := rd 8 b 1, connSelf := rd 8 b 2, connArb := rd 8 b 3, reserved := rd 32 b 4 }

/-- The parameters of ARBITRATE_PAIR in a payload (R444). -/
def parseArbitratePair (b : List Byte) : ArbitratePair :=
  { cell := rd 8 b 0, enable := rd 8 b 1, slot := rd 8 b 2, conn := rd 8 b 3, g := rd 32 b 4 }

/-- The parameters of DISSOLVE_PAIR in a payload (R454). -/
def parseDissolvePair (b : List Byte) : DissolvePair :=
  { cell := rd 8 b 0, reserved := rd 24 b 1 }

/-- The parameters of RELEASE_LEASE in a payload (R446). -/
def parseReleaseLease (b : List Byte) : ReleaseLease :=
  { flags := rd 8 b 0, reserved := rd 24 b 1 }

/-- The parameters of SET_EXPORT in a payload (R438). -/
def parseSetExport (b : List Byte) : SetExport :=
  { conn := rd 8 b 0, count := rd 8 b 1, reserved := rd 16 b 2, capsules := rdList 8 b 4 16,
    pose := rdList 32 b 20 7 }

/-- The parameters of CONFIG_SIN_PAIR in a payload (R493). -/
def parseConfigSinPair (b : List Byte) : ConfigSinPair :=
  { pair := rd 8 b 0, function := rd 8 b 1, polarity := rd 8 b 2, nF := rd 8 b 3, tDisc := rd 16 b 4,
    reaction := rd 8 b 6, reserved := rd 8 b 7 }

/-- The parameters of CONFIG_STOPS in a payload (R493). -/
def parseConfigStops (b : List Byte) : ConfigStops :=
  { ss1Mode := rd 8 b 0, reserved := rd 24 b 1, tSs1 := rd 32 b 4, tStopMax := rd 32 b 8, vTol := rd 32 b 12,
    sosVel := rd 32 b 16, sosPos := rd 32 b 20 }

/-- The parameters of CONFIG_SLS in a payload (R493). -/
def parseConfigSls (b : List Byte) : ConfigSls :=
  { always := rd 8 b 0, reaction := rd 8 b 1, reserved := rd 16 b 2, vSls := rdList 32 b 4 128,
    cSls := rdList 32 b 516 16 }

/-- The parameters of CONFIG_STO_EDM in a payload (R493). -/
def parseConfigStoEdm (b : List Byte) : ConfigStoEdm :=
  { tStofb := rd 16 b 0, tTp := rd 16 b 2, edmMask := rd 8 b 4, edmChan := rd 8 b 5, tEdm := rd 16 b 6,
    reserved := rd 64 b 8 }

/-- The parameters of CONFIG_SBC in a payload (R493). -/
def parseConfigSbc (b : List Byte) : ConfigSbc :=
  { brakes := rd 16 b 0, reserved := rd 16 b 2, tBt := rd 16 b 4, tGrace := rd 16 b 6 }

/-- The parameters of CONFIG_SAFETY_CONN in a payload (R493). -/
def parseConfigSafetyConn (b : List Byte) : ConfigSafetyConn :=
  { conn := rd 8 b 0, dir := rd 8 b 1, set := rd 8 b 2, slot := rd 8 b 3, connId := rd 32 b 4, kind := rd 8 b 8,
    loss := rd 8 b 9, reserved := rd 16 b 10, tWd := rd 32 b 12, tValid := rd 32 b 16 }

/-- The parameters of CONFIG_SSM_REACTION in a payload (R493). -/
def parseConfigSsmReaction (b : List Byte) : ConfigSsmReaction :=
  { pan := rd 8 b 0, reaction := rd 8 b 1, restart := rd 8 b 2, reserved := rd 8 b 3 }

/-- The parameters of COMMIT_SET in a payload (R489). -/
def parseCommitSet (b : List Byte) : CommitSet :=
  { check := rd 32 b 0 }

/-- The parameters of LOAD_SET_IMAGE in a payload (R494). -/
def parseLoadSetImage (b : List Byte) : LoadSetImage :=
  { offset := rd 32 b 0, length := rd 32 b 4, crc := rd 32 b 8 }

/-- The parameters of SAVE_SET_IMAGE in a payload (R494). -/
def parseSaveSetImage (b : List Byte) : SaveSetImage :=
  { offset := rd 32 b 0 }

/-- The parameters of BRAKE_TEST in a payload (R478). -/
def parseBrakeTest (b : List Byte) : BrakeTest :=
  { target := rd 8 b 0, index := rd 8 b 1, reserved0 := rd 16 b 2, tauTest := rd 32 b 4, tTest := rd 16 b 8,
    reserved1 := rd 16 b 10, posTol := rd 32 b 12 }

/-- The parameters of GET_CONN_STATE in a payload (R494). -/
def parseGetConnState (b : List Byte) : GetConnState :=
  { conn := rd 8 b 0, reserved := rd 24 b 1 }

/-- The parameters of SET_FAULT_POLICY in a payload (R496). -/
def parseSetFaultPolicy (b : List Byte) : SetFaultPolicy :=
  { class_ := rd 8 b 0, reserved := rd 8 b 1, nP := rd 8 b 2, nL := rd 8 b 3, tDec := rd 32 b 4 }

/-- The parameters of RETIRE_CHANNEL in a payload (R509). -/
def parseRetireChannel (b : List Byte) : RetireChannel :=
  { channel := rd 16 b 0, reserved := rd 16 b 2 }

/-- The parameters of CLEAR_RETIREMENT in a payload (R499). -/
def parseClearRetirement (b : List Byte) : ClearRetirement :=
  { channel := rd 16 b 0, reserved := rd 16 b 2 }

/-- The parameters of GET_CHANNEL_STATE in a payload (R510). -/
def parseGetChannelState (b : List Byte) : GetChannelState :=
  { channel := rd 16 b 0, reserved := rd 16 b 2 }

/-- The parameters of JOURNAL_MARK in a payload (R509). -/
def parseJournalMark (b : List Byte) : JournalMark :=
  { mark := rd 32 b 0 }

/-- The command that an opcode and a payload spell; none where the opcode is not defined (R113, step 6 of R100). -/
def parseCommand (h : Hdr) (op : BitVec 16) (b : List Byte) : Option Instr :=
  match op.toNat with
  | 0x0100 => some (.echo h (parseEcho b))
  | 0x0101 => some (.getNotices h (parseGetNotices b))
  | 0x0102 => some (.setHostWatchdog h (parseSetHostWatchdog b))
  | 0x0110 => some (.setMode h (parseSetMode b))
  | 0x0111 => some (.setWake h (parseSetWake b))
  | 0x0112 => some (.setDomains h (parseSetDomains b))
  | 0x0113 => some (.getPowerState h)
  | 0x0114 => some (.getBootReport h)
  | 0x0115 => some (.getFuses h)
  | 0x0116 => some (.advanceRollback h)
  | 0x0117 => some (.deviceReset h (parseDeviceReset b))
  | 0x0118 => some (.bootImage h (parseBootImage b))
  | 0x0119 => some (.fuseProgram h (parseFuseProgram b))
  | 0x0120 => some (.setTiming h (parseSetTiming b))
  | 0x0121 => some (.setPolicy h (parseSetPolicy b))
  | 0x0122 => some (.maintRead h (parseMaintRead b))
  | 0x0123 => some (.runSelftest h (parseRunSelftest b))
  | 0x0200 => some (.configArm h (parseConfigArm b))
  | 0x0201 => some (.setJointLimits h (parseSetJointLimits b))
  | 0x0202 => some (.setScaling h (parseSetScaling b))
  | 0x0210 => some (.appendJointMove h (parseAppendJointMove b))
  | 0x0211 => some (.appendCartMove h (parseAppendCartMove b))
  | 0x0220 => some (.stopArms h (parseStopArms b))
  | 0x0221 => some (.resumeArms h (parseResumeArms b))
  | 0x0222 => some (.flushQueue h (parseFlushQueue b))
  | 0x0230 => some (.getArmState h (parseGetArmState b))
  | 0x0300 => some (.configJointSlot h (parseConfigJointSlot b))
  | 0x0301 => some (.configArmSlot h (parseConfigArmSlot b))
  | 0x0302 => some (.configCurrentSlot h (parseConfigCurrentSlot b))
  | 0x0303 => some (.setArmTarget h (parseSetArmTarget b))
  | 0x0310 => some (.loadBank h (parseLoadBank b))
  | 0x0311 => some (.loadBankBlock h (parseLoadBankBlock b))
  | 0x0312 => some (.copyBank h)
  | 0x0313 => some (.swapBanks h (parseSwapBanks b))
  | 0x0320 => some (.setSlotMode h (parseSetSlotMode b))
  | 0x0330 => some (.getSlotState h (parseGetSlotState b))
  | 0x0400 => some (.startInjection h (parseStartInjection b))
  | 0x0401 => some (.stopInjection h (parseStopInjection b))
  | 0x0402 => some (.getInjectionState h (parseGetInjectionState b))
  | 0x0410 => some (.setRetuneBounds h (parseSetRetuneBounds b))
  | 0x0500 => some (.defineProblem h (parseDefineProblem b))
  | 0x0501 => some (.removeProblem h (parseRemoveProblem b))
  | 0x0502 => some (.setProblemInput h (parseSetProblemInput b))
  | 0x0510 => some (.getProblemResult h (parseGetProblemResult b))
  | 0x0511 => some (.getProblemDescriptor h (parseGetProblemDescriptor b))
  | 0x0512 => some (.getLaneState h (parseGetLaneState b))
  | 0x0600 => some (.configSeparation h (parseConfigSeparation b))
  | 0x0601 => some (.definePan h (parseDefinePan b))
  | 0x0602 => some (.setParamSet h (parseSetParamSet b))
  | 0x0603 => some (.loadSafetyKinematics h (parseLoadSafetyKinematics b))
  | 0x0604 => some (.loadCapsules h (parseLoadCapsules b))
  | 0x0605 => some (.loadPairs h (parseLoadPairs b))
  | 0x0606 => some (.loadIsland h (parseLoadIsland b))
  | 0x0607 => some (.setObjectSource h (parseSetObjectSource b))
  | 0x0608 => some (.setPanPlanner h (parseSetPanPlanner b))
  | 0x0610 => some (.getPanState h (parseGetPanState b))
  | 0x0611 => some (.getPairResult h (parseGetPairResult b))
  | 0x0612 => some (.getObjectState h (parseGetObjectState b))
  | 0x0700 => some (.configMotionPort h (parseConfigMotionPort b))
  | 0x0701 => some (.configDeck h (parseConfigDeck b))
  | 0x0702 => some (.setVessel h (parseSetVessel b))
  | 0x0703 => some (.defineLoadFrame h (parseDefineLoadFrame b))
  | 0x0704 => some (.setDeckLimits h (parseSetDeckLimits b))
  | 0x0710 => some (.configBallast h (parseConfigBallast b))
  | 0x0711 => some (.setBallastBounds h (parseSetBallastBounds b))
  | 0x0712 => some (.declareLift h (parseDeclareLift b))
  | 0x0713 => some (.closeLift h (parseCloseLift b))
  | 0x0714 => some (.sendBallastRequest h (parseSendBallastRequest b))
  | 0x0720 => some (.getDeckState h)
  | 0x0721 => some (.getHeelState h (parseGetHeelState b))
  | 0x0800 => some (.loadKernel h (parseLoadKernel b))
  | 0x0801 => some (.removeKernel h (parseRemoveKernel b))
  | 0x0802 => some (.runKernel h (parseRunKernel b))
  | 0x0803 => some (.assignVendor h (parseAssignVendor b))
  | 0x0810 => some (.getCoreState h (parseGetCoreState b))
  | 0x0811 => some (.getKernelState h (parseGetKernelState b))
  | 0x0900 => some (.setTrace h (parseSetTrace b))
  | 0x0901 => some (.traceMark h (parseTraceMark b))
  | 0x0910 => some (.getDispatchState h)
  | 0x0911 => some (.getEventEntry h (parseGetEventEntry b))
  | 0x0920 => some (.cancelTask h (parseCancelTask b))
  | 0x0A00 => some (.configChannel h (parseConfigChannel b))
  | 0x0A01 => some (.configCapture h (parseConfigCapture b))
  | 0x0A02 => some (.setTriggers h (parseSetTriggers b))
  | 0x0A10 => some (.arm h)
  | 0x0A11 => some (.disarm h)
  | 0x0A12 => some (.forceTrigger h)
  | 0x0A20 => some (.getCaptureState h)
  | 0x0B00 => some (.configStep h (parseConfigStep b))
  | 0x0B01 => some (.configChopper h (parseConfigChopper b))
  | 0x0B02 => some (.getRateState h (parseGetRateState b))
  | 0x0B40 => some (.configPwmGroup h (parseConfigPwmGroup b))
  | 0x0B41 => some (.setPwmDuty h (parseSetPwmDuty b))
  | 0x0B42 => some (.clearTrip h (parseClearTrip b))
  | 0x0B43 => some (.getPwmState h (parseGetPwmState b))
  | 0x0B50 => some (.configBrake h (parseConfigBrake b))
  | 0x0B51 => some (.getBrakeState h (parseGetBrakeState b))
  | 0x0C00 => some (.configBusChannel h (parseConfigBusChannel b))
  | 0x0C01 => some (.configDriveProfile h (parseConfigDriveProfile b))
  | 0x0C10 => some (.driveParam h (parseDriveParam b))
  | 0x0C20 => some (.getBusStats h (parseGetBusStats b))
  | 0x0C40 => some (.loadSchedule h (parseLoadSchedule b))
  | 0x0C41 => some (.configSync h (parseConfigSync b))
  | 0x0C42 => some (.grantSpare h (parseGrantSpare b))
  | 0x0C43 => some (.releaseSlot h (parseReleaseSlot b))
  | 0x0C50 => some (.getScheduleEntry h (parseGetScheduleEntry b))
  | 0x0C51 => some (.getSyncState h (parseGetSyncState b))
  | 0x0D00 => some (.configHierarchy h (parseConfigHierarchy b))
  | 0x0D01 => some (.configPair h (parseConfigPair b))
  | 0x0D02 => some (.arbitratePair h (parseArbitratePair b))
  | 0x0D03 => some (.dissolvePair h (parseDissolvePair b))
  | 0x0D04 => some (.releaseLease h (parseReleaseLease b))
  | 0x0D05 => some (.setExport h (parseSetExport b))
  | 0x0D10 => some (.getPairState h)
  | 0x0D11 => some (.getHierarchyState h)
  | 0x0E00 => some (.configSinPair h (parseConfigSinPair b))
  | 0x0E01 => some (.configStops h (parseConfigStops b))
  | 0x0E02 => some (.configSls h (parseConfigSls b))
  | 0x0E03 => some (.configStoEdm h (parseConfigStoEdm b))
  | 0x0E04 => some (.configSbc h (parseConfigSbc b))
  | 0x0E05 => some (.configSafetyConn h (parseConfigSafetyConn b))
  | 0x0E06 => some (.configSsmReaction h (parseConfigSsmReaction b))
  | 0x0E10 => some (.getSetCheck h)
  | 0x0E11 => some (.commitSet h (parseCommitSet b))
  | 0x0E12 => some (.discardChanges h)
  | 0x0E13 => some (.loadSetImage h (parseLoadSetImage b))
  | 0x0E14 => some (.saveSetImage h (parseSaveSetImage b))
  | 0x0E20 => some (.brakeTest h (parseBrakeTest b))
  | 0x0E30 => some (.getSafetyState h)
  | 0x0E31 => some (.getConnState h (parseGetConnState b))
  | 0x0F00 => some (.setFaultPolicy h (parseSetFaultPolicy b))
  | 0x0F01 => some (.retireChannel h (parseRetireChannel b))
  | 0x0F02 => some (.clearRetirement h (parseClearRetirement b))
  | 0x0F10 => some (.getChannelState h (parseGetChannelState b))
  | 0x0F11 => some (.getJournalState h)
  | 0x0F12 => some (.journalMark h (parseJournalMark b))
  | _ => none

end Sys2Proof.Machine
end

