-- ==== Sys2Proof/Machine/StepPulses.lean ====
section
/-! DEFINITION. The phase accumulators and the pulse generators of the rate multipliers (spec/07_rate_multiplier_chopper.md, R146,
R148, R152, R153). -/

namespace Sys2Proof.Machine

/-- The quotient rounded up. -/
def ceilDiv (a b : Nat) : Nat := (a + b - 1) / b

/-! ### The accumulator (R146, R148) -/

/-- The phase of a position (R148). -/
def phaseOf (p : Int) (k : Nat) : BitVec 48 := BitVec.ofInt 48 (rneDiv (p * k) 256)

/-- The joint of an enabled rate multiplier, with its scale (R148). -/
def Mult.joint (m : Mult) : Option (Nat × Nat) :=
  match m.step, m.chop with
  | some c, _ => some (c.joint.toNat, c.k.toNat)
  | none, some c => some (c.joint.toNat, c.k.toNat)
  | none, none => none

/-- The direction that a low level of DIR means: that pin is low until a step of the other direction changes it (R152). -/
def Mult.rest (m : Mult) : Bool :=
  match m.step with
  | some c => c.flags.getLsbD 1
  | none => false

/-- F400 ticks between two instants. -/
def ticksIn (lsb : Nat) : Nat := lsb * 25 / 64

/-- The accumulator after the ticks run since the reference tick (R146). -/
def Mult.now (m : Mult) : BitVec 48 := m.a + BitVec.ofInt 48 (m.v * m.ticks)

/-! ### The pulse generator (R152, R153) -/

/-- The oldest request is taken up where nothing forbids it: DIR changes first, and the pulse waits for the set-up and
inactive times. -/
def Stepper.tryStart (g : Stepper) (w tDs : Nat) : Stepper :=
  if g.active ≠ 0 then g
  else
    match g.queue with
    | [] => g
    | r :: q =>
      let g1 := if r = g.dirPos then g else { g with dirPos := r, setup := tDs }
      if g1.setup = 0 ∧ g1.quiet = 0
      then { g1 with queue := q, active := w, emitted := if r then g1.emitted + 1 else g1.emitted - 1 }
      else g1

/-- Ticks pass; the inactive time follows an active part. -/
def Stepper.wait (g : Stepper) (n w : Nat) : Stepper :=
  { g with active := g.active - n
           quiet := if 0 < g.active ∧ g.active ≤ n then w else g.quiet - n
           setup := g.setup - n }

/-- The ticks until the generator's next change; `n` where none comes earlier. -/
def Stepper.next (g : Stepper) (n : Nat) : Nat :=
  [g.active, g.quiet, g.setup].foldl (fun m x => if x = 0 then m else min m x) n

/-- The ticks until the step count next changes (R146); `n` where it does not in that time. -/
def crossing (frac : Nat) (v : Int) (n : Nat) : Nat :=
  if v = 0 then n + 1 else if 0 < v then ceilDiv (4294967296 - frac) v.toNat else frac / v.natAbs + 1

/-- A step channel runs for `n` ticks, from change to change: requests are queued, or dropped where three wait (R153).
Answers the generator and, of each request dropped, the ticks still to run. A request made in the very tick in which the oldest of three
is taken up finds the counter still full (DESIGN CHOICE, log entry 188; R153 does not say). -/
def runSteps (v : Int) (w tDs : Nat) : Nat → Nat → Nat → Stepper → List Nat → Stepper × List Nat
  | 0, _, _, g, drops => (g, drops)
  | fuel + 1, n, frac, g, drops =>
    if n = 0 then (g, drops)
    else
      let c := crossing frac v n
      let k := min n (min c (g.next n))
      let g1 := g.wait k w
      let frac' := ((frac + v * k) % 4294967296).toNat
      let (g2, drops') := if c = k then
          (if 3 ≤ g1.queue.length then (g1, drops ++ [n - k]) else ({ g1 with queue := g1.queue ++ [decide (0 < v)] }, drops))
        else (g1, drops)
      runSteps v w tDs fuel (n - k) frac' (g2.tryStart w tDs) drops'

/-- A multiplier runs for `n` ticks; answers the requests dropped. -/
def Mult.run (m : Mult) (n : Nat) : Mult × List Nat :=
  match m.step with
  | some c =>
    let (g, drops) := runSteps m.v c.w.toNat c.tDs.toNat (4 * (n * m.v.natAbs / 4294967296 + 8)) n
      (m.now.toNat % 4294967296) m.gen []
    ({ m with ticks := m.ticks + n, gen := g, overrun := m.overrun || !drops.isEmpty }, drops)
  | none => ({ m with ticks := m.ticks + n }, [])

/-- A notice of this chapter (R161). -/
def Dev.rateNotice (d : Dev) (t code m : Nat) (coilB : Bool) : Dev :=
  d.notice 7 0 t (BitVec.ofNat 16 (0x0B00 + code)) (BitVec.ofNat 32 (m + 256 * bit coilB)) false

/-- F400 ticks in LSB. -/
def lsbOfTicks (n : Nat) : Nat := n * 64 / 25

/-- A multiplier of the device runs for `n` ticks: each request dropped is posted and counts an event, at the instant of its tick
(R153). -/
def Dev.runMult (d : Dev) (t i n : Nat) : Dev :=
  let (m, drops) := (look d.mults i).run n
  drops.foldl (fun d n => (d.rateNotice (t - lsbOfTicks n) 2 i false).faultEvent 9 i (t - lsbOfTicks n))
    { d with mults := put d.mults i m }

/-- Every enabled multiplier runs on to so many ticks after the reference tick. -/
def Dev.runMults (d : Dev) (t ticks : Nat) : Dev :=
  (List.range 24).foldl (fun d i =>
    if (look d.mults i).joint.isSome then d.runMult t i (ticks - (look d.mults i).ticks) else d) d

end Sys2Proof.Machine
end

