-- ==== Sys2Proof/Machine/UnitImage.lean ====
section
/-! DEFINITION. The configuration of the device as one piece: what the digest of R440 covers, and what DORMANT retains
(spec/20_spine_pairs_leases.md, R440; spec/03_power_clocks_modes.md, R63; the image of a set,
spec/21_safety_functions.md, R486). -/

namespace Sys2Proof.Machine

/-- The canonical image of a set. -/
def SafetySet.image (s : SafetySet) : List Byte :=
  s.flatMap (fun e => leBytes 2 (e.1 / 65536) ++ leBytes 2 e.1 ++ leBytes 2 e.2.length ++ [0, 0] ++ pad4 e.2)

/-- The entries of a table of options that are there. -/
def listed {α : Type} (t : Tab (Option α)) : List (Nat × α) := t.filterMap (fun e => e.2.map (fun v => (e.1, v)))

/-- The configuration that the digest covers (R440). -/
def Dev.unitConfig (d : Dev) : UnitConfig where
  tc := d.time.tc
  nSep := d.time.nSep
  auto := decide (d.time.policy = .autonomous)
  arms := d.arms.filterMap (fun e => e.2.cfg.map (fun c => (e.1, c)))
  limits := d.joints.map (fun e => (e.1, e.2.vmax, e.2.amax, e.2.pmin, e.2.pmax))
  steps := d.mults.filterMap (fun e => e.2.step.map (fun c => (e.1, c)))
  choppers := d.mults.filterMap (fun e => e.2.chop.map (fun c => (e.1, c)))
  joints := d.loop.joints.filterMap (fun e => e.2.cfg.map (fun c => (e.1, c)))
  armSlots := d.loop.arms.filterMap (fun e => e.2.cfg.map (fun c => (e.1, c)))
  currents := d.loop.currents.filterMap (fun e => e.2.cfg.map (fun c => (e.1, c)))
  banks := (if d.loop.activeB then d.loop.bankB else d.loop.bankA).map (fun e => (e.1, e.2.bytes))
  bounds := listed d.tuning.bounds
  problems := d.solver.problems.filterMap (fun e => e.2.map (fun p => (e.1, p.desc)))
  planners := d.sep.planners
  hints := d.sep.hints
  ports := d.deck.ports.map (·.cfg)
  deck := d.deck.cfg
  vessel := d.deck.vessel
  deckLims := listed d.deck.limits
  load := d.deck.loadDef
  ballast := d.deck.ballast
  balance := d.deck.bounds
  kernels := d.sig.kernels.filterMap (fun e => e.2.cfg.map (fun c => (e.1, c)))
  vendor := d.sig.vendor
  decoder := d.sig.decoder
  skims := d.skim.chans.map (fun e => (e.1, e.2.cfg))
  capture := d.skim.cap
  triggers := d.skim.trig
  groups := d.pwm.groups.filterMap (fun e => e.2.cfg.map (fun c => (e.1, c)))
  brakes := d.pwm.brakes.filterMap (fun e => e.2.cfg.map (fun c => (e.1, c)))
  chans := d.bus.chans.map (fun e => (e.1, (match e.2.mode with | .off => 0 | .line => 1 | .phy => 2), e.2.phyAddr))
  sync := d.bus.sets.map (·.cfg)
  entries := d.bus.sets.map (·.entries)
  profiles := listed d.bus.profiles
  pair := d.pair.cfg.map (fun c => (d.pair.cell, c.lanes, c.connSelf, c.connArb))
  policies := d.faults.policies.map (fun e => (e.1, e.2.nP, e.2.nL, e.2.tDec))

/-- The bytes of the configuration with the committed safety set. -/
def Dev.configImage (d : Dev) : List Byte := Config.unitImage d.unitConfig ++ d.safety.committed.image

/-- Bytes with some of them put at other values, by position. -/
def flipBytes (b : List Byte) (f : List (Nat × Byte)) : List Byte := f.foldl (fun b e => b.set e.1 e.2) b

/-- The resume check (R63): the digests of the retained image and configuration, recomputed over what comes back from RETAIN,
are those recorded. -/
def Dev.retainedOk (d : Dev) (f : List (Nat × Byte)) : Bool :=
  let b := flipBytes (d.boot.retImage ++ d.boot.retConfig) f
  decide (Config.sha256 (b.take d.boot.retImage.length) = d.boot.retained)
    && decide (Config.sha256 (b.drop d.boot.retImage.length) = d.boot.retDigest)

end Sys2Proof.Machine
end

