-- ==== Sys2Proof/Machine/Modes.lean ====
section
/-! DEFINITION. The modes (spec/03_power_clocks_modes.md): the conditions of R59 for a commanded transition, what every
unit does when a mode is entered, and the reactions that change the mode: safe torque off, safe stops and loss of the
lease (R59 to R63, R134, R154, R160, R187, R204, R235, R280, R303, R347, R369, R387, R468 to R475, R491). -/

namespace Sys2Proof.Machine

/-! ### The committed safety parameter set -/

/-- Whether an item stands in the committed set (R486). -/
def Dev.hasItem (d : Dev) (op key : Nat) : Bool := d.safety.committed.any (fun e => e.1 = op * 65536 + key)

/-- The bytes of an item of the committed set. -/
def Dev.item (d : Dev) (op key : Nat) : List Byte := look d.safety.committed (op * 65536 + key)

/-- CONFIG_STOPS as committed. -/
def Dev.stops (d : Dev) : Option ConfigStops :=
  if d.hasItem 0x0E01 0 then some (parseConfigStops (d.item 0x0E01 0)) else none

/-- CONFIG_SLS as committed. -/
def Dev.sls (d : Dev) : Option ConfigSls :=
  if d.hasItem 0x0E02 0 then some (parseConfigSls (d.item 0x0E02 0)) else none

/-- CONFIG_STO_EDM as committed. -/
def Dev.stoEdm (d : Dev) : Option ConfigStoEdm :=
  if d.hasItem 0x0E03 0 then some (parseConfigStoEdm (d.item 0x0E03 0)) else none

/-- CONFIG_SBC as committed. -/
def Dev.sbc (d : Dev) : Option ConfigSbc :=
  if d.hasItem 0x0E04 0 then some (parseConfigSbc (d.item 0x0E04 0)) else none

/-- CONFIG_SIN_PAIR as committed; a pair without an item has function 0. -/
def Dev.sinPair (d : Dev) (p : Nat) : ConfigSinPair := parseConfigSinPair (d.item 0x0E00 p)

/-- CONFIG_SAFETY_CONN as committed, or as accepted in the ARBITER role; dir 0 where there is none. -/
def Dev.conn (d : Dev) (c : Nat) : ConfigSafetyConn := parseConfigSafetyConn (d.item 0x0E05 c)

/-- CONFIG_SSM_REACTION as committed. -/
def Dev.ssm (d : Dev) (pan : Nat) : ConfigSsmReaction := parseConfigSsmReaction (d.item 0x0E06 pan)

/-- A pan with an active stop request whose reaction stops its arms names an arm of a mask (R473). -/
def Dev.ssmHolds (d : Dev) (arms : BitVec 16) : Bool :=
  d.safety.pans.any (fun e => e.2.req != 0 && (d.ssm e.1).reaction == 3
    && (parseDefinePan (d.item 0x0601 e.1)).arms &&& arms != 0)

/-! ### Arms and joints -/

/-- The configured arms. -/
def Dev.armList (d : Dev) : List Nat := (List.range 16).filter (fun a => (look d.arms a).cfg.isSome)

/-- The global joints of an arm (R116). -/
def Arm.joints (a : Arm) : List Nat :=
  match a.cfg with
  | some c => (List.range c.joints.toNat).map (fun j => c.first.toNat + j)
  | none => []

/-- The arm of a global joint. -/
def Dev.armOf (d : Dev) (j : Nat) : Option Nat := d.armList.find? (fun a => j ∈ (look d.arms a).joints)

/-- Every configured arm changed by a function. -/
def Dev.mapArms (d : Dev) (f : Nat → Arm → Arm) : Dev :=
  { d with arms := d.armList.foldl (fun t a => put t a (f a (look t a))) d.arms }

/-- An arm is at standstill (R471): every joint has |v| ≤ sos_vel by its SAFE_POS data. A joint of which no container
has come counts by the sequencer: its arm is IDLE, PAUSED or STOPPED. -/
def Dev.armStill (d : Dev) (a : Nat) : Bool :=
  let arm := look d.arms a
  let lim : Int := match d.stops with
    | some c => c.sosVel.toInt
    | none => 0
  arm.joints.all (fun j =>
    let sj := look d.safety.joints j
    if sj.known then sj.valid && decide ((sj.vel.natAbs : Int) ≤ lim)
    else decide (arm.phase = .idle) || decide (arm.phase = .paused) || decide (arm.phase = .stopped))

/-- Every configured arm is at standstill. -/
def Dev.allStill (d : Dev) : Bool := d.armList.all d.armStill

/-! ### Seal, inputs and stop requests as R59 asks for them -/

/-- The seal check (R488); in the ARBITER role SEAL is not evaluated. -/
def Dev.sealOk (d : Dev) : Bool :=
  d.isArbiter ||
    (d.safety.valid && decide (d.safety.sealPins.toNat % 16 = d.safety.index.toNat) && !d.safety.sealPins.getLsbD 7
      && (!d.fuse 824 || decide (d.safety.sealPins.toNat / 16 % 8 = d.safety.code.toNat)))

/-- Channel a of a SIN pair reads healthy (R462). -/
def Dev.sinA (d : Dev) (p : Nat) : Bool := d.safety.sin.getLsbD (2 * p)

/-- Channel b of a SIN pair reads healthy: its pin is 1 for an equivalent pair, 0 for an antivalent one. -/
def Dev.sinB (d : Dev) (p : Nat) : Bool := d.safety.sin.getLsbD (2 * p + 1) != decide ((d.sinPair p).polarity = 1)

/-- A configured pair is in demand while either channel reads demand (R462). -/
def Dev.pairDemand (d : Dev) (p : Nat) : Bool :=
  decide ((d.sinPair p).function ≠ 0) && !(d.sinA p && d.sinB p)

/-- Some pair of a function is in demand. -/
def Dev.functionDemand (d : Dev) (f : Nat) : Bool :=
  (List.range 8).any (fun p => decide ((d.sinPair p).function.toNat = f) && d.pairDemand p)

/-- A safety stop request is active (R59): a stop pair in demand, a safe stop 1 in progress, a lost connection whose
reaction is a stop, a pan's request that stops the device, or a brake that was late to release. -/
def Dev.stopActive (d : Dev) : Bool :=
  d.functionDemand 1 || d.functionDemand 2 || d.safety.ss1.isSome || d.latchedTrig 0x17
    || d.safety.pans.any (fun e => decide (e.2.req ≠ 0) && decide ((d.ssm e.1).reaction = 2))
    || decide (d.safety.brakeRel ≠ 0) || d.safety.conns.any (fun e => decide (e.2.stop ≠ 0))

/-- Both STO feedbacks confirm torque off: they read 0. -/
def Dev.torqueOff (d : Dev) : Bool := !d.safety.stoFbA && !d.safety.stoFbB

/-- Every monitored contactor reads open (R465). -/
def Dev.edmOpen (d : Dev) : Bool :=
  match d.stoEdm with
  | some c => decide (c.edmMask &&& ~~~d.safety.edmIn = 0)
  | none => true

/-- The triggers that clear at acknowledgement (R467), as a mask: BIST, BANK, FEEDBACK, CURRENT, COMMAND, TEST_PULSE,
SLS, SOS, ENVELOPE, SSM, CROSS, and BRAKE where no late release keeps it. -/
def Dev.ackMask (d : Dev) : BitVec 32 :=
  let m : BitVec 32 := BitVec.ofNat 32 ([0x04, 0x05, 0x06, 0x07, 0x08, 0x12, 0x13, 0x14, 0x15, 0x16, 0x19].foldl
    (fun acc i => acc + 2 ^ i) 0)
  if d.safety.brakeRel = 0 then setBit m 0x18 true else m

/-- A loop slot's record is complete in a bank for R178. -/
def BankRec.completeFor (r : BankRec) (cfgStamp : Nat) : Bool :=
  match r.stamp with
  | some t => decide (cfgStamp ≤ t)
  | none => false

/-- The configured slots with a law, as (kind * 256 + index, stamp of the last CONFIG command). -/
def Loop.slotKeys (l : Loop) : List (Nat × Nat) :=
  (l.joints.filterMap (fun e => match e.2.cfg with
    | some c => if c.kind = 0 ∨ c.kind = 1 then none else some (e.1, e.2.cfgStamp)
    | none => none))
  ++ (l.arms.filterMap (fun e => match e.2.cfg with
    | some c => if c.law = 0 then none else some (256 + e.1, e.2.cfgStamp)
    | none => none))
  ++ (l.currents.filterMap (fun e => if e.2.cfg.isSome then some (512 + e.1, e.2.cfgStamp) else none))

/-- Every configured slot's record is complete in a bank (R178). -/
def Loop.complete (l : Loop) (b : Bool) : Bool :=
  l.slotKeys.all (fun e => (look (if b then l.bankB else l.bankA) e.1).completeFor e.2)

/-- The loop slots as configured once every accepted CONFIG command has taken effect (R178). -/
def Dev.loopView (d : Dev) : Loop :=
  d.waiting.foldl (fun l w => match w.cmd with
    | .configJointSlot _ p => { l with joints := upd l.joints p.joint.toNat (fun s => { s with cfg := some p }) }
    | .configArmSlot _ p => { l with arms := upd l.arms p.arm.toNat (fun s => { s with cfg := some p }) }
    | .configCurrentSlot _ p => { l with currents := upd l.currents p.group.toNat (fun s =>
        { s with cfg := if p.joint = 0xFF then none else some p }) }
    | _ => l) d.loop

/-- A slot's record in the active bank. -/
def Loop.active (l : Loop) (key : Nat) : BankRec := look (if l.activeB then l.bankB else l.bankA) key

/-- A brake bars RUN: it failed a test or was late to apply (R477), or its test is overdue by t_grace (R478). -/
def Dev.brakeBarsRun (d : Dev) : Bool :=
  decide (d.safety.needTest ≠ 0) || !d.safety.needNode.isEmpty ||
    match d.sbc with
    | some c => (List.range 16).any (fun b => c.brakes.getLsbD b &&
        decide (look d.safety.lastPass b + (c.tBt.toNat + c.tGrace.toNat) * 3686400000000 < d.time.ct))
    | none => false

/-! ### Judging SET_MODE (R59) -/

/-- The first failing condition of a list, each with its status. -/
def firstFail : List (Bool × Status) → Option Status
  | [] => none
  | (ok, st) :: t => if ok then firstFail t else some st

/-- Every arm that the committed set describes is configured with the joints and kinds of its safety kinematics (R261). -/
def Dev.kinematicsMatch (d : Dev) : Bool :=
  (List.range 16).all (fun a =>
    let b := d.item 0x0603 a
    b.isEmpty || (match (look d.arms a).cfg with
      | some c => rd 8 b 1 == c.joints && rd 16 b 2 == c.kinds
      | none => true))

/-- The conditions of a transition from one mode to another by command, in the order of the table of R59; none of the
rows: MODE. -/
def Dev.judgeMode (d : Dev) (frm dst : Mode) : Option Status :=
  let l := d.loopView
  let full := l.complete l.activeB
  let still := d.allStill
  let noSleep := d.holdsLease || (d.isManager && d.pair.workers.any (fun e => e.2.joined))
    || (d.time.valid && d.pair.cells.any (fun e => e.2.holder.isSome && decide (d.time.ct < e.2.x)))
  let entry := [(d.safety.valid && d.kinematicsMatch, Status.mode), (d.torqueOff, .mode), (d.edmOpen, .mode), (full, .mode),
    (dst ≠ .run || !d.brakeBarsRun, .mode), (!d.inPair || d.holdsLease, .lease)]
  match frm, dst with
  | .ready, .run => firstFail entry
  | .ready, .hold => firstFail entry
  | .ready, .shadow => firstFail [(d.inPair, .mode)]
  | .ready, .dormant => firstFail [(!noSleep, .mode)]
  | .run, .hold => none
  | .tune, .hold => none
  | .hold, .run => firstFail [(d.kinematicsMatch, .mode), (still, .mode), (!d.stopActive, .mode), (full, .mode), (!d.brakeBarsRun, .mode)]
  | .hold, .tune => firstFail [(still, .mode), (!d.functionDemand 3, .mode), (full, .mode), (!d.fuse 808, .fused)]
  | .hold, .ready => firstFail [(still, .mode)]
  | .run, .safeOff => none
  | .hold, .safeOff => none
  | .tune, .safeOff => none
  | .ready, .safeOff => none
  | .shadow, .safeOff => none
  | .commission, .safeOff => none
  | .shadow, .ready => firstFail [(d.pair.dissolved, .lease)]
  | .safeOff, .ready => firstFail [(!d.latchedTrig 0x02 && (d.safety.valid || d.isArbiter), .mode), (d.sealOk, .sealed),
      (decide (d.safety.latched &&& ~~~d.ackMask = 0), .mode), (d.torqueOff, .mode)]
  | .safeOff, .commission => firstFail [(d.safety.sealPins.getLsbD 7, .sealed), (!d.fuse 809, .fused)]
  | .safeOff, .dormant => firstFail [(!noSleep, .mode)]
  | .commission, .ready => firstFail [(decide (d.safety.candidate = d.safety.committed), .unconfirmed),
      (d.sealOk, .sealed)]
  | _, _ => some .mode

/-! ### STO, brakes and arms -/

/-- An STO output takes a level at an instant. -/
def Dev.setSto (d : Dev) (t : Nat) (a b : Bool) : Dev :=
  let s := d.safety
  { d with safety := { s with
      stoA := a, stoB := b, stoAAt := if s.stoA = a then s.stoAAt else t, stoBAt := if s.stoB = b then s.stoBAt else t } }

/-- Every brake is commanded to apply, by the boundary step or by AON's drop path (R385, R475). -/
def Dev.applyBrakes (d : Dev) (t : Nat) (dropped : Bool) : Dev :=
  { d with
    safety := { d.safety with released := false }
    pwm := { d.pwm with brakes := mapTab (fun _ b =>
      if b.cfg.isNone ∨ (b.phase = .applied ∧ !b.cmdRel) then b
      else { b with phase := .applied, since := t, cmdRel := false, cmdAt := t, late := false,
                    dropped := dropped || b.dropped }) d.pwm.brakes } }

/-- The largest t_a among running moves, and the steps of a stop (R133). -/
def Arm.stopSteps (a : Arm) (tc : Nat) : Nat :=
  let tr := a.runs.foldl (fun m r => max m r.ta) 0
  max 1 ((tr + tc - 1) / tc)

/-- A stop takes effect on an arm (R132, R133); an arm that is stopping or STOPPED is unchanged (R142). -/
def Arm.beginStop (a : Arm) (tc : Nat) (reason : BitVec 8) (byHold : Bool) : Arm :=
  if a.phase = .stopping ∨ a.phase = .stopped then a
  else { a with phase := .stopping, reason := reason, byHold := byHold,
                stopSeq := some { s0 := a.s, n := a.stopSteps tc, i := 0 } }

/-- The state of an arm that may move again: MOVING with a running move, else IDLE (R134). A stop staged for a later boundary
stays. After a joint-space stop the
running move is abandoned. -/
def Arm.resume (a : Arm) : Arm :=
  if a.phase ≠ .stopping ∧ a.phase ≠ .stopped then a
  else
    let runs := if a.jstop then [] else a.runs
    { a with phase := if runs.isEmpty then .idle else .moving, runs := runs, stopSeq := none, byHold := false,
             jstop := false, sl := a.s, lastCart := if a.jstop then none else a.lastCart }

/-- A move command, for the lapse of R134. -/
def isQueueCmd : Instr → Bool
  | .appendJointMove _ _ => true
  | .appendCartMove _ _ => true
  | .stopArms _ _ => true
  | .resumeArms _ _ => true
  | .flushQueue _ _ => true
  | _ => false

/-- The sequencer at the entry of a mode (R131, R132, R134); `e` is the boundary at which a HOLD entry stops the arms, which keeps
a stop that was staged before it. Moves that have reached their end are still retired at the next boundary (R120). -/
def Dev.enterArms (d : Dev) (t e : Nat) (frm dst : Mode) (trig : BitVec 8) : Dev :=
  match dst with
  | .safeOff =>
    { d.mapArms (fun _ a => { a with queue := [], runs := [], phase := .idle, stopSeq := none,
                                     stopNext := none, jstop := false, byHold := false, lastCart := none,
                                     sl := a.s }) with
      waiting := d.waiting.filter (fun w => !isQueueCmd w.cmd) }
  | .dormant =>
    { d.mapArms (fun _ a => { a with queue := [], runs := [], done := [], phase := .idle, stopSeq := none,
                                     stopNext := none, jstop := false, byHold := false, lastCart := none, s := 0x8000,
                                     sl := 0x8000 })
      with waiting := d.waiting.filter (fun w => !isQueueCmd w.cmd) }
  | .ready =>
    d.mapArms (fun _ a =>
      if a.byHold ∨ (a.phase ≠ .stopped ∧ a.phase ≠ .stopping)
      then { a with runs := [], phase := .idle, stopSeq := none, stopNext := none, jstop := false, byHold := false,
                    sl := a.s, lastCart := none }
      else { a with runs := [], phase := if a.stopSeq.isSome then a.phase else .stopped, stopNext := none, jstop := false,
                    lastCart := none })
  | .hold =>
    if trig = 0 then d.mapArms (fun _ a => a.beginStop d.time.tc 1 true)
    else d.mapArms (fun _ a =>
      if e = t then a.beginStop d.time.tc 3 true
      else match a.stopNext with
        | some _ => a
        | none => { a with stopNext := some (e, 3, t), byHold := a.byHold || (a.phase != .stopping && a.phase != .stopped) })
  | .run => if frm = .hold then d.mapArms (fun _ a => if a.byHold then a.resume else a) else d
  | _ => d

/-! ### What the other units do at a mode entry -/

/-- Every consumed connection enters STARTING at an instant (R485). -/
def Dev.startConns (d : Dev) (t : Nat) : Dev :=
  (List.range 64).foldl (fun d c =>
    if (d.conn c).dir = 1 then
      d.onSafety (fun s => { s with conns := upd s.conns c (fun x =>
        { x with state := .starting, lastRx := t, good := 0, stop := 0, stopPan := none }) })
    else d) d

/-- STO, permit, watched stops and SOS at a mode entry (R461, R471, R475). Standstill monitoring goes on for an arm that a pan holds
through HOLD to RUN, which does not permit it to move (R473); it ends with the entry to TUNE (log entry 204). -/
def Dev.enterSafety (d : Dev) (t e : Nat) (frm dst : Mode) : Dev :=
  let d := (if frm = .dormant then d.startConns t else d).setSto t dst.torque dst.torque
  let s := d.safety
  let held := fun (a : Arm) => !a.byHold && decide (a.reason = 3) && (decide (a.phase = .stopping) || decide (a.phase = .stopped))
  let watch : Tab Watch :=
    if dst = .hold then d.armList.foldl (fun w a => upd w a (fun x => { x with e := some e, still := false })) s.watch
    else if dst = .run ∧ frm = .hold then s.watch.filter (fun w => held (look d.arms w.1))
    else []
  { d with safety := { s with
      watch := watch
      ss1 := if dst = .hold then s.ss1 else none
      permit := if dst.torque then (if frm.torque then s.permit else some (d.boundaryAfter (d.boundaryAfter t)))
        else none
      pans := if dst = .dormant then [] else s.pans
      candidate := if frm = .commission ∧ dst = .safeOff then s.committed else s.candidate } }

/-- A multiplier is loaded with the phase of its joint's commanded position, and its word with 0 (R151). -/
def Dev.loadMult (d : Dev) (m : Mult) : Mult :=
  match m.joint with
  | some (j, k) => { m with a := phaseOf (look d.joints j).cmd k, v := 0, target := none, sat := false, loaded := true }
  | none => m

/-- A multiplier stops after the ticks that it has run: A holds, V is 0, and STEP and DIR are low (R154). -/
def Mult.halt (m : Mult) : Mult :=
  { m with a := m.now, v := 0, target := none, sat := false, gen := { emitted := m.gen.emitted, dirPos := m.rest } }

/-- The gates of a coil are low; its reference stays (R157, R160). -/
def CoilState.quiet (c : CoilState) : CoilState := { short := c.short, ref := c.ref }

/-- Rate multipliers and choppers at a mode entry (R151, R153, R154, R160): the ticks up to it have run. -/
def Dev.enterRates (d0 : Dev) (t : Nat) (frm dst : Mode) : Dev :=
  let d := if frm.torque then d0.runMults t (ticksIn (t - d0.bk)) else d0
  if dst.torque then { d with mults := mapTab (fun _ m => d.loadMult m) d.mults }
  else { d with
    mults := mapTab (fun _ m => m.halt) d.mults
    chops := mapTab (fun _ c => { c with coilA := c.coilA.quiet, coilB := c.coilB.quiet }) d.chops }

/-- The joint follows a rate multiplier: it has no feedback of its own (R151). -/
def Dev.multJoint (d : Dev) (j : Nat) : Bool := d.mults.any (fun e => decide (e.2.joint.map (·.1) = some j))

/-- The loop slots at a mode entry (R181, R183, R187): slots that leave TRACK, or MANUAL on entry to HOLD, are preset
in their first AUTO sample; in DORMANT the states are lost. -/
def Dev.enterLoop (d : Dev) (frm dst : Mode) : Dev :=
  let l := d.loop
  if dst = .dormant then
    { d with loop := { l with
      swap := none, sd := [], sdBad := 0
      joints := mapTab (fun _ s => { (default : JointSlot) with cfg := s.cfg, cfgStamp := s.cfgStamp }) l.joints
      arms := mapTab (fun _ s => { (default : ArmSlot) with cfg := s.cfg, cfgStamp := s.cfgStamp }) l.arms
      currents := mapTab (fun _ s => { (default : CurrentSlot) with cfg := s.cfg, cfgStamp := s.cfgStamp })
        l.currents } }
  else if dst.torque ∧ !frm.torque then
    d.onLoop (fun l => { l with
      joints := mapTab (fun _ s => { s with preset := true, manual := s.manual && decide (dst ≠ .hold) }) l.joints
      arms := mapTab (fun _ s => { s with preset := true }) l.arms })
  else if dst = .hold then
    { d with loop := { l with joints := mapTab (fun _ s =>
      if s.manual then { s with manual := false, preset := true } else s) l.joints } }
  else d

/-- arg of the notices of class 0x04: slot, kind and injection id (R209). -/
def injArg (key : Nat) (id : BitVec 16) : BitVec 32 := BitVec.ofNat 32 (key % 1024 + id.toNat * 65536)

/-- An injection ends: its status and notice, its channels are free again, and after an OPEN one the integrator is
preset (R200, R203 to R205, R209, R368). -/
def Dev.endInjection (d : Dev) (t key : Nat) (phase : InjPhase) (code : Nat) : Dev :=
  let x := look d.tuning.inj key
  let chans := [x.p.cInj, x.p.cOut, x.p.cFb].filter (· ≠ 0xFF)
  let preset := x.p.flags.getLsbD 0 && decide (x.phase = .running)
  let d1 := d.onTuning (fun u => { u with inj := put u.inj key { x with phase := phase } })
  let free := fun (m : Tab SkimChan) (c : BitVec 8) => upd m c.toNat (fun y => { y with bound := none, level := none, raw := none })
  let d2 := if x.phase = .running then d1.onSkim (fun k => { k with chans := chans.foldl free k.chans }) else d1
  let d3 := if preset then d2.onLoop (fun l => { l with joints := upd l.joints key (fun s => { s with preset := true }) })
    else d2
  d3.notice 5 0 t (BitVec.ofNat 16 (0x0400 + code)) (injArg key x.p.id) false

/-- The slots whose injections have a status, lowest first. -/
def Dev.injections (d : Dev) (p : InjPhase) : List Nat :=
  (d.tuning.inj.filter (fun e => decide (e.2.phase = p))).map Prod.fst

/-- Injections end when TUNE is left (R204). -/
def Dev.enterTuning (d : Dev) (t : Nat) (frm dst : Mode) : Dev :=
  if frm = .tune ∧ dst ≠ .tune then
    (d.injections .pending ++ d.injections .running).foldl (fun d k => d.endInjection t k .cancelled 3) d
  else if dst = .tune then
    { d with tuning := { d.tuning with hold := d.armList.foldl (fun h a => (look d.arms a).joints.foldl
      (fun h j => put h j (look d.joints j).cmd) h) [] } }
  else d

/-- The solver array at a mode entry (R235): no run in SHADOW or DORMANT, and no valid solution after DORMANT. -/
def Dev.enterSolver (d : Dev) (dst : Mode) : Dev :=
  if dst = .shadow ∨ dst = .dormant then
    { d with solver := { d.solver with
      problems := mapTab (fun _ p => p.map (fun q =>
        { q with run := none, res := if dst = .dormant then default else q.res })) d.solver.problems
      lanes := mapTab (fun _ l => if dst = .dormant then { runs := l.runs, events := l.events } else { l with running := none })
        d.solver.lanes } }
  else d

/-- The separation engine at a mode entry (R280): a pass in progress ends, and DORMANT loses its memory. -/
def Dev.enterSep (d : Dev) (dst : Mode) : Dev :=
  if dst = .dormant then
    { d with sep := { isl := d.sep.isl, islCheck := d.sep.islCheck, planners := d.sep.planners, hints := d.sep.hints } }
  else if dst = .shadow then { d with sep := { d.sep with pass := { d.sep.pass with running := false } } }
  else if dst = .safeOff then { d with sep := { d.sep with hintsNext := [] } }
  else d

/-- What fusion and prediction have gathered is lost, and their windows begin anew (R289, R303). -/
def Deck.restart (k : Deck) : Deck :=
  { k with started := none, est := {}, fused := [], heaveV := 0, vals := [], valAt := 0, preds := [], model := none,
           means := [], moments := [], fHist := [] }

/-- Lifts and fusion at a mode entry (R303): what has not left by then is not sent in TUNE, SAFE-OFF, SHADOW or DORMANT; in DORMANT the ports let go of their sensors (R38). -/
def Dev.enterDeck (d : Dev) (dst : Mode) : Dev :=
  let k := d.deck
  if dst = .dormant then { d with deck := { k.restart with
    lifts := [], toSend := none, hostSend := none, ports := k.ports.map (fun p => { p with reading := false, rate := [], used := true }) } }
  else if dst = .safeOff then { d with deck := { k with lifts := [], toSend := none, hostSend := none } }
  else if dst = .tune ∨ dst = .shadow then { d with deck := { k with toSend := none, hostSend := none } }
  else d

/-- The dispatch unit at a mode entry (R347): the tasks of suspended entries are cancelled; in DORMANT the table and
the trace are lost. -/
def Dev.enterDisp (d : Dev) (t : Nat) (dst : Mode) : Dev :=
  match dst with
  | .dormant => { d with disp := {} }
  | _ => d.suspendTasks t

/-- The skimmer at a mode entry (R369). -/
def Dev.enterSkim (d : Dev) (dst : Mode) : Dev :=
  if dst = .dormant then { d with skim := { chans := d.skim.chans, cap := d.skim.cap, trig := d.skim.trig, pulled := d.skim.pulled } }
  else d

/-- The signal cores at a mode entry (R327, R347): no user kernel runs or waits in SHADOW or DORMANT, and SIG is off in
DORMANT. -/
def Dev.enterSig (d : Dev) (dst : Mode) : Dev :=
  let idle := mapTab (fun _ k => { k with running := false, pending := false }) d.sig.kernels
  if dst = .dormant then { d with sig := { d.sig with cores := [], kernels := idle } }
  else if dst = .shadow then { d with sig := { d.sig with kernels := idle } }
  else d

/-- The low gates of a group. -/
def lowGates : BitVec 6 := 0b101010

/-- A group's gates start from the all-off state (R379, R381): the refresh counts start at n_ref, and the gates follow the
phases unless a trip latch holds them. -/
def PwmGroup.start (g : PwmGroup) (retired : Bool) : PwmGroup :=
  match g.cfg with
  | some c =>
    { g with
      phases := g.phases.map (fun p => { p with count := c.nRef.toNat, high := false }), driven := !g.trip && !retired,
      edges := []
      gates := if g.trip ∧ c.tripState = 1 ∧ !retired then lowGates else 0 }
  | none => g

/-- The staged duty words of a group come into force at an instant (R380): those of its current slot, or the last DIRECT words that
may latch by then. -/
def PwmGroup.latch (g : PwmGroup) (t : Nat) : PwmGroup :=
  match g.cfg with
  | none => g
  | some c =>
    if c.source = 2 then { g with phases := g.phases.map (fun p => match p.next with
      | some w => { p with d := w, next := none }
      | none => p) }
    else match (g.waits.filter (fun w => decide (w.1 ≤ t))).getLast? with
      | none => g
      | some w => { g with
          phases := g.phases.mapIdx (fun i p => { p with d := w.2.getD i 0 }), waits := g.waits.filter (fun w => decide (t < w.1)) }

/-- DIRECT words that READY stored latch on entry to RUN (R391). -/
def PwmGroup.latchStored (g : PwmGroup) : PwmGroup :=
  match g.cfg, g.waits.getLast? with
  | some c, some w => if c.source = 1 then g.latch w.1 else g
  | _, _ => g

/-- The gates at a mode entry (R387): low outside RUN, HOLD and TUNE. -/
def Dev.enterPwm (d : Dev) (frm dst : Mode) : Dev :=
  if dst.torque then
    if frm.torque then d
    else d.onPwm (fun p => { p with groups := mapTab (fun i g => g.latchStored.start (d.isRetired 6 i)) p.groups })
  else d.onPwm (fun p => { p with groups := mapTab (fun _ g => { g with driven := false, edges := [], gates := 0 }) p.groups })

/-- A channel set takes a state at an instant (R426). -/
def BusSet.enter (s : BusSet) (t : Nat) (st : SetState) : BusSet :=
  { s with state := st, since := t, cycles := 0, clean := 0, misses := if st = .passive then s.misses else 0,
           backoff := none }

/-- The record of a granted slot that reverts; the spec gives the record no code, which is free. -/
def Dev.journalRevert (d : Dev) (t set slot : Nat) : Dev :=
  (d.draw 1).journal 8 (2 * set) t (Config.freeWord d.fresh 16) (leBytes 4 (set + 256 * slot) ++ [0, 0, 0, 0])

/-- Every granted slot of these sets reverts, each with its record (R431). -/
def Dev.journalReverts (d : Dev) (t : Nat) (sets : List BusSet) : Dev :=
  sets.zipIdx.foldl (fun d e => e.1.granted.foldl (fun d g => d.journalRevert t e.2 g.1) d) d

/-- Granted slots revert to spare (R431). -/
def BusSet.revert (s : BusSet) : BusSet :=
  { s with entries := s.granted.foldl (fun es e => put es e.1 e.2) s.entries, granted := [], grants := [], claims := [] }

/-- The channel sets at a mode entry (R432): they go OFF in DORMANT and start in LISTEN after it. -/
def Dev.enterBus (d : Dev) (t : Nat) (frm dst : Mode) : Dev :=
  if dst = .dormant then
    let d := d.journalReverts t d.bus.sets
    { d with bus := { d.bus with sets := d.bus.sets.map (fun s => s.revert.enter t .off), sent := [], params := [] } }
  else if frm = .dormant then
    { d with bus := { d.bus with sets := d.bus.sets.mapIdx (fun i s =>
      if s.invalid ∨ [2 * i, 2 * i + 1].all (fun c => (look d.bus.chans c).mode = .off || d.isRetired 1 c) then s
      else s.enter t .listen) } }
  else d

/-- The sampled HOSTSEL strap: 0 PCIe, 1 QSPI (R43). -/
def Dev.hostSel (d : Dev) : Nat := d.boot.straps.toNat / 16 % 4

/-- The host link is brought up again (R87): over QSPI transactions may start 100 µs later; how long PCIe trains is free. -/
def Dev.bringUpLink (d : Dev) (t : Nat) : Dev :=
  if d.hostSel = 1 then d.onHost (fun h => { h with linkAt := t + 102400 })
  else (d.draw 1).onHost (fun h => { h with linkAt := t + Config.freeNat d.fresh })

/-- The host interface at a mode entry: in DORMANT the slots are freed and the watchdog is suspended (R103, R106), and the
registers of the HOST domain take their reset values, but HEALTH, which reports of the device what DORMANT does not change
(DESIGN CHOICE, log entry 177). -/
def Dev.enterHost (d : Dev) (dst : Mode) : Dev :=
  if dst = .dormant then
    { d with host := { d.host with
      slots := [], wd := { d.host.wd with deadline := none }, linkAt := 0, irqEn := 0, irqSticky := 0, ctLatch := 0, dpOffset := 0, dpSpace := 0, dpInc := false, dpErr := 0,
      msiOn := false } }
  else d

/-- PTIM goes OFF (R47, R48): the rate multipliers, choppers and PWM groups lose their state; the firmware keeps their
configuration, and AON the trip latches and the brakes. -/
def Dev.losePtim (d : Dev) : Dev :=
  { d with
    mults := mapTab (fun _ m => { step := m.step, chop := m.chop }) d.mults
    chops := mapTab (fun _ c => { latched := c.latched }) d.chops
    pwm := { d.pwm with groups := mapTab (fun _ g =>
      { cfg := g.cfg, trip := g.trip, tripAt := g.tripAt, tripUntil := g.tripUntil, clearAt := g.clearAt }) d.pwm.groups } }

/-- The domains at a mode entry (R63): in DORMANT only AON runs, and the memories retain. -/
def Dev.enterDomains (d : Dev) (frm dst : Mode) : Dev :=
  let on := (List.range 14).map (fun i =>
    if d.power.offMask.getLsbD i ∨ (i = 13 ∧ d.isRetired 0x0A 0) then DomState.off else .running)
  let sleep := (List.range 14).map (fun i => if i = 0 then DomState.running
    else if (i = 12 ∨ i = 13) ∧ !d.power.offMask.getLsbD i ∧ !(i = 13 ∧ d.isRetired 0x0A 0) then .retain else .off)
  if dst = .dormant then
    { d.losePtim with
      power := { d.power with domains := sleep, dormantBad := false }
      boot := { d.boot with retConfig := d.configImage, retDigest := Config.sha256 d.configImage } }
  else if frm = .dormant then { d with power := { d.power with domains := on } }
  else d

/-- The entry `i` of an image's section table: type, reserved, offset, size and target. -/
def sectionAt (img : List Byte) (i : Nat) : Nat × Nat × Nat × Nat × Nat :=
  let o := 0x80 + 16 * i
  ((rd 16 img o).toNat, (rd 16 img (o + 2)).toNat, (rd 32 img (o + 4)).toNat, (rd 32 img (o + 8)).toNat,
    (rd 32 img (o + 12)).toNat)

/-- The sections of an image. -/
def sections (img : List Byte) : List (Nat × Nat × Nat × Nat × Nat) :=
  (List.range (rd 8 img 0x19).toNat).map (sectionAt img)

/-- The code of the vendor kernels: the sections of type 2 of the running image, one after the other (R75). -/
def Dev.vendorCode (d : Dev) : List Byte :=
  ((sections d.boot.retImage).filter (fun s => decide (s.1 = 2))).flatMap (fun s => (d.boot.retImage.drop s.2.2.1).take s.2.2.2.1)

/-- The firmware reloads the signal cores' memories when SIG has come up (R54, R327): the vendor code of the retained image, and each
user kernel's image in its core's user region. Every core holds all of the vendor code, as far as it fits (DESIGN CHOICE, log
entry 196). -/
def Dev.reloadCores (d0 : Dev) : Dev :=
  let code := d0.vendorCode.take 0x10000
  let d : Dev := d0.onSig (fun s => { s with cores := (List.range 4).foldl (fun t i => upd t i (fun c =>
    { c with mem := memWrite c.mem 0 code })) s.cores })
  let load := fun (t : Tab Core) (e : Nat × Kernel) =>
    match e.2.cfg with
    | some p => upd t p.core.toNat (fun c => { c with mem := memWrite c.mem 0x30000 e.2.image })
    | none => t
  { d with sig := { d.sig with cores := d.sig.kernels.foldl load d.sig.cores } }

/-- The channels of a class that a requested self-test tests: in use, in service, and in no domain that is OFF
(R528). -/
def Dev.selfMask (d : Dev) (blocks : BitVec 8) (bit cls : Nat) : Nat :=
  if blocks.getLsbD bit then
    (List.range (classSize cls)).foldl (fun m i =>
      let on := if cls = 3 then d.laneOn i else if cls = 4 then !d.power.offMask.getLsbD 6
        else if cls = 5 then !d.power.offMask.getLsbD 7 else !d.power.offMask.getLsbD 8
      if on ∧ d.chanInUse (chanId cls i) ∧ !d.isRetired cls i then m + 2 ^ i else m) 0
  else 0

/-- The channels of a mask count one event each at an instant. -/
def Dev.eventMask (d : Dev) (t cls m : Nat) : Dev :=
  (List.range (classSize cls)).foldl (fun d i => if m.testBit i then d.faultEvent cls i t else d) d

/-- RUN_SELFTEST ends: each failure counts one event, and the reply is posted (R528). `failed` and `tested` are the
masks of the solver lanes, separation pipelines, signal cores and PWM groups. -/
def Dev.endSelftest (d : Dev) (t : Nat) (h : Hdr) (failed tested : List Nat) : Dev :=
  let m := fun (l : List Nat) i => l.getD i 0
  let d1 := { d with host := { d.host with selftest := none } }
  let d2 := (((d1.eventMask t 3 (m failed 0)).eventMask t 4 (m failed 1)).eventMask t 5 (m failed 2)).eventMask t 6
    (m failed 3)
  d2.reply h 0x0123 .ok (leBytes 8 (m failed 0) ++ leBytes 8 (m tested 0) ++ leBytes 1 (m failed 1)
    ++ leBytes 1 (m tested 1) ++ leBytes 1 (m failed 2) ++ leBytes 1 (m tested 2) ++ leBytes 1 (m failed 3)
    ++ leBytes 1 (m tested 3) ++ [0, 0])

/-- RUN_SELFTEST ends when READY is left (R528): which of the selected tests have run so far, and which of those have
failed, is free. -/
def Dev.enterSelftest (d : Dev) (t : Nat) (dst : Mode) : Dev :=
  match d.host.selftest with
  | some st =>
    if dst = .ready then d
    else
      let all := [d.selfMask st.blocks 0 3, d.selfMask st.blocks 1 4, d.selfMask st.blocks 2 5, d.selfMask st.blocks 3 6]
      let tested := all.mapIdx (fun i m => m &&& Config.freeNat (d.fresh + i))
      let failed := tested.mapIdx (fun i m => m &&& Config.freeNat (d.fresh + 4 + i))
      (d.draw 8).endSelftest t st.hdr failed tested
  | none => d

/-- A brake test ends: its reply carries the result and the largest deviation, the notice says so, and the brake is
released again with the slot preset (R478, R494). -/
def Dev.endBrakeTest (d : Dev) (t : Nat) (result : Nat) : Dev :=
  match d.safety.test with
  | none => d
  | some bt =>
    let s := d.safety
    let b := bt.p.index.toNat
    let lcl := bt.p.target = 0
    let d1 := { d with
      safety := { s with
        test := none
        lastPass := if result = 0 ∧ lcl then put s.lastPass b t else s.lastPass
        dueSaid := if result = 0 ∧ lcl then setBit s.dueSaid b false else s.dueSaid
        brakeRel := if result = 0 ∧ lcl then setBit s.brakeRel b false else s.brakeRel
        needTest := if lcl ∧ result ≠ 2 then setBit s.needTest b (decide (result = 1)) else s.needTest
        needNode := if !lcl ∧ result = 0 then s.needNode.filter (· ≠ b)
          else if !lcl ∧ result = 1 ∧ b ∉ s.needNode then s.needNode ++ [b] else s.needNode }
      loop := { d.loop with joints := upd d.loop.joints bt.joint (fun x => { x with preset := true }) } }
    let d2 := d1.notice 9 0 t 0x0E05 (BitVec.ofNat 32 (0x18 + b % 256 * 256)) true
    d2.reply bt.hdr 0x0E20 .ok (leBytes 1 result ++ leBytes 4 (min bt.maxDev 0xFFFFFFFF))

/-- A brake test aborts when HOLD is left (R478). -/
def Dev.enterTest (d : Dev) (t : Nat) (dst : Mode) : Dev := if dst = .hold then d else d.endBrakeTest t 2

/-- Every unit's entry actions. -/
def Dev.enterUnits (d : Dev) (t e : Nat) (frm dst : Mode) (trig : BitVec 8) : Dev :=
  let d := (d.enterTest t dst).enterSelftest t dst
  let d := (d.enterSafety t e frm dst).enterArms t e frm dst trig
  let d := ((d.enterRates t frm dst).enterLoop frm dst).enterTuning t frm dst
  let d := ((d.enterSolver dst).enterSep dst).enterDeck dst
  let d := ((d.enterDisp t dst).enterSkim dst).enterSig dst
  let d := ((d.enterPwm frm dst).enterBus t frm dst).enterHost dst
  let d := d.enterDomains frm dst
  if frm = .dormant then d.reloadCores else d

/-! ### Transitions (R59 to R62) -/

/-- The TRANSITION record (R506). That its source is the supervisor is the model's choice (DESIGN CHOICE, log entry 133). -/
def Dev.journalTransition (d : Dev) (t : Nat) (frm dst : Mode) (trig : BitVec 8) (flags : Nat) : Dev :=
  d.journal 1 0 t 0x0101 (leBytes 1 frm.code ++ leBytes 1 dst.code ++ wordBytes trig ++ leBytes 1 flags ++ [0, 0, 0, 0])

/-- The pending commanded transitions are cancelled, oldest first, each with its own record (R60 to R62). -/
def Dev.cancelPending (d : Dev) (t : Nat) : Dev :=
  let d1 := d.power.pending.foldl (fun d p => d.journalTransition t d.power.mode p.target 0 3) d
  let latest := match d1.power.latest with
    | some l => if l.state = .pending then some { l with state := .cancelled } else some l
    | none => none
  { d1 with power := { d1.power with pending := [], latest := latest } }

/-- The policy level in force is latched on each entry to READY (R26). -/
def Dev.latchPolicy (d : Dev) (dst : Mode) : Dev :=
  if dst = .ready then { d with time := { d.time with policyForce := d.time.policy } } else d

/-- arg of the CLEARED of a trigger: that of its DEMAND (R492). -/
def Dev.clearArg (d : Dev) (code : Nat) : BitVec 32 :=
  if look d.safety.latchedArg code = 0 then BitVec.ofNat 32 code else look d.safety.latchedArg code

/-- The triggers that clear at acknowledgement clear, with a notice each, when READY is entered from SAFE-OFF or
COMMISSION (R467). -/
def Dev.acknowledge (d : Dev) (t : Nat) (frm dst : Mode) : Dev :=
  if dst = .ready ∧ (frm = .safeOff ∨ frm = .commission) then
    let m := d.ackMask
    let d1 := (List.range 32).foldl (fun d i =>
      if d.latchedTrig i ∧ m.getLsbD i then d.notice 9 0 t 0x0E02 (d.clearArg i) true else d) d
    { d1 with safety := { d1.safety with latched := d1.safety.latched &&& ~~~m } }
  else d

/-- The mode changes at an instant: the journal record, IRQ_STAT.MODE, and every unit's entry actions; `e` is the
boundary at which a HOLD entry stops the arms (R62, R97, R132). -/
def Dev.enterMode (d : Dev) (t e : Nat) (dst : Mode) (trig : BitVec 8) (commanded : Bool) : Dev :=
  let frm := d.power.mode
  let d := if frm = .dormant
    then { d with time := { d.time with
      seqs := d.time.seqs.filter (fun x => x.1 / 64 = 0 ∨ x.1 / 64 = 9)
      lastItem := d.time.lastItem.filter (fun x => x.1 / 64 = 0 ∨ x.1 / 64 = 9) } } else d
  let d := (d.journalTransition t frm dst trig (bit commanded)).irq 2
  let d := d.onPower (fun p => { p with
    mode := dst, trigger := trig,
    entry := if dst.torque && !frm.torque then (if frm = .ready then some t else none) else p.entry })
  ((d.latchPolicy dst).acknowledge t frm dst).enterUnits t e frm dst trig

/-- The modes from which an event may lead to a mode (R59). -/
def eventFrom : Mode → List Mode
  | .safeOff => [.run, .hold, .tune, .ready, .shadow, .commission]
  | .hold => [.run, .tune]
  | .shadow => [.run, .hold, .tune, .ready]
  | _ => []

/-- A transition caused by an event, which cancels the commanded ones that wait (R60). A safety stop request met in HOLD causes
no transition; that it cancels them too is the model's choice (DESIGN CHOICE, log entry 132). -/
def Dev.eventMode (d : Dev) (t : Nat) (dst : Mode) (trig : BitVec 8) : Dev :=
  if d.power.mode ∈ eventFrom dst then
    (d.cancelPending t).enterMode t (if dst = .hold then d.effectAt t else t) dst trig false
  else if dst = .hold ∧ d.power.mode = .hold then d.cancelPending t
  else d

/-! ### Triggers and reactions (R467, R468) -/

/-- arg of the notices of class 0x0E: trigger code, index, and channel (R492). -/
def safetyArg (trig : BitVec 8) (index : Nat) (chanS : Bool) : BitVec 32 :=
  BitVec.ofNat 32 (trig.toNat + index % 256 * 256 + bit chanS * 65536)

/-- A trigger is raised: latched, with DEMAND posted where it was not latched before. -/
def Dev.raise (d : Dev) (t : Nat) (trig : BitVec 8) (index : Nat) (chanS : Bool) : Dev :=
  if d.latchedTrig trig.toNat then d
  else
    { d with safety := { d.safety with
        latched := setBit d.safety.latched trig.toNat true, latchedAt := t
        latchedArg := put d.safety.latchedArg trig.toNat (safetyArg trig index chanS) } }.notice
      9 0 t 0x0E01 (safetyArg trig index chanS) true

/-- Safe torque off (R468): at the decision instant STO_A and STO_B go low, the brakes drop, and the mode becomes
SAFE-OFF. -/
def Dev.stoReaction (d : Dev) (t : Nat) (trig : BitVec 8) (index : Nat) (chanS : Bool) : Dev :=
  (((d.raise t trig index chanS).setSto t false false).applyBrakes t true).eventMode t .safeOff trig

/-- A safe stop request (R468 to R470): HOLD at the decision instant; with safe stop 1, STO is to follow. -/
def Dev.safeStop (d : Dev) (t : Nat) (trig : BitVec 8) (index : Nat) (chanS ss1 : Bool) : Dev :=
  let d1 := d.raise t trig index chanS
  if d1.power.mode.torque then
    let e := d.effectAt t
    let d2 := d1.eventMode t .hold trig
    if ss1 ∧ d2.safety.ss1 = none then { d2 with safety := { d2.safety with ss1 := some { e := e, trigger := trig } } }
    else d2
  else d1

/-- A reaction by its code: 1 STO, 2 SS1, 3 SS2; any other raises nothing (R463, R484, R493). -/
def Dev.react (d : Dev) (t code : Nat) (trig : BitVec 8) (index : Nat) (chanS : Bool) : Dev :=
  match code with
  | 1 => d.stoReaction t trig index chanS
  | 2 => d.safeStop t trig index chanS true
  | 3 => d.safeStop t trig index chanS false
  | _ => d

/-- A violation that monitoring finds (R491): its reaction in RUN, HOLD and TUNE; in COMMISSION and SHADOW it is evaluated and its
trigger raised, without a stop (DEDUCED, log entry 154). -/
def Dev.violation (d : Dev) (t code : Nat) (trig : BitVec 8) (index : Nat) (chanS : Bool) : Dev :=
  if d.power.mode.torque then d.react t code trig index chanS else d.raise t trig index chanS

/-- A latched trigger clears, with its notice (R467, R492). -/
def Dev.clearTrig (d : Dev) (t code : Nat) : Dev :=
  { d with safety := { d.safety with latched := setBit d.safety.latched code false } }.notice
    9 0 t 0x0E02 (d.clearArg code) true

/-- The clearing condition of a trigger that does not wait for an acknowledgement holds (R467). -/
def Dev.clears (d : Dev) (code : Nat) : Bool :=
  let s := d.safety
  let low := !s.stoA && !s.stoB
  match code with
  | 0x01 => d.sealOk && d.torqueOff && low
  | 0x02 => s.valid
  | 0x03 => decide (d.boot.step = 0) && d.boot.fwRun && !d.boot.initBad
  | 0x0A => s.faultChans.all (fun id => !(d.chan id).retired || ((d.chan id).partner).isSome)
  | 0x0B => !d.functionDemand 1
  | 0x0C => !d.functionDemand 2 && !s.pans.any (fun e => e.2.req.getLsbD 2) && !s.conns.any (fun e => decide (e.2.stop ≠ 0))
  | 0x0D => !d.functionDemand 3
  | 0x0E => s.pairs.all (fun e => !e.2.disc)
  | 0x0F => d.sealOk
  | 0x10 => d.torqueOff && low
  | 0x11 => d.edmOpen && low
  | 0x17 => decide (s.connTrig = 0)
  | 0x18 => decide (s.brakeRel = 0) && s.brakeRelOnly
  | _ => false

/-- The latched triggers whose clearing condition holds clear. -/
def Dev.sweep (d : Dev) (t : Nat) : Dev :=
  [0x01, 0x02, 0x03, 0x0A, 0x0B, 0x0C, 0x0D, 0x0E, 0x0F, 0x10, 0x11, 0x17, 0x18].foldl
    (fun d c => if d.latchedTrig c && d.clears c then d.clearTrig t c else d) d

/-- Loss of the lease (R445): from RUN, HOLD or TUNE to SHADOW (R59), with the outputs at their levels for that mode and the
brakes dropped. -/
def Dev.loseLease (d : Dev) (t : Nat) : Dev :=
  let unit := d.unitBits
  let d1 := { d with pair := { d.pair with wasHolder := false, applied := false } }.notice 1 0 t 0x0D02
    (BitVec.ofNat 32 (d.pair.cell.toNat % 16 + unit % 4 * 16 + d.time.k % 65536 * 65536)) true
  if d1.power.mode.torque then (d1.applyBrakes t true).eventMode t .shadow 0 else d1

end Sys2Proof.Machine
end

