-- ==== Sys2Proof/Machine/ArmModel.lean ====
section
/-! DEFINITION. Arm models (spec/11_kinematics_dynamics.md, R242 to R246): the record of the parameter image, its
validity, the problems that an arm has by it, and the range of a problem descriptor (R223). -/

namespace Sys2Proof.Machine

/-- A signed word of 32 bits at a byte offset. -/
def rdS (b : List Byte) (off : Nat) : Int := (rd 32 b off).toInt

/-- `n` signed words of 32 bits from a byte offset on. -/
def rdSs (b : List Byte) (off n : Nat) : List Int := (List.range n).map (fun i => rdS b (off + 4 * i))

/-- The sum of the squares of a list. -/
def normSq (l : List Int) : Int := (l.map (fun x => x * x)).foldl (· + ·) 0

/-- A quaternion in Q2.30 has a norm within 2^-20 of 1. -/
def quatOk (q : List Int) : Bool := decide ((2 ^ 30 - 2 ^ 10) ^ 2 ≤ normSq q) && decide (normSq q ≤ (2 ^ 30 + 2 ^ 10) ^ 2)

/-- A symmetric tensor of Ixx, Iyy, Izz, Ixy, Ixz, Iyz is positive semidefinite: no principal minor is negative. -/
def psd3 (t : List Int) : Bool :=
  let g := fun (i : Nat) => t.getD i 0
  let (a, b, c, d, e, f) := (g 0, g 1, g 2, g 3, g 4, g 5)
  decide (0 ≤ a) && decide (0 ≤ b) && decide (0 ≤ c) && decide (0 ≤ a * b - d * d) && decide (0 ≤ a * c - e * e)
    && decide (0 ≤ b * c - f * f) && decide (0 ≤ a * (b * c - f * f) - d * (d * c - f * e) + e * (d * f - b * e))

/-- A joint record of an arm model is valid (R243, R245). -/
def jointRecordOk (b : List Byte) : Bool :=
  quatOk (rdSs b 12 4) && decide (0 ≤ rdS b 28) && psd3 (rdSs b 44 6) && decide (0 ≤ rdS b 68) && decide (0 ≤ rdS b 72)
    && decide (0 ≤ rdS b 76) && decide (0 < rdS b 80)
    && decide (-(2 ^ 47) ≤ (rd 64 b 84).toInt) && decide ((rd 64 b 84).toInt < 2 ^ 47) && rd 32 b 92 == 0

/-- An arm model's record is valid (R243, R245). -/
def modelOk (b : List Byte) : Bool :=
  let joints := (rd 8 b 1).toNat
  let flags := rd 8 b 2
  decide ((rd 8 b 0).toNat ≤ 15) && decide (1 ≤ joints) && decide (joints ≤ 12) && decide (b.length = 96 + 96 * joints)
    && decide (flags &&& 0xFC = 0) && (!flags.getLsbD 1 || flags.getLsbD 0)
    && decide (4 ≤ (rd 8 b 3).toNat) && decide ((rd 8 b 3).toNat ≤ 16)
    && quatOk (rdSs b 16 4) && quatOk (rdSs b 44 4) && decide (0 < rdS b 60) && decide (0 ≤ rdS b 64)
    && decide (0 ≤ rdS b 68) && decide (rdS b 68 ≤ rdS b 84) && decide (0 ≤ rdS b 88) && rd 32 b 92 == 0
    && (List.range joints).all (fun j => jointRecordOk (b.drop (96 + 96 * j)))

/-- The record of an arm in the parameter image (R242). -/
def Dev.modelOf (d : Dev) (a : Nat) : Option (List Byte) := d.boot.models.find? (fun b => decide ((rd 8 b 0).toNat = a))

/-- CONFIG_ARM agrees with the arm's record, or there is none (R242). -/
def Dev.modelFits (d : Dev) (a joints : Nat) : Bool :=
  match d.modelOf a with
  | some b => modelOk b && decide ((rd 8 b 1).toNat = joints)
  | none => true

/-- The arm's model has the kinematic part. -/
def Kin.hasKin (k : Kin) : Bool :=
  match k.model with
  | some b => (rd 8 b 2).getLsbD 0
  | none => false

/-- The arm's model has the inertial part. -/
def Kin.hasInertia (k : Kin) : Bool :=
  match k.model with
  | some b => (rd 8 b 2).getLsbD 1
  | none => false

/-- The arm's model gives a firmware problem: it has the kinematic or the inertial part (R242). -/
def Dev.modelWork (d : Dev) (a : Nat) : Bool :=
  let k : Kin := { model := d.modelOf a }
  k.hasKin || k.hasInertia

/-- A motion-sensor port is configured and enabled (R285). -/
def MotionPort.enabled (p : MotionPort) : Bool :=
  match p.cfg with
  | some c => c.enable != 0
  | none => false

/-- The descriptor that the parameter image holds for a firmware problem (R222, R246). -/
def Dev.imageProblem (d : Dev) (id : Nat) : Option DefineProblem := d.boot.problems.find? (fun p => decide (p.id.toNat = id))

/-- A notice of class 0x05 of a problem (R236). -/
def Dev.solverNotice (d : Dev) (t code id lane : Nat) (st : BitVec 16) (journalled : Bool) (items : List Byte) : Dev :=
  d.notice 4 lane t (BitVec.ofNat 16 (0x0500 + code))
    (BitVec.ofNat 32 (id % 256 + lane % 256 * 256 + st.toNat % 256 * 65536)) journalled items

/-- A problem changed by a function. -/
def Dev.onProblem (d : Dev) (id : Nat) (f : Problem → Problem) : Dev :=
  d.onSolver (fun s => { s with problems := upd s.problems id (fun p => p.map f) })

/-- A descriptor whose deadline does not fit the control period is clamped, with notice CONTRACT (R223). -/
def Dev.fitDeadline (d : Dev) (t id : Nat) : Dev :=
  match look d.solver.problems id with
  | some q =>
    if d.time.tc - 4096 < q.desc.dlOff.toNat then
      (d.onProblem id (fun q => { q with desc := { q.desc with dlOff := BitVec.ofNat 32 (d.time.tc - 4096) } })).solverNotice
        t 6 id q.res.lane.toNat q.res.status false []
    else d
  | none => d

/-- What the spec fixes of a firmware problem's descriptor, whatever the image holds (R222, R246, R248, R299). -/
def firmwareDesc (id : Nat) (p : DefineProblem) : DefineProblem :=
  if id < 16 then { p with template := 1, n := 6, run := 0, group := BitVec.ofNat 8 id, flags := p.flags &&& 0xFE }
  else if id < 32 then { p with template := 2, n := 4, run := 0, group := BitVec.ofNat 8 (id - 16), kRef := 0, outerCap := 1 }
  else if id < 96 then { p with template := 3, run := 1, priority := 3 }
  else { p with template := 4, n := 2, run := 2, priority := 3 }

/-- The firmware creates one of its problems from its descriptor in the image. -/
def Dev.makeProblem (d : Dev) (id : Nat) : Dev :=
  (d.onSolver (fun s => { s with
    problems := put s.problems id ((d.imageProblem id).map (fun p => { desc := firmwareDesc id p })) })).fitDeadline d.bk id

/-- A problem is removed, and its task with it. -/
def Dev.dropProblem (d : Dev) (id : Nat) : Dev :=
  (d.cancelTasks d.bk (0x600 + id)).onSolver (fun s => { s with
    problems := put s.problems id none
    lanes := mapTab (fun _ l => if l.running = some id then { l with running := none } else l) s.lanes })

/-- The payload that a model declares, [m, m c_x, m c_y, m c_z], in format q_x (R253, R256): mass in kg, first moments
in kg m. -/
def declaredPayload (b : List Byte) (qx : Nat) : List Int :=
  let m := rdS b 68
  rneDiv (m * 2 ^ qx) (2 ^ 10) :: (rdSs b 72 3).map (fun c => rneDiv (m * c * 2 ^ qx) (2 ^ 30))

/-- q_x of the arm's RNEA problem; 0 without one. -/
def Dev.rneaQx (d : Dev) (a : Nat) : Nat :=
  match look d.solver.problems (16 + a) with
  | some p => p.desc.qX.toNat
  | none => 0

/-- π_app is set to the declared payload and the normal equations to 0 (R256). -/
def Dev.resetPayload (d : Dev) (a : Nat) : Dev :=
  let qx := d.rneaQx a
  let d1 := d.onKin a (fun k => { k with
    payload := match k.model with
      | some b => declaredPayload b qx
      | none => [0, 0, 0, 0]
    normA := [], normB := [], prevOk := false })
  let pay := (look d1.kin a).payload
  d1.onSolver (fun s => { s with problems := upd s.problems (16 + a) (fun p => p.map (fun q =>
    { q with res := { q.res with sol := pay } })) })

/-- The model of an arm is read when CONFIG_ARM takes effect (R242, R246, R256): its problems are created anew. -/
def Dev.readModel (d : Dev) (a : Nat) : Dev :=
  let d1 := (d.dropProblem a).dropProblem (16 + a)
  let d2 := { d1 with kin := put d1.kin a { model := d1.modelOf a } }
  let k := look d2.kin a
  let d3 := if k.hasKin then d2.makeProblem a else d2
  let d4 := if k.hasInertia then d3.makeProblem (16 + a) else d3
  d4.resetPayload a

/-- An arm that is configured no more loses its model and its problems. -/
def Dev.dropModel (d : Dev) (a : Nat) : Dev :=
  let d1 := (d.dropProblem a).dropProblem (16 + a)
  { d1 with kin := put d1.kin a default }

/-! ### The room of a mirror record (R448) -/

/-- A joint slot has a law (R166): kinds VELOCITY and TORQUE. -/
def JointSlot.lawful (s : JointSlot) : Bool :=
  match s.cfg with
  | some c => c.kind == 2 || c.kind == 3
  | none => false

/-- What the accepted commands that wait make of a fact that is in force: each that speaks of it settles it anew. -/
def Dev.settled (d : Dev) (f : Instr → Option Bool) (inForce : Bool) : Bool :=
  d.waiting.foldl (fun acc w => (f w.cmd).getD acc) inForce

/-- An arm is configured once the accepted commands have taken effect. -/
def Dev.armHeld (d : Dev) (a : Nat) : Bool :=
  d.settled (fun c => match c with
    | .configArm _ p => if p.arm.toNat = a then some (p.joints != 0) else none
    | _ => none) (look d.arms a).cfg.isSome

/-- The same of a problem: an arm's two follow its model, a pan's its planner, BALLAST its configuration, and a host problem its
own commands. -/
def Dev.problemHeld (d : Dev) (id : Nat) : Bool :=
  d.settled (fun c => match c with
    | .configArm _ p =>
      let k : Kin := { model := d.modelOf p.arm.toNat }
      if p.arm.toNat = id then some (p.joints != 0 && k.hasKin)
      else if 16 + p.arm.toNat = id then some (p.joints != 0 && k.hasInertia) else none
    | .setPanPlanner _ p => if 32 + p.pan.toNat = id then some (p.enable == 1) else none
    | .configBallast _ _ => if id = 96 then some true else none
    | .defineProblem _ p => if p.id.toNat = id then some true else none
    | .removeProblem _ p => if p.id.toNat = id then some false else none
    | _ => none) (look d.solver.problems id).isSome

/-- The bytes of a mirror record once every accepted command has taken effect, less its DELTAs; a joint slot's stages are those
of its record in the active bank. -/
def Dev.mirrorSize (d : Dev) : Nat :=
  let l := d.loopView
  256 + 224 * ((List.range 16).filter d.armHeld).length
    + (l.joints.filter (fun e => e.2.lawful)).foldl (fun n e => n + 32 + 16 * (rd 8 (l.active e.1).bytes 0).toNat) 0
    + 96 * (l.arms.filter (fun e => match e.2.cfg with
      | some c => c.law != 0
      | none => false)).length
    + 48 * (l.currents.filter (fun e => e.2.cfg.isSome)).length
    + 80 * ((List.range 256).filter d.problemHeld).length + 128

/-- A mirror record fits half a period of one lane, for a control period in LSB. -/
def Dev.mirrorFits (d : Dev) (tc : Nat) : Bool := decide (d.mirrorSize * 1024 ≤ 250 * tc)

/-- CONFIG_PAIR of a unit is in force or waits. -/
def Dev.pairHeld (d : Dev) : Bool :=
  d.settled (fun c => match c with
    | .configPair _ p => some (p.unit != 0xFF)
    | _ => none) d.pair.cfg.isSome

/-- A configuration command of a unit of a pair leaves room for its mirror record (R448, log entry 203). -/
def Dev.mirrorRoom (d : Dev) (stamp : Nat) (c : Instr) : Bool := !d.pairHeld || (d.await stamp c).mirrorFits d.tcNext

end Sys2Proof.Machine
end

