-- ==== Sys2Proof/Machine/Faults.lean ====
section
/-! DEFINITION. Faults, retirement and the journal (spec/22_faults_retirement_journal.md): retirement at a boundary and
its clearing, the record ring, and the commands and events of class 0x0F. -/

namespace Sys2Proof.Machine

/-! ### Leases given up (R446) -/

/-- A release: X_h falls to the release instant, a RELEASE is to be sent, and the lease is lost (R446). -/
def Dev.releaseLease (d : Dev) (t : Nat) : Dev :=
  let msg : LeaseMsg := { kind := 5, cell := d.pair.cell, unit := BitVec.ofNat 8 d.unitBits, instant := t, stamp := t }
  ({ d with pair := { d.pair with xh := t, pledgeIn := 0, toSend := some msg, out := d.pair.out ++ [.release t] } } : Dev).loseLease t

/-! ### Safety-relevant channels (R474) -/

/-- The channel set of a bus channel: A to D are 0 to 3, the spine is 4 (R433). -/
def setOf (ch : Nat) : Nat := ch / 2

/-- The other channel of a set. -/
def partnerOf (ch : Nat) : Nat := if ch % 2 = 0 then ch + 1 else ch - 1

/-- A set carries a consumed safety connection. -/
def Dev.setConsumes (d : Dev) (set : Nat) : Bool :=
  (List.range 64).any (fun c => let x := d.conn c; decide (x.dir = 1) && decide (x.set.toNat = set))

/-- The separation pipelines in service (R271). -/
def Dev.pipesInService (d : Dev) : List Nat := (List.range 4).filter (fun i => !d.isRetired 4 i)

/-- The channel is safety-relevant now (R474). Of the mirror lanes, while the unit holds the lease, it is the only one left in use (log
entry 198). -/
def Dev.safetyRelevant (d : Dev) (id : BitVec 16) : Bool :=
  let i := id.toNat % 256
  match id.toNat / 256 with
  | 0x04 => decide (d.pipesInService = [i])
  | 0x01 => d.setConsumes (setOf i) && d.isRetired 1 (partnerOf i)
  | 0x02 => d.holdsLease && d.chanInUse id && !(d.chanInUse (chanId 2 (1 - i)) && !d.isRetired 2 (1 - i))
  | _ => false

/-- A channel's retirement is due or accepted. -/
def Dev.leaves (d : Dev) (id : BitVec 16) : Bool :=
  (d.chan id).due.isSome || d.waiting.any (fun w => match w.cmd with
    | .retireChannel _ p => p.channel == id
    | _ => false)

/-- The channel's retirement, with those that are due or accepted before it, would make another one safety-relevant (R509). -/
def Dev.wouldMakeRelevant (d : Dev) (id : BitVec 16) : Bool :=
  let i := id.toNat % 256
  match id.toNat / 256 with
  | 0x04 => decide ((d.pipesInService.filter (fun j => j ≠ i && !d.leaves (chanId 4 j))).length ≤ 1)
  | 0x01 => d.setConsumes (setOf i) && !d.isRetired 1 (partnerOf i)
  | 0x02 => d.holdsLease && d.chanInUse id && d.chanInUse (chanId 2 (1 - i)) && !d.isRetired 2 (1 - i)
  | _ => false

/-- An internal channel of R446. -/
def internalChan (id : BitVec 16) : Bool := decide (id.toNat / 256 ∈ [0x03, 0x04, 0x05, 0x06])

/-! ### Spare lanes (R215) -/

/-- A lane that takes part: not retired, and its domain not switched off. -/
def Dev.laneOk (d : Dev) (l : Nat) : Bool := !d.isRetired 3 l && d.laneOn l

/-- The spares outside the pool, lowest first. -/
def Dev.freeSpares (d : Dev) : List Nat :=
  [32, 33, 34, 35].filter (fun l => d.laneOk l && (d.chan (chanId 3 l)).partner.isNone)

/-- The lanes of the pool (R215). -/
def Dev.pool (d : Dev) : List Nat :=
  (List.range 36).filter (fun l => d.laneOk l && (decide (l < 32) || (d.chan (chanId 3 l)).partner.isSome))

/-- The partner of a fault channel is set. -/
def Dev.setPartner (d : Dev) (id : BitVec 16) (p : Option (BitVec 16)) : Dev :=
  { d with faults := { d.faults with chans := upd d.faults.chans id.toNat (fun c => { c with partner := p }) } }

/-- The lowest spare that is free joins the pool for a retired lane: SPARE_IN is journalled and posted, and so is the
solver's own notice (R215, R236, R498). -/
def Dev.bringSpare (d : Dev) (t lane : Nat) : Dev :=
  match d.freeSpares with
  | [] => d
  | sp :: _ =>
    let d1 := (d.setPartner (chanId 3 lane) (some (chanId 3 sp))).setPartner (chanId 3 sp) (some (chanId 3 lane))
    let d2 := d1.notice 1 0 t 0x0F03 (faultArg (chanId 3 sp) (d1.chan (chanId 3 sp)).b) true
      (wordBytes (chanId 3 lane) ++ [0, 0])
    let d3 := d2.notice 4 sp t 0x0507 (BitVec.ofNat 32 (sp * 256)) false
    d3.onJournal (fun j => (j.tableSet (chanId 3 lane) true (some (chanId 3 sp)) t).tableSet (chanId 3 sp) false
      (some (chanId 3 lane)) t)

/-- A retired lane of the first 32 that no spare stands in for. -/
def Dev.uncovered (d : Dev) : List Nat :=
  (List.range 32).filter (fun l => d.isRetired 3 l && (d.chan (chanId 3 l)).partner.isNone)

/-! ### Retirement (R498) -/

/-- The form at the table's effect boundary, counting every accepted CONFIG_BUS_CHANNEL (R415). -/
def Dev.chansView (d : Dev) : Tab Channel :=
  d.waiting.foldl (fun m w => match w.cmd with
    | .configBusChannel _ p => upd m p.channel.toNat (fun c =>
        { c with mode := if p.mode = 0 then .off else if p.mode = 1 then .line else .phy, phyAddr := p.phyAddr })
    | _ => m) d.bus.chans

/-- The notices of an assignment of vendor kernels and decoders that has changed (R324, R328): REASSIGNED by the new core
for each kernel, and line-mode channel, that has moved; NO_DECODER by core `core` for each line-mode channel that it
leaves without one. -/
def Dev.reassigned (d : Dev) (t core : Nat) (vendor decoder : List (Option Nat)) : Dev :=
  let kernels := (List.range 6).foldl (fun d k => match vendor.getD k none, d.sig.vendor.getD k none with
    | some a, some b => if a = b then d else d.notice 3 b t 0x0803 (BitVec.ofNat 32 (k + 1)) true
    | _, _ => d) d
  (List.range 10).foldl (fun d ch =>
    let arg := BitVec.ofNat 32 (4 + ch % 2)
    if (look d.bus.chans ch).mode ≠ .line then d
    else match decoder.getD ch none, d.sig.decoder.getD ch none with
      | some a, some b => if a = b ∧ !d.isRetired 5 b then d
          else if d.isRetired 5 b then (if b = core then d.notice 3 core t 0x0804 arg true else d)
          else d.notice 3 b t 0x0803 arg true
      | some _, none => d.notice 3 core t 0x0804 arg true
      | _, _ => d) kernels

/-- What the class does when a channel of it is retired (R495), less the spare of a lane. -/
def Dev.retireClass (d : Dev) (t : Nat) (id : BitVec 16) : Dev :=
  let i := id.toNat % 256
  match id.toNat / 256 with
  | 0x01 =>
    if d.isRetired 1 (partnerOf i) ∨ (look d.bus.chans (partnerOf i)).mode = .off then
      { d with bus := { d.bus with sets := d.bus.sets.modify (setOf i) (fun s => s.enter d.time.ct .off) } }
    else d
  | 0x05 =>
    if d.time.policyForce = .autonomous then
      let v := d.sig.vendor
      let move := fun (from_ : Option Nat) (dst : Option Nat) (l : List (Option Nat)) (k : Nat) =>
        if l.getD k none = from_ then l.set k dst else l
      let ok := fun (c : Nat) => if d.isRetired 5 c then none else some c
      let v1 := move (some i) (ok 1) (move (some i) (ok 1) v 0) 5
      let v2 := if v.getD 0 none = some i then v1.set 1 none else move (some i) none v1 1
      let v3 := move (some i) (ok 0) v2 2
      let other := if i = 2 then ok 3 else ok 2
      let v4 := move (some i) other (move (some i) other v3 3) 4
      let isLine := fun (ch : Nat) => decide ((look d.bus.chans ch).mode = .line)
      let taken := match other with
        | some o => ((List.range 10).filter (fun ch => isLine ch && decide (d.sig.decoder.getD ch none = some o))).length
        | none => 5
      let moved := (List.range 10).foldl (fun (acc : List (Option Nat) × Nat) ch =>
        if acc.1.getD ch none ≠ some i then acc
        else if isLine ch ∧ 5 ≤ acc.2 then (acc.1.set ch none, acc.2)
        else (acc.1.set ch other, acc.2 + bit (isLine ch))) (d.sig.decoder, taken)
      ({ d with sig := { d.sig with vendor := v4, decoder := moved.1 } } : Dev).reassigned t i v d.sig.decoder
    else d.reassigned t i d.sig.vendor d.sig.decoder
  | 0x06 =>
    { d with pwm := { d.pwm with groups := upd d.pwm.groups i (fun g => { g with gates := 0, edges := [], driven := false }) } }
  | 0x09 =>
    { d with
      mults := upd d.mults i (fun m => { m with a := m.now, v := 0, target := none, gen := { emitted := m.gen.emitted } })
      chops := if 16 ≤ i then upd d.chops (i - 16) (fun c => { c with coilA := { short := c.coilA.short },
                                                                      coilB := { short := c.coilB.short } }) else d.chops }
  | 0x0A => { d with power := { d.power with domains := d.power.domains.set 13 .off } }
  | _ => d

/-- A channel that raised FAULT is remembered for the trigger's clearing (R467). -/
def Dev.faultTrigger (d : Dev) (t : Nat) (id : BitVec 16) : Dev :=
  ({ d with safety := { d.safety with faultChans := if id ∈ d.safety.faultChans then d.safety.faultChans
                                                    else d.safety.faultChans ++ [id] } } : Dev).stoReaction
    t 0x0A (id.toNat % 256) false

/-- SD_POST runs on a core in service (R322, R324). -/
def Dev.sdPostRuns (d : Dev) : Bool :=
  match d.sig.vendor.getD 2 none with
  | some c => !d.isRetired 5 c
  | none => false

/-- The gates of the groups with a current slot go off, and the device takes SAFE-OFF with trigger CURRENT (R186). -/
def Dev.currentsLost (d : Dev) (t : Nat) : Dev :=
  match (d.loop.currents.filter (fun e => e.2.cfg.isSome)).map Prod.fst with
  | [] => d
  | g :: gs =>
    ((g :: gs).foldl (fun d i => d.onPwm (fun p => { p with groups := upd p.groups i (fun x =>
      { x with driven := false, edges := [], gates := 0 }) })) d).stoReaction t 0x07 g false

/-- The actions of a retirement at a boundary (R498), in their order; then STO with trigger FAULT where the channel
was safety-relevant or is a rate multiplier in use, CURRENT for a group or input of a current slot (R384, R186), or the
release of the lease in the place of a SAFE-OFF (R446). -/
def Dev.retire (d : Dev) (t : Nat) (id : BitVec 16) : Dev :=
  let c := d.chan id
  if c.retired then d
  else
    let i := id.toNat % 256
    let cls := id.toNat / 256
    let relevant := d.safetyRelevant id
    let inUse := d.chanInUse id
    let stoodFor := if cls = 3 ∧ 32 ≤ i then c.partner else none
    let d1 := { d with faults := { d.faults with chans := upd d.faults.chans id.toNat (fun c =>
      { c with retired := true, due := none, partner := none, changed := t }) } }
    let d2 := match stoodFor with
      | some l => d1.setPartner l none
      | none => d1
    let lane := match stoodFor with
      | some l => some (l.toNat % 256)
      | none => if cls = 3 ∧ i < 32 then some i else none
    let spare := match lane with
      | some _ => d2.freeSpares.head?
      | none => none
    let spWord : BitVec 16 := match spare with
      | some s => chanId 3 s
      | none => 0xFFFF
    let d3 := { d2 with faults := { d2.faults with journal := d2.faults.journal.tableSet id true none t } }
    let d4 := d3.notice 1 0 t 0x0F02 (faultArg id c.b) true (wordBytes spWord ++ [0, 0] ++ wordBytes c.events)
    let d5 := (match lane with
      | some l => d4.bringSpare t l
      | none => d4).irq 3
    let d6 := d5.retireClass t id
    let bare := decide (cls ≠ 3) || (lane.isSome && (stoodFor.isSome || d.laneOn i) && spare.isNone)
    if internalChan id ∧ bare ∧ d6.holdsLease ∧ d6.pair.partnerFit then d6.releaseLease t
    else if relevant ∨ (cls = 9 ∧ inUse) then d6.faultTrigger t id
    else if cls = 6 ∧ (look d6.loop.currents i).cfg.isSome then d6.stoReaction t 0x07 i false
    else if cls = 7 ∧ inUse then
      (d6.onPwm (fun p => { p with groups := upd p.groups (i / 3) (fun g => { g with driven := false, edges := [], gates := 0 }) })
        ).stoReaction t 0x07 (i / 3) false
    else if cls = 5 ∧ d.sdPostRuns ∧ !d6.sdPostRuns then d6.currentsLost t
    else d6

/-- The retirements that are due at a boundary. -/
def Dev.retireDue (d : Dev) (t : Nat) : Dev :=
  d.faults.chans.foldl (fun d e => match e.2.due with
    | some b => if b ≤ t then d.retire t (BitVec.ofNat 16 e.1) else d
    | none => d) d

/-- A retirement is undone at a boundary (R499): the channel is back with b = 0, and its spare returns to idle unless
it now stands in for another retired lane; a set that was OFF for want of a channel starts in LISTEN (R426). -/
def Dev.clearRetired (d : Dev) (t : Nat) (id : BitVec 16) : Dev :=
  let c := d.chan id
  if !c.retired then d
  else
    let d1 := { d with faults := { d.faults with
      chans := upd d.faults.chans id.toNat (fun c => { c with retired := false, b := 0, partner := none, changed := t })
      journal := d.faults.journal.tableSet id false none t } }
    let d2 := match c.partner with
      | some p =>
        let e := d1.setPartner p none
        { e with faults := { e.faults with journal := e.faults.journal.tableSet p false none t } }
      | none => d1
    let d3 := if id.toNat / 256 = 0x0A ∧ !d2.power.offMask.getLsbD 13
      then { d2 with power := { d2.power with domains := d2.power.domains.set 13 .running } } else d2
    let d4 := d3.notice 1 0 t 0x0F04 (faultArg id 0) true
    let set := id.toNat % 256 / 2
    if id.toNat / 256 = 3 then
      match d4.uncovered with
      | l :: _ => d4.bringSpare t l
      | [] => d4
    else if id.toNat / 256 = 1 ∧ (d4.bus.sets.getD set default).state = .off ∧ !(d4.bus.sets.getD set default).invalid
        ∧ (look d4.bus.chans (id.toNat % 256)).mode ≠ .off
      then { d4 with bus := { d4.bus with sets := d4.bus.sets.modify set (fun s => s.enter t .listen) } }
    else d4

/-! ### The record ring (R505, R507) -/

/-- The units of the ring. -/
def ringUnits : Nat := 18432

/-- The bytes of a record, padded with zeros to its units. -/
def JRec.bytes (r : JRec) : List Byte :=
  let b := leBytes 8 r.ct ++ wordBytes r.num ++ wordBytes r.source ++ wordBytes r.seq ++ wordBytes r.code
    ++ leBytes 1 r.units ++ wordBytes r.flags ++ leBytes 2 r.payload.length ++ [0, 0] ++ r.payload
  b ++ List.replicate (32 * r.units - b.length) 0

/-- A record written at the next unit; the records it overwrites no longer begin there. -/
def Journal.write1 (j : Journal) (r : JRec) : Journal :=
  let r' := { r with num := j.num }
  let cells := chunks 32 r.units r'.bytes
  let ring := (cells.zipIdx).foldl (fun m e => put m (j.next + e.2) e.1) j.ring
  let heads := (j.heads.filter (fun e => e.1 < j.next ∨ j.next + r.units ≤ e.1))
  { j with ring := ring, heads := put heads j.next r.units, newest := some j.next,
           next := (j.next + r.units) % ringUnits, num := j.num + 1, written := j.written + r.units }

/-- A record is written; one that would wrap is preceded by a PAD record that fills the end of the ring (R505). -/
def Journal.write (j : Journal) (r : JRec) : Journal :=
  if ringUnits < j.next + r.units then
    (j.write1 { code := 0x0F08, units := ringUnits - j.next, flags := 2 }).write1 r
  else j.write1 r

/-- The unit of the oldest retained record: the first after the newest one round the ring (R505). -/
def Journal.oldest (j : Journal) : Nat :=
  match j.heads.find? (fun e => j.next ≤ e.1) with
  | some e => if j.next = 0 then (j.heads.head?.map (·.1)).getD 0 else e.1
  | none => (j.heads.head?.map (·.1)).getD 0

/-- The final record RESET of AON (R502, R506): it bypasses the queue. Its source is the supervisor (DESIGN CHOICE, log entry
133). -/
def Dev.finalRecord (d : Dev) (t : Nat) (cause : BitVec 8) : Dev :=
  let (t', n, d1) := d.stampItem 1 0 t
  let payload := wordBytes cause ++ leBytes 1 d.power.mode.code
    ++ leBytes 1 (bit d.safety.stoA + 2 * bit d.safety.stoB) ++ leBytes 1 (bit d.holdsLease) ++ [0, 0, 0, 0]
  d1.onJournal (fun j => j.write { ct := t', source := d.source 1 0, seq := n, code := 0x0103,
                                   units := recUnits payload.length, flags := 1, payload := payload })

/-- The bytes of data port space 0x3 from an offset on (R504). -/
def Dev.journalByte (d : Dev) (o : Nat) : Byte :=
  let j := d.faults.journal
  if o < 0x1000 then
    match j.table[o / 16]? with
    | some (id, ret, p, t) => (wordBytes id ++ [if ret then 2 else 0, 0] ++ wordBytes (p.getD 0xFFFF) ++ [0, 0]
        ++ leBytes 8 t).getD (o % 16) 0
    | none => 0
  else if o < 0x10000 then 0
  else if o < 0x70000 then
    let (c, off) := if o < 0x40000 then (d.safety.copyA, o - 0x10000) else (d.safety.copyB, o - 0x40000)
    match c with
    | some c =>
      let img := c.items.flatMap (fun e => leBytes 2 (e.1 / 65536) ++ leBytes 2 (e.1 % 65536)
        ++ leBytes 2 e.2.length ++ [0, 0] ++ pad4 e.2)
      (wordBytes c.check ++ leBytes 1 c.index.toNat ++ leBytes 1 c.code.toNat ++ [0, 0] ++ leBytes 4 img.length
        ++ [0, 0, 0, 0] ++ img).getD off 0
    | none => 0
  else (look j.ring ((o - 0x70000) / 32)).getD (o % 32) 0

/-! ### Commands of class 0x0F (R509, R510) -/

/-- SET_FAULT_POLICY (R496, R509). -/
def semSetFaultPolicy (h : Hdr) (p : SetFaultPolicy) : Sem where
  op := 0x0F00
  lenOk := h.length = 8
  modes := [.ready]
  range := fun _ => decide (1 ≤ p.class_.toNat) && decide (p.class_.toNat ≤ 0x0A) && p.reserved == 0
    && decide (1 ≤ p.nP.toNat) && decide (p.nP.toNat ≤ 15) && decide (p.nL.toNat < p.nP.toNat)
    && decide (1024000 ≤ p.tDec.toNat)
  eff := fun d => (d.await h.stamp (.setFaultPolicy h p), some (.ok, []))

/-- SET_FAULT_POLICY at its boundary: running decay instants keep their interval. -/
def Dev.applyFaultPolicy (d : Dev) (p : SetFaultPolicy) : Dev :=
  d.onFaults (fun f => { f with
    policies := put f.policies p.class_.toNat { nP := p.nP.toNat, nL := p.nL.toNat, tDec := p.tDec.toNat } })

/-- The state of a channel for GET_CHANNEL_STATE (R510). -/
def Dev.chanState (d : Dev) (id : BitVec 16) : Nat :=
  if (d.chan id).retired then 2
  else if id.toNat / 256 = 3 ∧ 32 ≤ id.toNat % 256 ∧ (d.chan id).partner.isNone then 1
  else if d.chanInUse id then 0 else 3

/-- RETIRE_CHANNEL (R509), of a channel in service: not of an idle spare (R510; log entry 206). -/
def semRetireChannel (h : Hdr) (p : RetireChannel) : Sem where
  op := 0x0F01
  lenOk := h.length = 4
  modes := [.ready, .run, .hold, .tune, .safeOff]
  range := fun _ => p.reserved == 0 && isChan p.channel
  cond := fun d => firstFail [(decide (d.chanState p.channel = 0), .range),
    (!d.safetyRelevant p.channel, .range), (!d.wouldMakeRelevant p.channel, .range)]
  eff := fun d => (d.await h.stamp (.retireChannel h p), some (.ok, []))

/-- CLEAR_RETIREMENT (R499, R509): through MAINT_MSG alone. -/
def semClearRetirement (h : Hdr) (p : ClearRetirement) : Sem where
  op := 0x0F02
  lenOk := h.length = 4
  link := .write 817 false true
  modes := [.commission, .ready]
  range := fun _ => p.reserved == 0
  cond := fun d =>
    if p.channel.toNat % 256 = 0xFF then firstFail [(decide (0 < classSize (p.channel.toNat / 256)), .range)]
    else firstFail [(isChan p.channel && (d.chan p.channel).retired, .range)]
  eff := fun d => (d.await h.stamp (.clearRetirement h p), some (.ok, []))

/-- CLEAR_RETIREMENT at its boundary: one channel, or every retired one of the class. -/
def Dev.applyClearRetirement (d : Dev) (t : Nat) (p : ClearRetirement) : Dev :=
  if p.channel.toNat % 256 = 0xFF then
    (List.range (classSize (p.channel.toNat / 256))).foldl (fun d i =>
      d.clearRetired t (chanId (p.channel.toNat / 256) i)) d
  else d.clearRetired t p.channel

/-- GET_CHANNEL_STATE (R510). -/
def semGetChannelState (h : Hdr) (p : GetChannelState) : Sem where
  op := 0x0F10
  lenOk := h.length = 4
  link := .both
  range := fun _ => p.reserved == 0 && isChan p.channel
  eff := fun d =>
    let c := d.chan p.channel
    let pol := d.policyOf p.channel
    (d, some (.ok, leBytes 1 (d.chanState p.channel) ++ leBytes 1 (c.decayTo h.stamp).b ++ leBytes 1 pol.nP
      ++ leBytes 1 pol.nL ++ wordBytes c.events ++ leBytes 8 (c.last.getD 0)
      ++ leBytes 8 (if c.retired then c.changed else 0) ++ wordBytes (c.partner.getD 0xFFFF) ++ [0, 0]))

/-- GET_JOURNAL_STATE (R510): answered in every mode, in DORMANT only through the maintenance access. -/
def semGetJournalState (h : Hdr) : Sem where
  op := 0x0F11
  lenOk := h.length = 0
  link := .both
  eff := fun d =>
    let j := d.faults.journal
    (d, some (.ok, wordBytes (j.num - 1) ++ leBytes 2 (j.newest.getD 0) ++ leBytes 2 j.oldest ++ wordBytes j.lost
      ++ leBytes 1 (bit d.safety.copyA.isSome + 2 * bit d.safety.copyB.isSome) ++ [0, 0, 0] ++ leBytes 8 j.written))

/-- JOURNAL_MARK (R506, R509): a MARK record of the host interface, stamped at acceptance. -/
def semJournalMark (h : Hdr) (p : JournalMark) : Sem where
  op := 0x0F12
  lenOk := h.length = 4
  eff := fun d => (d.journal 11 0 h.stamp 0x0F07 (wordBytes p.mark ++ [0, 0, 0, 0]), some (.ok, []))

def execSetFaultPolicy (h : Hdr) (p : SetFaultPolicy) (s : State) : Host.Outcome State Fault Refusal :=
  s.act (runCmd (semSetFaultPolicy h p) h)

def execRetireChannel (h : Hdr) (p : RetireChannel) (s : State) : Host.Outcome State Fault Refusal :=
  s.act (runCmd (semRetireChannel h p) h)

def execClearRetirement (h : Hdr) (p : ClearRetirement) (s : State) : Host.Outcome State Fault Refusal :=
  s.act (runCmd (semClearRetirement h p) h)

def execGetChannelState (h : Hdr) (p : GetChannelState) (s : State) : Host.Outcome State Fault Refusal :=
  s.act (runCmd (semGetChannelState h p) h)

def execGetJournalState (h : Hdr) (s : State) : Host.Outcome State Fault Refusal :=
  s.act (runCmd (semGetJournalState h) h)

def execJournalMark (h : Hdr) (p : JournalMark) (s : State) : Host.Outcome State Fault Refusal :=
  s.act (runCmd (semJournalMark h p) h)

/-! ### Events -/

/-- The decay instants of a channel up to an instant are applied (R496). -/
def Dev.decay (d : Dev) (t : Nat) (ch : BitVec 16) : Dev :=
  { d with faults := { d.faults with chans := upd d.faults.chans ch.toNat (fun c => c.decayTo t) } }

/-- BUCKET_DECAY (R496). -/
def execBucketDecay (t : Nat) (ch : BitVec 16) (s : State) : Host.Outcome State Fault Refusal :=
  s.act (fun d => (d.advance t).decay t ch)

/-- An event on a sigma-delta input: the filter output of the next quarter point repeats the previous one. -/
def Dev.sdSilence (d : Dev) (t i : Nat) : Dev :=
  (d.onLoop (fun l => { l with sdBad := setBit l.sdBad i true })).faultEvent 7 i t

/-- SD_INPUT_SILENCE (R495): an event on the input's channel. -/
def execSdInputSilence (t : Nat) (i : Fin 24) (s : State) : Host.Outcome State Fault Refusal :=
  s.act (fun d => (d.advance t).sdSilence t i.val)

/-- The queue drains its oldest record, where the ring has had 20 µs for every unit of the last one (R507); where room has returned,
one JOURNAL_LOST says how many were lost (R507, R508). -/
def Dev.journalDrain (d : Dev) (t : Nat) : Dev :=
  let j := d.faults.journal
  match j.queue with
  | [] => d
  | r :: q =>
    if t < j.freeAt then d
    else
    let j1 := { j with queue := q }.write r
    let d1 := { d with faults := { d.faults with journal := { j1 with freeAt := t + (j1.written - j.written) * 20480 } } }
    if j.lostNow ≠ 0 ∧ q.length < 128 then
      { d1 with faults := { d1.faults with journal := { d1.faults.journal with lostNow := 0 } } }.notice
        1 0 t 0x0F05 j.lostNow true
    else d1

/-- JOURNAL_WRITE (R507). -/
def execJournalWrite (t : Nat) (s : State) : Host.Outcome State Fault Refusal :=
  s.act (fun d => (d.advance t).journalDrain t)

end Sys2Proof.Machine
end

