-- ==== Sys2Proof/Machine/Solver.lean ====
section
/-! DEFINITION. The solver array (spec/10_solver_array.md): lane arithmetic, the inner steps and the pivot rule, the
outcome of a run, its result area and notices, and the commands of class 0x05 (R214 to R241). -/

namespace Sys2Proof.Machine

/-! ### Words (R217 to R219) -/

/-- rne(acc, q_acc - q_d): an exact value with `qacc` fraction bits rounded to `qd` (R169, R219). -/
def shiftRne (acc : Int) (qacc qd : Nat) : Int := rneDiv (acc * 2 ^ (qd - qacc)) (2 ^ (qacc - qd))

/-- A store of a rounded value (R219). -/
def Calc.store (c : Calc) (step : Nat) (v : Int) : Int × Calc :=
  let w := sat32 v
  (w, if w = v ∨ c.ovf.isSome then c else { c with ovf := some (step, w) })

/-- DIV of R217: a in format qa by b in format qb, written to format qd. -/
def Calc.div (c : Calc) (step : Nat) (a : Int) (qa : Nat) (b : Int) (qb qd : Nat) : Int × Calc :=
  if b = 0 then
    let w : Int := if 0 ≤ a then 2147483647 else -2147483648
    (w, if c.ovf.isSome then c else { c with ovf := some (step, w) })
  else c.store step (rneDiv (a * 2 ^ (qb + qd) * (if b < 0 then -1 else 1)) (b.natAbs * 2 ^ qa))

/-- SQRT of R217: the root of a in format qa, written to format qd. -/
def Calc.sqrt (c : Calc) (step : Nat) (a : Int) (qa qd : Nat) : Int × Calc :=
  if a < 0 then (0, if c.ovf.isSome then c else { c with ovf := some (step, 0) })
  else c.store step (rneSqrt (a.toNat * 2 ^ (2 * qd)) (2 ^ qa) : Nat)

/-- A sum of products, exact (R219). -/
def dot (x y : List Int) : Int := (List.zipWith (· * ·) x y).foldl (· + ·) 0

/-! ### The inner steps (R227, R228) -/

/-- The entry (i, j) of a symmetric matrix of which the rows of the lower triangle are given. -/
def symAt (a : List Int) (i j : Nat) : Int := if j ≤ i then a.getD (i * (i + 1) / 2 + j) 0 else a.getD (j * (j + 1) / 2 + i) 0

/-- The pivot rule of R228. -/
def Calc.pivot (c : Calc) (step : Nat) (p lambda : Int) (thr : Nat) : Int × Calc :=
  if thr < p.natAbs then (p, c)
  else if 0 < lambda then ({ c with reg := true } : Calc).store step (if 0 ≤ p then p + lambda else p - lambda)
  else if p ≠ 0 then (p, { c with small := true })
  else (0, { c with stop := true })

/-- The factorisation as far as it has come: the rows of L left of the diagonal, and the pivots. -/
structure Factor where
  rows : List (List Int) := []
  d    : List Int := []
deriving DecidableEq, Repr, Inhabited

/-- The words of a factorisation: L row by row, then d. -/
def Factor.words (f : Factor) : List Int := f.rows.flatten ++ f.d

/-- Column j of the factorisation. -/
def factorColumn (p : DefineProblem) (a : List Int) (x : Factor × Calc) (j : Nat) : Factor × Calc :=
  if x.2.stop then x
  else
    let (qa, ql, n) := (p.qA.toNat, p.qL.toNat, p.n.toNat)
    let rowJ := x.1.rows.getD j []
    let (w, c1) := (List.zip rowJ x.1.d).foldl (fun (acc : List Int × Calc) e =>
      let (v, c) := acc.2.store 1 (shiftRne (e.1 * e.2) (ql + qa) qa)
      (acc.1 ++ [v], c)) ([], x.2)
    let (pv, c2) := c1.store 1 (shiftRne (symAt a j j * 2 ^ ql - dot w rowJ) (qa + ql) qa)
    let (dj, c3) := c2.pivot 1 pv p.lambda.toInt p.pivotThr.toNat
    if c3.stop then (x.1, c3)
    else
      let (rows, c4) := (List.range n).foldl (fun (acc : List (List Int) × Calc) i =>
        let row := x.1.rows.getD i []
        if i ≤ j then (acc.1 ++ [row], acc.2)
        else
          let (t, ca) := acc.2.store 1 (shiftRne (symAt a i j * 2 ^ ql - dot row w) (qa + ql) qa)
          let (l, cb) := ca.div 1 t qa dj qa ql
          (acc.1 ++ [row ++ [l]], cb)) ([], c3)
      ({ rows := rows, d := x.1.d ++ [dj] }, c4)

/-- The factorisation A = L d Lᵀ, n columns in order. -/
def factorise (p : DefineProblem) (a : List Int) (c : Calc) : Factor × Calc :=
  (List.range p.n.toNat).foldl (factorColumn p a) ({ rows := List.replicate p.n.toNat [] }, c)

/-- The solve of R227, as step `step`. -/
def solveWith (p : DefineProblem) (f : Factor) (b : List Int) (step : Nat) (c : Calc) : List Int × Calc :=
  let (qa, ql, qb, qx, n) := (p.qA.toNat, p.qL.toNat, p.qB.toNat, p.qX.toNat, p.n.toNat)
  let (z, c1) := (List.range n).foldl (fun (acc : List Int × Calc) i =>
    let (v, c) := acc.2.store step (shiftRne (b.getD i 0 * 2 ^ ql - dot (f.rows.getD i []) acc.1) (ql + qb) qb)
    (acc.1 ++ [v], c)) ([], c)
  (List.range n).foldr (fun i (acc : List Int × Calc) =>
    let (q, ca) := acc.2.div step (z.getD i 0) qb (f.d.getD i 0) qa qx
    let col := (List.range (n - 1 - i)).map (fun k => (f.rows.getD (i + 1 + k) []).getD i 0)
    let (v, cb) := ca.store step (shiftRne (q * 2 ^ ql - dot col acc.1) (ql + qx) qx)
    (v :: acc.1, cb)) ([], c1)

/-- b - A x at the finer of the formats of its two terms, exact, with its fraction bits. -/
def defect (p : DefineProblem) (a b x : List Int) (i : Nat) : Int × Nat :=
  let q := max (p.qA.toNat + p.qX.toNat) p.qB.toNat
  (b.getD i 0 * 2 ^ (q - p.qB.toNat)
    - dot ((List.range p.n.toNat).map (symAt a i)) x * 2 ^ (q - (p.qA.toNat + p.qX.toNat)), q)

/-- One refinement step of R227. -/
def refine (p : DefineProblem) (a b : List Int) (f : Factor) (x : List Int × Calc) : List Int × Calc :=
  if x.2.ovf.isSome then x
  else
    let (r, c1) := (List.range p.n.toNat).foldl (fun (acc : List Int × Calc) i =>
      let (e, q) := defect p a b x.1 i
      let (v, c) := acc.2.store 3 (shiftRne e q p.qB.toNat)
      (acc.1 ++ [v], c)) ([], x.2)
    let (dx, c2) := solveWith p f r 3 c1
    (List.zip x.1 dx).foldl (fun (acc : List Int × Calc) e =>
      let (v, c) := acc.2.store 3 (e.1 + e.2)
      (acc.1 ++ [v], c)) ([], c2)

/-- The residual norm of LDLT_SOLVE: max |b - A x| in format q_r (R225). -/
def residualNorm (p : DefineProblem) (a b x : List Int) (c : Calc) : Int × Calc :=
  (List.range p.n.toNat).foldl (fun (acc : Int × Calc) i =>
    let (e, q) := defect p a b x i
    let (v, c) := acc.2.store 4 (shiftRne e q p.qR.toNat)
    (max acc.1 v.natAbs, c)) (0, c)

/-- The 48 bytes of a descriptor (R223). -/
def descriptorBytes (p : DefineProblem) : List Byte :=
  wordBytes p.id ++ wordBytes p.template ++ wordBytes p.n ++ wordBytes p.run ++ wordBytes p.priority ++ wordBytes p.group
    ++ wordBytes p.flags ++ wordBytes p.kRef ++ wordBytes p.qA ++ wordBytes p.qL ++ wordBytes p.qB ++ wordBytes p.qX
    ++ wordBytes p.qR ++ wordBytes p.outerCap ++ wordBytes p.reserved0 ++ wordBytes p.lambda ++ wordBytes p.pivotThr
    ++ wordBytes p.tol ++ wordBytes p.acc ++ wordBytes p.boundA ++ wordBytes p.boundB ++ wordBytes p.dlOff
    ++ wordBytes p.reserved1

/-! ### The outcome of a run (R221, R225, R231) -/

/-- What a run came to: the parts from which its status and flags follow. -/
structure RunOut where
  inRange : Bool := true
  arith    : Calc := {}
  r       : Int := 0
  x       : List Int := []
  iters   : Nat := 0
  cut     : Bool := false
  check   : Bool := false
  rerun   : Bool := false
  late    : Bool := false                -- no solution from this run (R230)
  noDeck  : Bool := false                -- R250: the deck estimate is unavailable
  factors : List Int := []               -- L row by row, then d
deriving DecidableEq, Repr, Inhabited

/-- A host problem's run (R225), bit for bit. -/
def runLdlt (p : DefineProblem) (a b : List Int) : RunOut :=
  if a.any (fun w => decide (p.boundA.toNat < w.natAbs)) || b.any (fun w => decide (p.boundB.toNat < w.natAbs))
  then { inRange := false }
  else
    let (f, c1) := factorise p a {}
    if c1.stop ∨ c1.ovf.isSome then { arith := c1 }
    else
      let (x0, c2) := solveWith p f b 2 c1
      if c2.ovf.isSome then { arith := c2 }
      else
        let (x, c3) := (List.range p.kRef.toNat).foldl (fun y _ => refine p a b f y) (x0, c2)
        if c3.ovf.isSome then { arith := c3 }
        else
          let (r, c4) := residualNorm p a b x c3
          { arith := c4, r := r, x := x, iters := 1, factors := f.words }

/-- The status of a run, by the precedence of R231. -/
def RunOut.status (o : RunOut) (p : DefineProblem) : Status :=
  if !o.inRange ∨ o.arith.ovf.isSome then .range
  else if o.arith.stop then .pivot
  else if o.check then .check
  else if o.late then .deadline
  else if (p.acc.toInt : Int) < o.r then .notconv
  else if o.cut ∨ p.tol.toInt < o.r then .okCapped
  else if o.arith.reg then .pivotReg
  else .ok

/-- A status whose run is valid (R231). -/
def Status.usable : Status → Bool
  | .ok => true | .okCapped => true | .pivotReg => true | _ => false

/-- The flags of a run (R240). -/
def RunOut.flags (o : RunOut) (p : DefineProblem) : BitVec 16 :=
  BitVec.ofNat 16 (bit o.arith.reg + 2 * bit o.arith.small + 4 * bit o.arith.ovf.isSome + 8 * bit (!o.inRange)
    + 16 * bit (o.inRange && o.arith.ovf.isSome) + 32 * bit o.cut + 64 * bit o.rerun
    + 128 * bit (!(o.status p).usable || o.noDeck))

/-- What a run comes to at its end: its last iterate. -/
def RunPlan.out (p : RunPlan) : RunOut :=
  let i := p.iters.getLastD {}
  { inRange := p.inRange, arith := p.arith, r := i.r, x := i.x, iters := p.iters.length, noDeck := p.noDeck }

/-- The plan of a host problem's run. -/
def ldltPlan (p : DefineProblem) (a b : List Int) : RunPlan :=
  let o := runLdlt p a b
  { inRange := o.inRange, arith := o.arith, iters := if o.iters = 0 then [] else [{ r := o.r, x := o.x, arith := o.arith }]
    words := a ++ b, factors := o.factors }

/-! ### The result area (R232, R236) -/

/-- The code of a status notice (R236). -/
def Status.solverNotice : Status → Option Nat
  | .pivot => some 1 | .range => some 2 | .deadline => some 3 | .notconv => some 4 | .check => some 5 | _ => none

/-- The status record of a run is written, with the solution where the run is valid, and its notices are posted
(R232, R236). -/
def Dev.writeResult (d : Dev) (t id : Nat) (lane : Option Nat) (o : RunOut) : Dev :=
  match look d.solver.problems id with
  | none => d
  | some p =>
    let st := o.status p.desc
    let l := lane.getD p.res.lane.toNat
    let res : Result := { p.res with
      status := BitVec.ofNat 16 st.code, flags := o.flags p.desc, iters := BitVec.ofNat 8 o.iters,
      lane := BitVec.ofNat 8 l, ended := t }
    let res' := if st.usable then { res with validAt := t, residual := o.r, sol := o.x } else res
    let d1 := d.onProblem id (fun q => { q with res := res', run := none, usable := st.usable })
    let notify := p.desc.flags.getLsbD 1
    let d2 := match st.solverNotice with
      | some c => if p.usable ∨ notify then d1.solverNotice t c id l res.status false [] else d1
      | none => d1
    let d3 := match o.inRange, o.arith.ovf with
      | true, some (step, w) => d2.solverNotice t 6 id l res.status true (leBytes 4 step ++ intBytes 4 w)
      | _, _ => d2
    if notify then d3.solverNotice t 8 id l res.status false [] else d3

/-! ### Definitions as they will stand at the next boundaries -/

/-- The descriptor under which a problem id will stand once the accepted commands have taken effect. -/
def Dev.problemView (d : Dev) (id : Nat) : Option DefineProblem :=
  d.waiting.foldl (fun acc w => match w.cmd with
    | .defineProblem _ p => if p.id.toNat = id then some p else acc
    | .removeProblem _ p => if p.id.toNat = id then none else acc
    | _ => acc) ((look d.solver.problems id).map (·.desc))

/-! ### Commands of class 0x05 (R237 to R241) -/

/-- The fields of a descriptor are in range (R223), for a control period. -/
def descriptorOk (p : DefineProblem) (tc : Nat) : Bool :=
  let pos := fun (w : BitVec 32) => decide (w.toNat < 2147483648)
  let q := fun (w : BitVec 8) => decide (w.toNat ≤ 31)
  decide (1 ≤ p.n.toNat) && decide (p.n.toNat ≤ 12) && decide (p.run.toNat ≤ 2) && decide (p.priority.toNat ≤ 7)
    && (p.group == 0xFF || decide (p.group.toNat ≤ 63)) && p.flags &&& 0xFC == 0 && decide (p.kRef.toNat ≤ 4)
    && q p.qA && q p.qL && q p.qB && q p.qX && q p.qR && decide (1 ≤ p.outerCap.toNat) && decide (p.outerCap.toNat ≤ 32)
    && p.reserved0 == 0 && pos p.lambda && pos p.pivotThr && pos p.tol && pos p.acc && decide (p.tol.toNat ≤ p.acc.toNat)
    && pos p.boundA && decide (1 ≤ p.boundA.toNat) && pos p.boundB && decide (1 ≤ p.boundB.toNat)
    && decide (1 ≤ p.dlOff.toNat) && decide (p.dlOff.toNat ≤ tc - 4096) && p.reserved1 == 0

/-- In the ARBITER role a command that needs a problem is refused with RETIRED (R235). -/
def Dev.noArray (d : Dev) : Bool × Status := (!d.isArbiter, .retired)

/-- DEFINE_PROBLEM (R238). -/
def semDefineProblem (h : Hdr) (p : DefineProblem) : Sem where
  op := 0x0500
  lenOk := h.length = 48
  modes := [.ready]
  range := fun d => decide (192 ≤ p.id.toNat) && p.template == 0x10 && p.outerCap == 1 && descriptorOk p d.tcNext
  cond := fun d => firstFail [d.noArray, ((d.problemView p.id.toNat).isNone, .range), (d.mirrorRoom h.stamp (.defineProblem h p), .range),
    (!d.solverOff, .range), (!d.pool.isEmpty, .retired)]
  eff := fun d => (d.await h.stamp (.defineProblem h p), some (.ok, []))

/-- DEFINE_PROBLEM at its boundary. -/
def Dev.applyDefineProblem (d : Dev) (p : DefineProblem) : Dev :=
  (d.onSolver (fun s => { s with problems := put s.problems p.id.toNat (some { desc := p }) })).fitDeadline d.bk p.id.toNat

/-- REMOVE_PROBLEM (R238). -/
def semRemoveProblem (h : Hdr) (p : RemoveProblem) : Sem where
  op := 0x0501
  lenOk := h.length = 4
  modes := [.ready]
  range := fun _ => p.reserved == 0 && decide (192 ≤ p.id.toNat)
  cond := fun d => firstFail [d.noArray, ((d.problemView p.id.toNat).isSome, .range)]
  eff := fun d => (d.await h.stamp (.removeProblem h p), some (.ok, []))

/-- The input words of a problem of order n (R239). -/
def inputWords (n : Nat) : Nat := n * (n + 1) / 2 + n

/-- SET_PROBLEM_INPUT (R239); the length follows from the order of the problem. -/
def semSetProblemInput (h : Hdr) (p : SetProblemInput) (d0 : Dev) : Sem where
  op := 0x0502
  lenOk := match d0.problemView p.id.toNat with
    | some q => h.length = 4 + 4 * inputWords q.n.toNat
    | none => decide (4 ≤ h.length) && decide (h.length % 4 = 0)
  modes := [.commission, .ready, .run, .tune, .hold, .safeOff]
  range := fun _ => p.reserved == 0 && decide (192 ≤ p.id.toNat)
  cond := fun d => firstFail [d.noArray, ((d.problemView p.id.toNat).isSome, .range)]
  eff := fun d => (d.await h.stamp (.setProblemInput h p), some (.ok, []))

/-- SET_PROBLEM_INPUT at its boundary: the inputs take effect, and a run-2 problem is released (R224, R239). -/
def Dev.applyProblemInput (d : Dev) (t : Nat) (p : SetProblemInput) : Dev :=
  match look d.solver.problems p.id.toNat with
  | none => d
  | some q =>
    let n := q.desc.n.toNat
    let words := p.words.map BitVec.toInt
    let d1 := d.onProblem p.id.toNat (fun q => { q with
      a := words.take (n * (n + 1) / 2), b := words.drop (n * (n + 1) / 2), input := true })
    if q.desc.run = 2 then d1.fire t t (0x600 + p.id.toNat) else d1

/-- GET_PROBLEM_RESULT (R240). -/
def semGetProblemResult (h : Hdr) (p : GetProblemResult) : Sem where
  op := 0x0510
  lenOk := h.length = 4
  link := .both
  range := fun _ => p.reserved == 0
  cond := fun d => firstFail [d.noArray, ((look d.solver.problems p.id.toNat).isSome, .range)]
  eff := fun d => (d, match look d.solver.problems p.id.toNat with
    | some q => some (.ok, wordBytes q.res.status ++ wordBytes q.res.flags ++ wordBytes q.res.iters
        ++ wordBytes q.res.lane ++ [0, 0] ++ leBytes 8 q.res.ended ++ leBytes 8 q.res.validAt ++ intBytes 4 q.res.residual
        ++ (List.range 12).flatMap (fun i => intBytes 4 (q.res.sol.getD i 0)))
    | none => some (.range, []))

/-- GET_PROBLEM_DESCRIPTOR (R240): any defined id, firmware ids included. -/
def semGetProblemDescriptor (h : Hdr) (p : GetProblemDescriptor) : Sem where
  op := 0x0511
  lenOk := h.length = 4
  link := .both
  range := fun _ => p.reserved == 0
  cond := fun d => firstFail [d.noArray, ((look d.solver.problems p.id.toNat).isSome, .range)]
  eff := fun d => (d, match look d.solver.problems p.id.toNat with
    | some q => some (.ok, descriptorBytes q.desc)
    | none => some (.range, []))

/-- The state of a lane for GET_LANE_STATE (R241). -/
def Dev.laneState (d : Dev) (l : Nat) : Nat :=
  if d.isRetired 3 l then 2 else if !d.laneOn l then 3 else if l ∈ d.pool then 0 else 1

/-- GET_LANE_STATE (R241). -/
def semGetLaneState (h : Hdr) (p : GetLaneState) : Sem where
  op := 0x0512
  lenOk := h.length = 4
  link := .both
  range := fun _ => p.reserved == 0 && decide (p.lane.toNat ≤ 35)
  eff := fun d =>
    let l := p.lane.toNat
    let x := look d.solver.lanes l
    let standsIn := if 32 ≤ l ∧ l ∈ d.pool then match (d.chan (chanId 3 l)).partner with
      | some c => c.toNat % 256
      | none => 0xFF
      else 0xFF
    (d, some (.ok, leBytes 1 (d.laneState l) ++ leBytes 1 standsIn ++ [0, 0] ++ wordBytes x.runs ++ wordBytes x.events
      ++ leBytes 2 (x.running.getD 0xFFFF) ++ [0, 0]))

def execDefineProblem (h : Hdr) (p : DefineProblem) (s : State) : Host.Outcome State Fault Refusal :=
  s.act (runCmd (semDefineProblem h p) h)

def execRemoveProblem (h : Hdr) (p : RemoveProblem) (s : State) : Host.Outcome State Fault Refusal :=
  s.act (runCmd (semRemoveProblem h p) h)

def execSetProblemInput (h : Hdr) (p : SetProblemInput) (s : State) : Host.Outcome State Fault Refusal :=
  s.act (fun d => runCmd (semSetProblemInput h p d) h d)

def execGetProblemResult (h : Hdr) (p : GetProblemResult) (s : State) : Host.Outcome State Fault Refusal :=
  s.act (runCmd (semGetProblemResult h p) h)

def execGetProblemDescriptor (h : Hdr) (p : GetProblemDescriptor) (s : State) : Host.Outcome State Fault Refusal :=
  s.act (runCmd (semGetProblemDescriptor h p) h)

def execGetLaneState (h : Hdr) (p : GetLaneState) (s : State) : Host.Outcome State Fault Refusal :=
  s.act (runCmd (semGetLaneState h p) h)

end Sys2Proof.Machine
end

