-- ==== Sys2Proof/Machine/System.lean ====
section
/-! DEFINITION. The system commands of class 0x01 and the events of power and clocks (spec/03_power_clocks_modes.md,
spec/04_reset_boot_fuses.md, spec/05_host_mailboxes_data_port.md), less reset, boot and wake. -/

namespace Sys2Proof.Machine

/-! ### Domains (R47 to R55) -/

/-- A command accepted and not yet in effect configures work on a domain (R50, R67). -/
def Dev.domClaimed (d : Dev) (i : Nat) (mask : BitVec 16) : Bool :=
  let solver := (decide (i = 4) && mask.getLsbD 5) || (decide (i = 5) && mask.getLsbD 4)
  d.waiting.any (fun w => match w.cmd with
    | .configJointSlot _ p => decide (i = 3) && p.kind != 0
    | .configArmSlot _ p => decide (i = 3) && p.law != 0
    | .configCurrentSlot _ p => (decide (i = 3) || decide (i = 7) || decide (i = 8)) && p.joint != 0xFF
    | .configDeck _ _ => decide (i = 7)
    | .setObjectSource _ p => decide (i = 7) && p.source == 2
    | .defineProblem _ _ => solver
    | .configBallast _ _ => solver
    | .setPanPlanner _ p => solver && p.enable != 0
    | .loadKernel _ _ => decide (i = 7)
    | .configBusChannel _ p => decide (i = 7) && p.mode == 1
    | .configMotionPort _ p => (decide (i = 7) || decide (i = 8)) && p.enable != 0
    | .configArm _ p => (decide (i = 8) || (solver && d.modelWork p.arm.toNat)) && p.joints != 0
    | .configStep _ p => decide (i = 8) && p.joint != 0xFF
    | .configChopper _ p => decide (i = 8) && p.joint != 0xFF
    | .configPwmGroup _ p => decide (i = 8) && p.source != 0
    | .configBrake _ p => decide (i = 8) && p.joint != 0xFF
    | _ => false)

/-- Configured work uses a domain (R50, R67). A solver half goes only with the whole array. -/
def Dev.domUsed (d : Dev) (i : Nat) (mask : BitVec 16) : Bool :=
  match i with
  | 3 => d.loop.joints.any (fun e => e.2.cfg.any (fun c => c.kind != 0)) || d.loop.arms.any (fun e => e.2.cfg.any (fun c => c.law != 0))
    || d.loop.currents.any (fun e => e.2.cfg.isSome)
  | 4 => mask.getLsbD 5 && d.solver.problems.any (fun e => e.2.isSome)
  | 5 => mask.getLsbD 4 && d.solver.problems.any (fun e => e.2.isSome)
  | 6 => d.safety.committed.any (fun e => decide (e.1 / 65536 / 256 = 6))
    || d.safety.candidate.any (fun e => decide (e.1 / 65536 / 256 = 6))
  | 7 => d.sig.kernels.any (fun e => e.2.cfg.isSome) || d.bus.chans.any (fun e => decide (e.2.mode = .line))
    || d.deck.ports.any MotionPort.enabled || d.deck.cfg.isSome || d.loop.currents.any (fun e => e.2.cfg.isSome)
    || d.sep.hints.any (fun e => e.2.source == 2)
  | 8 => d.arms.any (fun e => e.2.cfg.isSome) || d.mults.any (fun e => e.2.step.isSome || e.2.chop.isSome)
    || d.pwm.groups.any (fun e => e.2.cfg.isSome) || d.pwm.brakes.any (fun e => e.2.cfg.isSome)
    || d.deck.ports.any MotionPort.enabled || d.loop.currents.any (fun e => e.2.cfg.isSome)
  | 11 => decide (d.skim.phase ≠ .idle) || d.skim.chans.any (fun e => decide (e.2.cfg.kind ≠ 0))
  | _ => false

/-- The bits that the mask may set: 3 to 8, 11 and 13 (R67). -/
def offAllowed : BitVec 16 := 0x29F8

/-- A loop engine whose state is lost: the firmware keeps its configuration and reloads the banks (R48, R54). -/
def Loop.cleared (l : Loop) : Loop :=
  { joints := mapTab (fun _ s => { cfg := s.cfg, cfgStamp := s.cfgStamp }) l.joints
    arms := mapTab (fun _ s => { cfg := s.cfg, cfgStamp := s.cfgStamp }) l.arms
    currents := mapTab (fun _ s => { cfg := s.cfg, cfgStamp := s.cfgStamp }) l.currents
    bankA := l.bankA, bankB := l.bankB, activeB := l.activeB }

/-- A lane whose domain has lost its state; what GET_LANE_STATE counts since reset stays (R241). -/
def Lane.cleared (l : Lane) : Lane := { runs := l.runs, events := l.events }

/-- A domain that goes OFF loses its state and local memory (R48); what the firmware holds as configuration stays. -/
def Dev.loseDomain (d : Dev) (i : Nat) : Dev :=
  match i with
  | 3 => d.onLoop Loop.cleared
  | 4 => d.onSolver (fun s => { s with lanes := mapTab (fun i l => if i < 18 then l.cleared else l) s.lanes })
  | 5 => d.onSolver (fun s => { s with lanes := mapTab (fun i l => if i < 18 then l else l.cleared) s.lanes })
  | 6 => d.onSep (fun x => { isl := x.isl, islCheck := x.islCheck, planners := x.planners, hints := x.hints, hintsNext := x.hintsNext })
  | 7 => d.onSig (fun s => { s with cores := [] })
  | 8 => d.losePtim
  | 11 => d.onSkim (fun s => { (default : Skim) with chans := s.chans, cap := s.cap, trig := s.trig, pulled := s.pulled })
  | 13 => d.onHost (fun h => { h with memB := [] })
  | _ => d

/-- SET_DOMAINS at its boundary (R48, R50): a domain that goes off loses its state and memory, and one that comes back runs,
with its sources begun anew (R13) and its memories reloaded (R54). In the ARBITER role those of R50 stay off. -/
def Dev.applyDomains (d : Dev) (p : BitVec 16) : Dev :=
  let m := d.offMaskOf p
  let up := fun (i : Nat) => d.power.offMask.getLsbD i && !m.getLsbD i && decide (d.power.domains.getD i .off = .off)
  let doms := d.power.domains.mapIdx (fun i s => if m.getLsbD i then DomState.off else if up i then .running else s)
  let d1 := (d.onPower (fun p => { p with offMask := m, domains := doms })).onTime (fun x => x.restartSources up)
  let d2 := (List.range 14).foldl (fun d i => if m.getLsbD i then d.loseDomain i else d) d1
  let d3 := if up 4 || up 5 then d2.uncovered.foldl (fun d l => d.bringSpare d.bk l) d2 else d2
  if up 7 then d3.reloadCores else d3

/-- The domain of an engine, for a task on a unit (R47). -/
def Engine.domain (e : Engine) (unit : Nat) : Nat :=
  match e with
  | .loop => 3 | .move => 8 | .sep => 6 | .sup => 1 | .sig => 7 | .solver => if unit < 18 then 4 else 5 | .none => 2

/-- A domain has a ready or running task; a ready solver task may go to either half (R53). -/
def Dev.domBusy (d : Dev) (i : Nat) : Bool :=
  d.disp.tasks.any (fun t =>
    let e := (d.entry t.entry).engine
    decide (t.phase ≠ .waiting) && (decide (i = 2) ||
      (if e = .solver ∧ t.phase = .ready then decide (i = 4 ∨ i = 5) else decide (e.domain t.unit = i))))

/-- The clock of a domain stops, where it is on demand (the interfaces of MEMA and MEMB, which R54 gives no start from STOPPED,
never do: DESIGN CHOICE, log entry 134) and the domain has no work, with a STOP record (R51 to R53,
R343). -/
def Dev.stopDomain (d : Dev) (t i : Nat) : Dev :=
  if i ∈ [1, 2, 3, 4, 5, 6, 7, 8, 11] ∧ d.power.domains.getD i .off = .running ∧ !d.domBusy i ∧ !d.domContinuous i
  then (d.onPower (fun p => { p with domains := p.domains.set i .stopped })).traceBare t 0x0C i else d

/-- The source of an entry will fire in the next period, with work for the domain; every such entry needs DISP. -/
def Dev.entryScheduled (d : Dev) (i e : Nat) : Bool :=
  let x := d.entry e
  let n := max 1 (x.match_ % 256)
  let due := (decide (x.kind = .boundary) && decide ((d.time.k + 1) % n = x.match_ / 256 % 256)) || decide (x.kind = .quarter)
  d.entryLive e && due && (decide (i = 2) || (if x.engine = .solver then decide (i = 4 ∨ i = 5)
    else decide (x.engine.domain x.instance_ = i)))

/-- Some entry will, or a kernel run or an input of a problem that runs on demand takes effect at the next boundary. -/
def Dev.domScheduled (d : Dev) (i : Nat) : Bool :=
  d.waiting.any (fun w => decide (w.effB ≤ d.bNext) && (match w.cmd with
    | .runKernel _ p => (decide (i = 2) || decide (i = 7)) && d.entryLive (0x700 + p.slot.toNat)
    | .setProblemInput _ p => (decide (i = 2) || decide (i = 4) || decide (i = 5)) && d.entryLive (0x600 + p.id.toNat)
        && (d.entry (0x600 + p.id.toNat)).kind == .hostRun
    | _ => false)) ||
  [0, 5, 6, 8, 9, 10, 11, 12, 15].any (d.entryScheduled i)
    || d.solver.problems.any (fun x => d.entryScheduled i (0x600 + x.1))
    || d.sig.kernels.any (fun x => d.entryScheduled i (0x700 + x.1))

/-- The wake controller starts a domain (R55): 1,024 LSB before a boundary at which work comes for it, or where a ready task waits
for it. -/
def Dev.wakeDomain (d : Dev) (t i : Nat) : Dev :=
  if d.domBusy i ∨ (d.bNext ≤ t + 1024 ∧ d.domScheduled i) then d.startDomain t i else d

/-- DOMAIN_WAKE (R55). -/
def execDomainWake (t : Nat) (i : Fin 14) (s : State) : Host.Outcome State Fault Refusal :=
  s.act (fun d => (d.advance t).wakeDomain t i.val)

/-- DOMAIN_STOP (R53). -/
def execDomainStop (t : Nat) (i : Fin 14) (s : State) : Host.Outcome State Fault Refusal :=
  s.act (fun d => (d.advance t).stopDomain t i.val)

/-- The missing clock (R56): AON goes to IOSC, CT is invalid from the last good edge, and the mode becomes SAFE-OFF. -/
def Dev.clockLost (d : Dev) (t lastEdge : Nat) : Dev :=
  if d.time.valid then (d.onTime (fun x => { x with valid := false, lastGood := lastEdge })).stoReaction t 0x09 0 false
  else d

/-- XCLK_MISSING (R56). -/
def execXclkMissing (t lastEdge : Nat) (s : State) : Host.Outcome State Fault Refusal :=
  s.act (fun d => (d.advance t).clockLost t lastEdge)

/-! ### Messages that only answer -/

/-- ECHO (R114). -/
def semEcho (h : Hdr) (p : Echo) : Sem where
  op := 0x0100
  lenOk := h.length ≤ 1000
  link := .both
  eff := fun d => (d, some (.ok, p.data))

/-- The 16 bytes of a notice (R107). -/
def Notice.bytes (n : Notice) : List Byte :=
  leBytes 8 n.ct ++ wordBytes n.source ++ wordBytes n.code ++ wordBytes n.arg

/-- GET_NOTICES (R114): the notices returned leave the queue, and the lost count restarts. With an empty queue the first notice
sequence is that of the next notice (DESIGN CHOICE, log entry 139). -/
def semGetNotices (h : Hdr) (p : GetNotices) : Sem where
  op := 0x0101
  lenOk := h.length = 4
  link := .both
  range := fun _ => p.reserved == 0 && decide (1 ≤ p.max.toNat) && decide (p.max.toNat ≤ 62)
  eff := fun d =>
    let out := d.host.notices.take p.max.toNat
    let first := match out with
      | n :: _ => n.seq
      | [] => d.host.noticeSeq
    (d.onHost (fun x => { x with notices := x.notices.drop p.max.toNat, lost := 0 }),
     some (.ok, leBytes 1 out.length ++ [0] ++ wordBytes first ++ wordBytes d.host.lost ++ [0, 0]
       ++ out.flatMap Notice.bytes))

/-- SET_HOST_WATCHDOG (R106, R114). -/
def semSetHostWatchdog (h : Hdr) (p : SetHostWatchdog) : Sem where
  op := 0x0102
  lenOk := h.length = 8
  modes := [.ready, .commission, .safeOff]
  range := fun d => p.reserved == 0 && decide (p.action.toNat ≤ 1)
    && (p.period == 0 || decide (4 * d.time.tc ≤ p.period.toNat))
  eff := fun d => (d.onHost (fun x => { x with wd :=
    { period := p.period.toNat, action := p.action,
      deadline := if p.period = 0 then none else some (h.stamp + p.period.toNat) } }), some (.ok, []))

/-- A domain state as GET_POWER_STATE codes it (R68). -/
def DomState.code : DomState → Nat
  | .off => 0 | .retain => 1 | .stopped => 2 | .running => 3

/-- The state of a commanded transition as GET_POWER_STATE codes it (R68). -/
def TransState.code : TransState → Nat
  | .none => 0 | .pending => 1 | .taken => 2 | .cancelled => 3

/-- GET_POWER_STATE (R68). -/
def semGetPowerState (h : Hdr) : Sem where
  op := 0x0113
  lenOk := h.length = 0
  link := .both
  eff := fun d =>
    let p := d.power
    let doms := p.domains.foldr (fun s acc => s.code + 4 * acc) 0
    let (target, st, effB) := match p.latest with
      | some l => (l.target.code, l.state.code, l.effB)
      | none => (0xFF, 0, 0)
    (d, some (.ok, leBytes 1 p.mode.code ++ leBytes 1 (bit d.time.valid) ++ wordBytes p.offMask ++ leBytes 4 doms
      ++ wordBytes p.wake.sources ++ wordBytes p.wake.gpio ++ wordBytes p.wake.edge ++ [0] ++ wordBytes p.wake.alarm
      ++ leBytes 1 target ++ leBytes 1 st ++ [0, 0] ++ leBytes 8 effB))

/-- GET_BOOT_REPORT (R529). -/
def semGetBootReport (h : Hdr) : Sem where
  op := 0x0114
  lenOk := h.length = 0
  link := .both
  eff := fun d =>
    let b := d.boot
    let tries := (List.range 3).flatMap (fun i =>
      let a := b.attempts.getD i (0, 0)
      wordBytes a.1 ++ wordBytes a.2)
    (d, some (.ok, wordBytes b.cause ++ wordBytes (b.straps &&& 0x3F) ++ leBytes 1 b.role.toNat
      ++ wordBytes b.image.source ++ wordBytes b.image.major ++ wordBytes b.image.minor ++ wordBytes b.image.patch
      ++ wordBytes b.image.secver ++ leBytes 1 d.rollback ++ leBytes 1 b.attempts.length ++ tries
      ++ wordBytes b.bistFailed ++ wordBytes b.bistSkip ++ leBytes 1 b.step.toNat ++ [0] ++ wordBytes b.corrected
      ++ wordBytes b.disagree ++ leBytes 8 b.duration))

/-- GET_FUSES (R81, R86): the map as sensed at the last boot. -/
def semGetFuses (h : Hdr) : Sem where
  op := 0x0115
  lenOk := h.length = 0
  link := .both
  eff := fun d => (d, some (.ok, d.fuses.sensed.flatMap (fun r => wordBytes r)))

/-! ### Modes, domains, timing and policy -/

/-- The mode from which a SET_MODE is judged: the target of the pending transition, else the mode in force (R61). -/
def Dev.judgedFrom (d : Dev) : Mode :=
  match d.power.pending.getLast? with
  | some t => t.target
  | none => d.power.mode

/-- SET_MODE (R59 to R61, R65). -/
def semSetMode (h : Hdr) (p : SetMode) : Sem where
  op := 0x0110
  lenOk := h.length = 4
  link := .write 816 true (p.target == 6)
  range := fun _ => p.reserved == 0 && decide (p.target.toNat ≤ 7)
  cond := fun d =>
    match d.judgeMode d.judgedFrom (Mode.ofCode p.target.toNat) with
    | some st => some st
    | none => firstFail [(!d.power.pending.any (fun t => decide (t.effB = d.effectAt h.stamp)), .busy)]
  eff := fun d =>
    let e := d.effectAt h.stamp
    let tr : Trans := { target := Mode.ofCode p.target.toNat, stamp := h.stamp, effB := e, state := .pending }
    (d.onPower (fun x => { x with pending := x.pending ++ [tr], latest := some tr }),
     some (.ok, leBytes 8 h.stamp ++ leBytes 8 e))

/-- SET_WAKE (R64, R66). -/
def semSetWake (h : Hdr) (p : SetWake) : Sem where
  op := 0x0111
  lenOk := h.length = 12
  modes := [.ready, .safeOff]
  range := fun _ => p.reserved == 0 && decide (1 ≤ p.sources.toNat) && decide (p.sources.toNat ≤ 7)
    && decide (p.gpio.toNat ≤ 31) && decide (p.edge.toNat ≤ 1)
  eff := fun d => (d.onPower (fun x => { x with wake := p }), some (.ok, []))

/-- SET_DOMAINS (R50, R67). -/
def semSetDomains (h : Hdr) (p : SetDomains) : Sem where
  op := 0x0112
  lenOk := h.length = 4
  modes := [.ready]
  range := fun _ => p.reserved == 0 && p.offMask &&& ~~~offAllowed == 0
  cond := fun d => firstFail
    [((List.range 14).all (fun i => !p.offMask.getLsbD i || d.domOff i || !(d.domUsed i p.offMask || d.domClaimed i p.offMask)), .range)]
  eff := fun d => (d.await h.stamp (.setDomains h p), some (.ok, []))

/-- The device is a worker joined to a spine (R114, R437); one whose spine is PASSIVE is to join later (R428). -/
def Dev.joined (d : Dev) : Bool :=
  decide (d.boot.role = 0) && (match d.bus.sets[4]? with
    | some s => decide (s.state = .synced)
    | none => false)

/-- SET_TIMING (R19, R25, R114). That a joined worker's refusal comes with the command's own conditions, after LENGTH and RANGE,
is the model's choice (DESIGN CHOICE, log entry 140). -/
def semSetTiming (h : Hdr) (p : SetTiming) : Sem where
  op := 0x0120
  lenOk := h.length = 4
  modes := [.ready]
  range := fun _ => p.reserved == 0 && decide (p.tc.toNat ≤ 3) && decide (1 ≤ p.nSep.toNat) && decide (p.nSep.toNat ≤ 8)
  cond := fun d => firstFail [(!d.joined, .mode), (!d.pairHeld || d.mirrorFits (tcOfCode p.tc.toNat), .range)]
  eff := fun d =>
    let e := d.effectAt h.stamp
    (d.onTime (fun x => { x with pending := x.pending ++ [{ effB := e, tc := tcOfCode p.tc.toNat, nSep := p.nSep.toNat }] }),
     some (.ok, leBytes 8 e))

/-- SET_POLICY (R26, R114): the level is latched at the next entry to READY. -/
def semSetPolicy (h : Hdr) (p : SetPolicy) : Sem where
  op := 0x0121
  lenOk := h.length = 4
  modes := [.commission]
  range := fun _ => p.reserved == 0 && decide (p.level.toNat ≤ 1)
  eff := fun d => (d.onTime (fun x => { x with policy := if p.level = 1 then .autonomous else .mechanism }),
    some (.ok, []))

/-! ### Fuses and commanded reset -/

/-- ADVANCE_ROLLBACK (R81, R86): the bits from C up to the security version of the running image are blown in the row
and in both shadow rows (R78). -/
def semAdvanceRollback (h : Hdr) : Sem where
  op := 0x0116
  lenOk := h.length = 0
  link := .bothUnless 822
  modes := [.commission]
  eff := fun d =>
    let c := d.rollback
    let n := d.boot.image.secver.toNat - c
    let m : BitVec 64 := BitVec.ofNat 64 ((2 ^ n - 1) * 2 ^ c)
    (d.onFuses (fun f => { f with
      rows := f.rows.modify 10 (· ||| m)
      shadow0 := f.shadow0 ||| m
      shadow1 := f.shadow1 ||| m }), some (.ok, []))

/-- The bits of a row that R79 reserves. -/
def fuseReserved (row : Nat) : BitVec 64 :=
  match row with
  | 1 => 0xFFF8FF00
  | 9 => 0xFFFFFFFC00000000
  | 12 => 0xE080F80000000000
  | 13 => 0xFFFFFFFFFFFFFFFF
  | 14 => 0xFFFFFFFFFFFFFFFF
  | 15 => 0xFFFFFFFFFFFFFFFF
  | _ => 0

/-- The bits of a row inside DEV_UID, DEV_REV or the ROLLBACK row, which FUSE_PROGRAM may not blow (R81). -/
def fuseFixed (row : Nat) : BitVec 64 :=
  match row with
  | 0 => 0xFFFFFFFFFFFFFFFF
  | 1 => 0xFF
  | 10 => 0xFFFFFFFFFFFFFFFF
  | _ => 0

/-- FUSE_PROGRAM (R78, R81): a row takes at most four programmings. A mask that blows nothing new counts as one too (DESIGN
CHOICE, log entry 137). -/
def semFuseProgram (h : Hdr) (p : FuseProgram) : Sem where
  op := 0x0119
  lenOk := h.length = 12
  link := .write 822 false true
  modes := [.ready, .safeOff]
  range := fun _ => p.reserved == 0 && decide (p.row.toNat ≤ 15) && p.mask &&& fuseReserved p.row.toNat == 0
  cond := fun d => firstFail [(p.mask &&& fuseFixed p.row.toNat == 0, .fused),
    (decide (d.fuses.programmed.getD p.row.toNat 0 < 4), .fused)]
  eff := fun d => (d.onFuses (fun f => { f with
    rows := f.rows.modify p.row.toNat (· ||| p.mask)
    programmed := f.programmed.modify p.row.toNat (· + 1) }), some (.ok, []))

/-- DEVICE_RESET (R86): the reset comes at its boundary. -/
def semDeviceReset (h : Hdr) (p : DeviceReset) : Sem where
  op := 0x0117
  lenOk := h.length = 4
  link := .write 818 true true
  modes := [.ready, .safeOff]
  range := fun _ => p.key == 0x52534554
  eff := fun d => (d.await h.stamp (.deviceReset h p), some (.ok, []))

/-! ### Self-test (R528) -/

/-- RUN_SELFTEST (R528): the reply comes when the tests have run. -/
def semRunSelftest (h : Hdr) (p : RunSelftest) : Sem where
  op := 0x0123
  lenOk := h.length = 4
  link := .write 819 false true
  modes := [.ready]
  range := fun _ => p.reserved == 0 && decide (1 ≤ p.blocks.toNat) && decide (p.blocks.toNat ≤ 15)
  eff := fun d => (d.onHost (fun x => { x with selftest := some { hdr := h, blocks := p.blocks, stamp := h.stamp } }),
    none)

/-- The requested tests have run, with the channels that failed (R528). -/
def Dev.selftestDone (d : Dev) (t : Nat) (r : SelftestRun) : Dev :=
  match d.host.selftest with
  | some st =>
    let tested := [d.selfMask st.blocks 0 3, d.selfMask st.blocks 1 4, d.selfMask st.blocks 2 5, d.selfMask st.blocks 3 6]
    let failed := [r.lanesFailed.toNat, r.pipesFailed.toNat, r.coresFailed.toNat, r.pwmFailed.toNat]
    d.endSelftest t st.hdr (List.zipWith (· &&& ·) failed tested) tested
  | none => d

/-- SELFTEST_DONE (R528). -/
def execSelftestDone (t : Nat) (r : SelftestRun) (s : State) : Host.Outcome State Fault Refusal :=
  s.act (fun d => (d.advance t).selftestDone t r)

/-! ### The host watchdog (R106) -/

/-- The watchdog is looked at: past its deadline it reports, and with action 1 in RUN or HOLD every configured arm
stops as by STOP_ARMS. It runs again from the next taken message. -/
def Dev.hostWatchdog (d : Dev) (t : Nat) : Dev :=
  match d.host.wd.deadline with
  | some dl =>
    if dl < t ∧ d.power.mode ≠ .dormant then
      let act := d.host.wd.action
      let d1 := ((d.onHost (fun x => { x with wd := { x.wd with deadline := none } })).irq 6).notice 1 0 t 0x0104
        (act.setWidth 32) true
      if act = 1 ∧ (d.power.mode = .run ∨ d.power.mode = .hold) then
        let e := d.effectAt t
        d1.mapArms (fun _ a => match a.stopNext with
          | some _ => a
          | none => { a with stopNext := some (e, 2, t) })
      else d1
    else d
  | none => d

/-- HOST_WATCHDOG (R106). -/
def execHostWatchdog (t : Nat) (s : State) : Host.Outcome State Fault Refusal :=
  s.act (fun d => (d.advance t).hostWatchdog t)

/-! ### The commands -/

def execEcho (h : Hdr) (p : Echo) (s : State) : Host.Outcome State Fault Refusal := s.act (runCmd (semEcho h p) h)

def execGetNotices (h : Hdr) (p : GetNotices) (s : State) : Host.Outcome State Fault Refusal :=
  s.act (runCmd (semGetNotices h p) h)

def execSetHostWatchdog (h : Hdr) (p : SetHostWatchdog) (s : State) : Host.Outcome State Fault Refusal :=
  s.act (runCmd (semSetHostWatchdog h p) h)

def execSetMode (h : Hdr) (p : SetMode) (s : State) : Host.Outcome State Fault Refusal :=
  s.act (runCmd (semSetMode h p) h)

def execSetWake (h : Hdr) (p : SetWake) (s : State) : Host.Outcome State Fault Refusal :=
  s.act (runCmd (semSetWake h p) h)

def execSetDomains (h : Hdr) (p : SetDomains) (s : State) : Host.Outcome State Fault Refusal :=
  s.act (runCmd (semSetDomains h p) h)

def execGetPowerState (h : Hdr) (s : State) : Host.Outcome State Fault Refusal := s.act (runCmd (semGetPowerState h) h)

def execGetBootReport (h : Hdr) (s : State) : Host.Outcome State Fault Refusal := s.act (runCmd (semGetBootReport h) h)

def execGetFuses (h : Hdr) (s : State) : Host.Outcome State Fault Refusal := s.act (runCmd (semGetFuses h) h)

def execAdvanceRollback (h : Hdr) (s : State) : Host.Outcome State Fault Refusal :=
  s.act (runCmd (semAdvanceRollback h) h)

def execDeviceReset (h : Hdr) (p : DeviceReset) (s : State) : Host.Outcome State Fault Refusal :=
  s.act (runCmd (semDeviceReset h p) h)

def execFuseProgram (h : Hdr) (p : FuseProgram) (s : State) : Host.Outcome State Fault Refusal :=
  s.act (runCmd (semFuseProgram h p) h)

def execSetTiming (h : Hdr) (p : SetTiming) (s : State) : Host.Outcome State Fault Refusal :=
  s.act (runCmd (semSetTiming h p) h)

def execSetPolicy (h : Hdr) (p : SetPolicy) (s : State) : Host.Outcome State Fault Refusal :=
  s.act (runCmd (semSetPolicy h p) h)

def execRunSelftest (h : Hdr) (p : RunSelftest) (s : State) : Host.Outcome State Fault Refusal :=
  s.act (runCmd (semRunSelftest h p) h)

end Sys2Proof.Machine
end

