-- ==== Sys2Proof/Machine/DispatchUnit.lean ====
section
/-! DEFINITION. The dispatch unit (spec/15_dispatch_unit.md): releases, dispatch decisions and preemption, tasks that end
unstarted, cancels, back-pressure, the trace's write queue, and the commands of class 0x09 (R333 to R351). -/

namespace Sys2Proof.Machine

/-- All modes except DORMANT and SHADOW. -/
def working : List Mode := [.commission, .ready, .run, .tune, .hold, .safeOff]

/-- An entry of a vendor kernel. -/
def vendorOf (e : Nat) : Bool := decide (e ≤ 6) || decide (0x100 ≤ e ∧ e < 0x600)

/-! ### Releases (R334) -/

/-- The entries that may have a BOUNDARY source. -/
def Dev.boundaryEntries (d : Dev) : List Nat :=
  [0, 6, 8, 9, 11, 12, 15] ++ d.solver.problems.map (fun x => 0x600 + x.1) ++ d.sig.kernels.map (fun x => 0x700 + x.1)

/-- A BOUNDARY entry fires for the present period, once, when k mod n equals its phase. -/
def Dev.fireBoundary (d : Dev) (e : Nat) : Dev :=
  let x := d.entry e
  let n := max 1 (x.match_ % 256)
  if x.kind = .boundary ∧ d.time.k % n = x.match_ / 256 % 256 ∧ (look d.disp.table e).lastK ≠ some d.time.k
  then d.fire d.bk d.bk e else d

/-- A TIMER entry fires when its interval has passed since the last time (R333). -/
def Dev.fireTimer (d : Dev) (t e : Nat) : Dev :=
  let due : Bool := match (look d.disp.table e).lastAt with
    | some a => decide (a + (d.entry e).match_ ≤ t)
    | none => true
  if due ∧ d.entryLive e then (d.onCount e (fun c => { c with lastAt := some t })).fire t t e else d

/-- The source of an entry fires (R334). BOUNDARY entries fire at most once a period, and TIMER entries once an interval; frames,
edges, the mailbox, quarter points and host runs have rows and commands of their own. -/
def Dev.taskRelease (d : Dev) (t e : Nat) : Dev :=
  match (d.entry e).kind with
  | .boundary => d.fireBoundary e
  | .timer => d.fireTimer t e
  | _ => d

/-- TASK_RELEASE (R334). -/
def execTaskRelease (t : Nat) (e : Fin 2048) (s : State) : Host.Outcome State Fault Refusal :=
  s.act (fun d => ((d.advance t).cancelsBefore t).taskRelease t e.val)

/-! ### Dispatch (R339, R319) -/

/-- The order of the ready lists: priority, preempted tasks first, then the stamp of becoming ready, then the entry. -/
def Dev.readyBefore (d : Dev) (a b : Task) : Bool :=
  let key := fun (t : Task) => ((d.entry t.entry).priority, bit (!t.preempted), t.readyAt, t.entry)
  let (p, q, r, e) := key a
  let (p', q', r', e') := key b
  decide (p < p') || (decide (p = p') && (decide (q < q') || (decide (q = q')
    && (decide (r < r') || (decide (r = r') && decide (e ≤ e'))))))

/-- The ready lists, one after the other. -/
def Dev.readyList (d : Dev) : List Task := (d.disp.tasks.filter (fun t => decide (t.phase = .ready))).mergeSort d.readyBefore

/-- The running task of a signal core. -/
def Dev.onCore (d : Dev) (c : Nat) : Option Task :=
  d.disp.tasks.find? (fun t => decide (t.phase = .running) && decide ((d.entry t.entry).engine = .sig) && decide (t.unit = c))

/-- Cycles are charged to a core. -/
def Dev.chargeCore (d : Dev) (core cycles : Nat) : Dev :=
  d.onSig (fun s => { s with cores := upd s.cores core (fun c => { c with busyNow := c.busyNow + BitVec.ofNat 32 cycles }) })

/-- A core with the brine store, and both put back. -/
def Dev.coreRun (d : Dev) (core : Nat) : SignalRun := { core := look d.sig.cores core, brine := d.host }

def Dev.putRun (d : Dev) (core : Nat) (r : SignalRun) : Dev :=
  { (d.onSig (fun s => { s with cores := put s.cores core r.core })) with host := r.brine }

/-- A core has run its task up to an instant: the cycles since it began there are charged to it. -/
def Dev.runTo (d : Dev) (t : Nat) (x : Task) : Dev :=
  let n := ctCycles (t - x.since)
  (((d.putRun x.unit (SignalRun.run (kernelOf x.entry).isSome t n (d.coreRun x.unit)).1).chargeCore x.unit n)).onDisp (fun y =>
    { y with tasks := y.tasks.map (fun u => if u = x then { u with since := t, ran := u.ran + n } else u) })

/-- A core takes an interrupt (R317). -/
def Dev.interruptCore (d : Dev) (t core : Nat) (user : Bool) : Dev := d.putRun core ((d.coreRun core).interrupt user t)

/-- The context that the vendor runtime saves of a core (R319), to go on where IPC and ISTAT say. -/
def Core.save (c : Core) : CoreSave :=
  { g := c.g, ac := c.ac, ls := c.ls, le := c.le, lc := c.lc, st := c.istat, svp := c.svp, odd := c.odd, pc := c.ipc }

/-- A saved context stands in a core again, and the task goes on (R318, R319). -/
def Core.restore (c : Core) (s : CoreSave) : Core :=
  { c with g := s.g, ac := s.ac, ls := s.ls, le := s.le, lc := s.lc, st := s.st, svp := s.svp, odd := s.odd, pc := s.pc,
           slots := 0, flight := [] }

/-- The cycles of a save or a restore (R319). -/
def saveCycles : Nat := 96

/-- A task preempts the running one of its core (R319, R325): it has strictly higher priority, or a vendor kernel meets
a user kernel; a task that uses the ACS unit masks it. -/
def Dev.preempts (d : Dev) (new old : Task) : Bool :=
  !decide (0x100 ≤ old.entry ∧ old.entry < 0x600)
    && (decide ((d.entry new.entry).priority < (d.entry old.entry).priority)
      || ((kernelOf old.entry).isSome && vendorOf new.entry))

/-- A lane is free: no run is on it, and no other task that was given to it (R339). -/
def Dev.laneFree (d : Dev) (l : Nat) : Bool :=
  (look d.solver.lanes l).running.isNone && !d.disp.tasks.any (fun u => decide (u.phase = .running)
    && decide ((d.entry u.entry).engine = .solver) && decide (u.unit = l))

/-- The unit that is free for a ready task, or made free by preemption. A lane test takes its own lane (R234). -/
def Dev.unitFor (d : Dev) (t : Task) : Option Nat :=
  let x := d.entry t.entry
  match x.engine with
  | .none => none
  | .sig =>
    match d.onCore x.instance_ with
    | none => some x.instance_
    | some old => if d.preempts t old then some x.instance_ else none
  | .solver =>
    if 0x720 ≤ t.entry then (if d.laneFree (t.entry - 0x720) then some (t.entry - 0x720) else none) else d.pool.find? d.laneFree
  | eng => if d.disp.tasks.any (fun u => decide (u.phase = .running) && decide ((d.entry u.entry).engine = eng)) then none
    else some 0

/-- A task of the ready list is changed. -/
def Dev.onTask (d : Dev) (t : Task) (f : Task → Task) : Dev :=
  d.onDisp (fun x => { x with tasks := x.tasks.map (fun u => if u = t then f u else u) })

/-- The address where a task of a signal core starts: the entry of its image for a user kernel (R330). -/
def Dev.startAt (d : Dev) (e : Nat) : BitVec 18 :=
  match kernelOf e with
  | some k => match (look d.sig.kernels k).cfg with
    | some c => BitVec.ofNat 18 (0x30000 + c.entry.toNat)
    | none => Config.vendorStart (d.entry e).work
  | none => Config.vendorStart (d.entry e).work

/-- A core takes up a task: at its start with interrupts on, or where a preempted one left off, in 96 cycles (R317, R319). -/
def Dev.enterCore (d : Dev) (task : Task) (u : Nat) : Dev :=
  match task.saved with
  | some s => (d.onSig (fun x => { x with cores := upd x.cores u (fun c => c.restore s) })).chargeCore u saveCycles
  | none => d.onSig (fun x => { x with cores := upd x.cores u (fun c =>
      { c with pc := d.startAt task.entry, slots := 0, flight := [], st := c.st ||| 2 }) })

/-- The running task of a core is preempted (R317 to R319): the core has run it up to now and takes the interrupt, and the runtime
saves its context in 96 cycles. -/
def Dev.preemptTask (d : Dev) (t : Nat) (old : Task) : Dev :=
  let d1 := (d.interruptCore t old.unit (kernelOf old.entry).isSome).chargeCore old.unit saveCycles
  (d1.onDisp (fun y => { y with tasks := y.tasks.map (fun o => if o = old
    then { o with phase := .ready, preempted := true, saved := some (look d1.sig.cores old.unit).save } else o) })).traceEntry t 0x06
      old.entry old.unit 0

/-- A task starts on its unit: a solver run captures its inputs (R221, R234), a user kernel runs. -/
def Dev.startTask (d : Dev) (task : Task) (u : Nat) : Dev :=
  match problemOf task.entry, kernelOf task.entry with
  | some id, _ =>
    (d.onProblem id (fun p => { p with run := some { dl := task.dl, lane := some u, a := p.a, b := p.b } })).onSolver
      (fun s => { s with lanes := upd s.lanes u (fun l => { l with running := some id }) })
  | _, some k => d.onSig (fun s => { s with kernels := upd s.kernels k (fun x => { x with running := true, pending := false }) })
  | _, _ => d

/-- The core of a ready task is free for it: its running task, which has run up to now, is preempted where there is one. None where
that task has its interrupts off (R317). -/
def Dev.clearCore (d : Dev) (t u : Nat) : Option Dev :=
  match d.onCore u with
  | none => some d
  | some old =>
    let d1 := d.runTo t old
    match d1.onCore u with
    | none => some d1
    | some o => if (look d1.sig.cores u).st.getLsbD 1 then some (d1.preemptTask t o) else none

/-- A dispatch decision for a ready task: the running task of its core is preempted where there is one; DISPATCH is
written, or RESUME for a task that was preempted; a core that is retired refuses its task (R339, R344). -/
def Dev.dispatch1 (d : Dev) (t : Nat) (task : Task) : Dev :=
  let x := d.entry task.entry
  if x.engine = .sig ∧ d.isRetired 5 x.instance_ then
    ((d.freeUnit task).dropTask task).traceEntry t 0x0E task.entry x.instance_ 0
  else
    match d.unitFor task with
    | none => d
    | some u =>
      match if x.engine = .sig then d.clearCore t u else some d with
      | none => d
      | some d1 =>
        let d2 := (d1.startDomain t (x.engine.domain u)).onTask task (fun o => { o with
          phase := .running, unit := u, preempted := false, saved := none,
          since := if task.saved.isSome then t + cyclesCt saveCycles else t })
        let d3 := d2.traceEntry t (if task.preempted then 0x07 else 0x03) task.entry u 0
        let d4 := if x.engine = .sig then d3.enterCore task u else d3
        (d4.startTask { task with unit := u } u).onDisp (fun y =>
          { y with latency := if task.preempted then y.latency else max y.latency (t - task.readyAt) })

/-- The unit holds its next dispatch cycle: fewer than 32 places are free in the write queue of the trace (R345). -/
def Dev.cycleHeld (d : Dev) : Bool := decide (480 < d.disp.trace.queue.length)

/-- Step 7 of R337: dispatch decisions. -/
def Dev.dispatchAll (d : Dev) (t : Nat) : Dev :=
  d.readyList.foldl (fun d x => if x ∈ d.disp.tasks then d.dispatch1 t x else d) d

/-! ### Tasks that end unstarted (R337 step 6) -/

/-- A task ends unstarted at its deadline: DEADLINE is written, and UNSTARTED posted for firmware tasks of priority 0
to 2 (R348). -/
def Dev.endUnstarted (d : Dev) (t : Nat) (task : Task) : Dev :=
  let x := d.entry task.entry
  let d1 := ((d.freeUnit task).dropTask task).traceEntry t 0x08 task.entry 0 0
  if !x.host ∧ x.priority ≤ 2 then d1.notice 2 0 t 0x0903 (BitVec.ofNat 32 task.entry) true else d1

/-- The waiting and ready tasks whose deadline has passed, preempted ones too (R337). -/
def Dev.expired (d : Dev) (t : Nat) : List Task :=
  d.disp.tasks.filter (fun x => decide (x.phase ≠ .running) && decide (x.dl < t))

/-! ### Cancels (R338, R350) -/

/-- CANCEL_TASK (R338, R349, R350). The dispatch cycle comes within 1 µs of the acceptance stamp; which one is free. The reply is
posted when the cancel takes effect in it. -/
def semCancelTask (h : Hdr) (p : CancelTask) : Sem where
  op := 0x0920
  lenOk := h.length = 4
  modes := working
  range := fun _ => p.reserved == 0 && decide (p.kind.toNat ≤ 1)
    && (if p.kind = 0 then decide (192 ≤ p.id.toNat) else decide (p.id.toNat ≤ 7))
  cond := fun d => firstFail [(!d.isArbiter, .range)]
  eff := fun d =>
    let e := if p.kind = 0 then 0x600 + p.id.toNat else 0x700 + p.id.toNat
    ((d.draw 1).onDisp (fun x => { x with cancels := x.cancels ++
      [{ hdr := h, entry := e, cycle := h.stamp + Config.freeNat d.fresh % 1025 }] }), none)

/-! ### The other commands of class 0x09 (R346, R349, R351) -/

/-- SET_TRACE (R346, R349). -/
def semSetTrace (h : Hdr) (p : SetTrace) : Sem where
  op := 0x0900
  lenOk := h.length = 8
  link := .write 820 true true
  modes := working
  range := fun _ => p.reserved == 0 && decide (p.mode.toNat ≤ 1) && decide (p.restart.toNat ≤ 1)
    && decide (p.freeze.toNat ≤ 1) && decide (p.post.toNat ≤ 65535)
  eff := fun d => (d.await h.stamp (.setTrace h p), some (.ok, []))

/-- SET_TRACE at its boundary. -/
def Dev.applySetTrace (d : Dev) (p : SetTrace) : Dev :=
  d.onDisp (fun x =>
    let y : Trace := { x.trace with fill := p.mode = 1, freeze := p.freeze = 1, post := p.post.toNat,
                                    left := if p.freeze = 1 then x.trace.left else none }
    { x with trace := if p.restart = 1
        then { y with store := [], queue := [], left := none, frozen := false, wp := 0, wraps := 0 } else y })

/-- TRACE_MARK (R349). -/
def semTraceMark (h : Hdr) (p : TraceMark) : Sem where
  op := 0x0901
  lenOk := h.length = 4
  link := .write 820 true true
  range := fun _ => p.reserved == 0
  eff := fun d => (d.trace h.stamp 0x0D p.mark 0 0 0, some (.ok, []))

/-- The number of a back-pressured source kind in GET_DISPATCH_STATE (R351). -/
def EvKind.pressBit : EvKind → Option Nat
  | .frame => some 0 | .edge => some 1 | .mailbox => some 2 | .trigger => some 3 | .hostRun => some 4 | _ => none

/-- GET_DISPATCH_STATE (R351). -/
def semGetDispatchState (h : Hdr) : Sem where
  op := 0x0910
  lenOk := h.length = 0
  link := .both
  eff := fun d =>
    let x := d.disp
    let ready := d.readyList
    let mask := (List.range 5).foldl (fun m i => if x.table.any (fun e => e.2.pressed
      && decide ((d.entry e.1).kind.pressBit = some i)) then m + 2 ^ i else m) 0
    (d, some (.ok, (List.range 8).flatMap (fun p => leBytes 2 (ready.filter (fun t =>
        decide ((d.entry t.entry).priority = p))).length)
      ++ leBytes 2 (640 - d.descriptors false) ++ leBytes 2 (384 - d.descriptors true) ++ leBytes 2 mask ++ [0, 0]
      ++ leBytes 1 (bit x.trace.fill) ++ leBytes 1 (bit x.trace.frozen) ++ [0, 0] ++ leBytes 4 x.trace.wp
      ++ wordBytes x.trace.wraps ++ leBytes 8 x.trace.written ++ leBytes 4 x.latency))

/-- GET_EVENT_ENTRY (R333, R351). -/
def semGetEventEntry (h : Hdr) (p : GetEventEntry) : Sem where
  op := 0x0911
  lenOk := h.length = 4
  link := .both
  range := fun _ => p.reserved == 0 && decide (p.entry.toNat ≤ 2047)
  eff := fun d =>
    let x := d.entry p.entry.toNat
    (d, some (.ok, leBytes 1 x.kind.code ++ leBytes 1 (bit x.host) ++ leBytes 1 x.priority ++ leBytes 1 x.group
      ++ leBytes 1 x.rank ++ leBytes 1 x.stage ++ leBytes 1 x.engine.code ++ leBytes 1 x.instance_ ++ leBytes 4 x.match_
      ++ leBytes 4 x.dlOff ++ leBytes 4 x.work ++ [0, 0, 0, 0] ++ leBytes 8 (look d.disp.table p.entry.toNat).fires))

def execSetTrace (h : Hdr) (p : SetTrace) (s : State) : Host.Outcome State Fault Refusal := s.act (runCmd (semSetTrace h p) h)

def execTraceMark (h : Hdr) (p : TraceMark) (s : State) : Host.Outcome State Fault Refusal :=
  s.act (runCmd (semTraceMark h p) h)

def execGetDispatchState (h : Hdr) (s : State) : Host.Outcome State Fault Refusal :=
  s.act (runCmd (semGetDispatchState h) h)

def execGetEventEntry (h : Hdr) (p : GetEventEntry) (s : State) : Host.Outcome State Fault Refusal :=
  s.act (runCmd (semGetEventEntry h p) h)

def execCancelTask (h : Hdr) (p : CancelTask) (s : State) : Host.Outcome State Fault Refusal :=
  s.act (runCmd (semCancelTask h p) h)

/-! ### Back-pressure (R341) and the write queue (R345) -/

/-- A host run refused with BUSY finds its source back-pressured (R331, R341): BP_ON where it was not. -/
def Dev.pressHostRun (d : Dev) (t e : Nat) : Dev :=
  let c := look d.disp.table e
  let d1 := d.onCount e (fun c => { c with pressed := true, pressedAt := if c.pressed then c.pressedAt else t })
  if c.pressed then d1 else d1.trace t 0x09 (d.sourceOf e) 0 0 0

/-- The pressure on the source of an entry is looked at: where it has ended, BP_OFF is written and what the source held
is released, the oldest frame alone, an edge or trigger as one task with the first stamp and the count of the further ones. An entry
that the mode suspends releases nothing (R347). -/
def Dev.releasePressure (d : Dev) (t e : Nat) : Dev :=
  let c := look d.disp.table e
  if !c.pressed ∨ d.pressedNow e ∨ !d.entryLive e then d
  else
    let x := d.entry e
    let d1 := d.trace t 0x0A (d.sourceOf e) 0 0 0
    if c.held = 0 ∨ x.kind = .mailbox ∨ x.kind = .hostRun ∨ x.kind = .free then
      d1.onCount e (fun c => { c with held := 0, pressed := false, said := false })
    else if x.kind = .frame then
      let d2 := d1.newTask t c.heldAt e
      let d3 := d2.onCount e (fun c => { c with
        held := c.held - 1, heldAt := (c.stamps.drop 1).headD 0, stamps := c.stamps.drop 1, pressed := decide (1 < c.held),
        pressedAt := t, said := false })
      if c.held = 1 then d3 else d3.trace t 0x09 (d.sourceOf e) 0 0 0
    else
      (d1.newTask t c.heldAt e (c.held - 1)).onCount e (fun c =>
        { c with held := 0, heldAt := t, pressed := false, pressedAt := t, said := false })

/-- BACKPRESSURE_RELEASE (R341). -/
def execBackpressureRelease (t : Nat) (e : Fin 2048) (s : State) : Host.Outcome State Fault Refusal :=
  s.act (fun d => ((d.advance t).cancelsBefore t).releasePressure t e.val)

/-- A source that has stayed back-pressured for a whole period is posted, at a boundary (R348). -/
def Dev.pressureNotices (d : Dev) (t : Nat) : Dev :=
  d.disp.table.foldl (fun d e =>
    if e.2.pressed ∧ !e.2.said ∧ e.2.pressedAt + d.time.tc ≤ t then
      (d.onCount e.1 (fun c => { c with said := true })).notice 2 0 t 0x0901 ((d.sourceOf e.1).setWidth 32) false
    else d) d

/-- TRACE_RECORD_WRITE (R345). -/
def execTraceRecordWrite (t : Nat) (s : State) : Host.Outcome State Fault Refusal :=
  s.act (fun d => (d.advance t).traceDrain t)

end Sys2Proof.Machine
end

