-- ==== Sys2Proof/Machine/Real.lean ====
section
/-! DEFINITION. Exact numbers, and the vectors, rotations and poses that the firmware's rules are written in. A formula of the
spec is formed exactly on rationals. Where the spec rounds an elementary function once (R156, R185, R201, R269), it is evaluated
as finely as that rounding needs; where it states no arithmetic, the functions and roundings of Config stand (log entry 144). -/

namespace Sys2Proof.Machine

/-- CT LSB in a second (R8). -/
def lsbPerSecond : Nat := 1024000000

/-- A fraction. -/
def frac (n d : Int) : Rat := n / d

/-- rne of an exact number (R169). -/
def rneRat (x : Rat) : Int := rneDiv x.num x.den

/-- A word of fraction bits as a number. -/
def ofWord (q : Nat) (w : Int) : Rat := frac w (2 ^ q)

/-! ### Elementary functions rounded once -/

/-- The series of arctan(1 / n) with `p` fraction bits. -/
def arctanInv (n : Int) : Nat → Int → Nat → Int → Int
  | 0, _, _, sum => sum
  | fuel + 1, term, k, sum => arctanInv n fuel (-term / (n * n)) (k + 2) (sum + term / k)

/-- π with about `p` fraction bits. -/
def piAt (p : Nat) : Int :=
  16 * arctanInv 5 (p / 4 + 4) (2 ^ p / 5) 1 0 - 4 * arctanInv 239 (p / 15 + 4) (2 ^ p / 239) 1 0

/-- One sum of the alternating series of a cosine (`k` = 0) or sine (`k` = 1), with `p` fraction bits. -/
def trigSum (p : Nat) (x : Int) : Nat → Nat → Int → Int → Int
  | 0, _, _, sum => sum
  | n + 1, k, term, sum =>
    trigSum p x n (k + 2) (-(term * x / 2 ^ p * x / 2 ^ p) / ((k + 1) * (k + 2) : Nat)) (sum + term)

/-- sin(2π n / m) with about `p` fraction bits, for any turn n / m. -/
def sinAt (p n m : Nat) : Int :=
  let r := n % m
  let neg := decide (m < 2 * r)
  let h := if neg then m - r else r
  let k := if m < 4 * h then m - 2 * h else 2 * h
  let v := if 4 * k ≤ m
    then (let x := 2 * piAt p * k / (2 * m); trigSum p x (p / 4) 1 x 0)
    else trigSum p (2 * piAt p * (m - 2 * k : Int) / (4 * m)) (p / 4) 0 (2 ^ p) 0
  if neg then -v else v

/-- rne of a real number of which `f` gives approximations, to within 2^(96 - p) at `p` fraction bits. It is decided at the first
precision that tells on which side of a half it lies; a number that the last one leaves undecided is a half. -/
def rneAt (f : Nat → Int) : List Nat → Int
  | [] => rneDiv (rneDiv (2 * f 8192) (2 ^ 8192)) 2
  | p :: rest =>
    let lo := rneDiv (f p - 2 ^ 96) (2 ^ p)
    if lo = rneDiv (f p + 2 ^ 96) (2 ^ p) then lo else rneAt f rest

/-- rne of a real number by approximations (R201). -/
def rneReal (f : Nat → Int) : Int := rneAt f [128, 512, 2048, 8192]

/-- rne(a sin(2π n / m)). -/
def rneSin (a : Int) (n m : Nat) : Int := rneReal (fun p => a * sinAt p n m)

/-- rne(a cos(2π n / m)). -/
def rneCos (a : Int) (n m : Nat) : Int := rneReal (fun p => a * sinAt p (4 * n + m) (4 * m))

/-- cos and sin of a turn in Q2.30, each rounded half to even (R269). -/
def trigQ30 (x : Rat) : Int × Int :=
  let n := (x.num % (x.den : Int)).toNat
  (rneCos (2 ^ 30) n x.den, rneSin (2 ^ 30) n x.den)

/-- Cosine, sine and 2π of exact arithmetic, to 192 fraction bits: the formulas that the spec gives the firmware are formed
exactly, and a value that it rounds or compares is decided by these (log entry 144). -/
def cosTurn (x : Rat) : Rat :=
  let n := (x.num % (x.den : Int)).toNat
  frac (sinAt 192 (4 * n + x.den) (4 * x.den)) (2 ^ 192)

def sinTurn (x : Rat) : Rat := frac (sinAt 192 (x.num % (x.den : Int)).toNat x.den) (2 ^ 192)

def twoPi : Rat := frac (2 * piAt 192) (2 ^ 192)

/-! ### Vectors and matrices -/

/-- The sum of two vectors. -/
def rAdd (a b : List Rat) : List Rat := List.zipWith (· + ·) a b

/-- The difference of two vectors. -/
def rSub (a b : List Rat) : List Rat := List.zipWith (· - ·) a b

/-- A vector times a number. -/
def rScale (k : Rat) (a : List Rat) : List Rat := a.map (k * ·)

/-- The sum of a list. -/
def rSum (l : List Rat) : Rat := l.foldl (· + ·) 0

/-- The dot product. -/
def rDot (a b : List Rat) : Rat := rSum (List.zipWith (· * ·) a b)

/-- The cross product of two vectors of three. -/
def rCross (a b : List Rat) : List Rat :=
  let x := fun i => a.getD i 0
  let y := fun i => b.getD i 0
  [x 1 * y 2 - x 2 * y 1, x 2 * y 0 - x 0 * y 2, x 0 * y 1 - x 1 * y 0]

/-- The length of a vector. -/
def rNorm (a : List Rat) : Rat := if rDot a a = 0 then 0 else Config.root (rDot a a)

/-- A matrix, row by row, times a vector. -/
def matVec (m : List (List Rat)) (v : List Rat) : List Rat := m.map (fun r => rDot r v)

/-- The transpose of a matrix of `n` columns. -/
def matT (n : Nat) (m : List (List Rat)) : List (List Rat) := (List.range n).map (fun j => m.map (fun r => r.getD j 0))

/-- The product of two matrices, the second of `n` columns. -/
def matMul (n : Nat) (a b : List (List Rat)) : List (List Rat) := a.map (fun r => matVec (matT n b) r)

/-- The greatest magnitude of a list. -/
def maxAbs (l : List Rat) : Rat := l.foldl (fun m x => max m (max x (-x))) 0

/-- A store of a build step (R219, R251): the values of the words of `v` in the format of the problem's place, and the first
saturated word, if `o` is none yet and a word saturates. -/
def keptAll (id place : Nat) (v : List Rat) (o : Option Int) : List Rat × Option Int :=
  let q := Config.storeFormat id place
  let w := v.map (fun x => rneRat (x * 2 ^ q))
  (w.map (fun x => ofWord q (sat32 x)), if o.isSome then o else (w.find? (fun x => decide (sat32 x ≠ x))).map sat32)

/-! ### Rotations -/

/-- The product of two quaternions w, x, y, z. -/
def qMul (a b : List Rat) : List Rat :=
  let x := fun i => a.getD i 0
  let y := fun i => b.getD i 0
  [x 0 * y 0 - x 1 * y 1 - x 2 * y 2 - x 3 * y 3, x 0 * y 1 + x 1 * y 0 + x 2 * y 3 - x 3 * y 2,
   x 0 * y 2 - x 1 * y 3 + x 2 * y 0 + x 3 * y 1, x 0 * y 3 + x 1 * y 2 - x 2 * y 1 + x 3 * y 0]

/-- The conjugate: the inverse rotation. -/
def qConj (a : List Rat) : List Rat := [a.getD 0 0, -a.getD 1 0, -a.getD 2 0, -a.getD 3 0]

/-- The rotation matrix of a quaternion, as it stands (log entry 145). -/
def qMat (q : List Rat) : List (List Rat) :=
  let w := q.getD 0 0
  let x := q.getD 1 0
  let y := q.getD 2 0
  let z := q.getD 3 0
  [[w * w + x * x - y * y - z * z, 2 * (x * y - w * z), 2 * (x * z + w * y)],
   [2 * (x * y + w * z), w * w - x * x + y * y - z * z, 2 * (y * z - w * x)],
   [2 * (x * z - w * y), 2 * (y * z + w * x), w * w - x * x - y * y + z * z]]

/-- A vector rotated by a quaternion. -/
def qRot (q v : List Rat) : List Rat := matVec (qMat q) v

/-- The quaternion of a rotation matrix of less than half a turn. -/
def qOfMat (m : List (List Rat)) : List Rat :=
  let e := fun i j => (m.getD i []).getD j 0
  let w := Config.root (1 + e 0 0 + e 1 1 + e 2 2) / 2
  [w, (e 2 1 - e 1 2) / (4 * w), (e 0 2 - e 2 0) / (4 * w), (e 1 0 - e 0 1) / (4 * w)]

/-- The quaternion with the same rotation whose w is not negative. -/
def qShort (q : List Rat) : List Rat := if q.getD 0 0 < 0 then rScale (-1) q else q

/-- The rotation vector of a quaternion, in rad: the shortest rotation. -/
def rotVec (q : List Rat) : List Rat :=
  let s := qShort q
  let n := rNorm (s.drop 1)
  if rDot (s.drop 1) (s.drop 1) = 0 then [0, 0, 0] else rScale (2 * Config.atan2 n (s.getD 0 0) / n) (s.drop 1)

/-- The quaternion of a rotation vector in rad. -/
def qOfVec (v : List Rat) : List Rat :=
  let n := rNorm v
  if rDot v v = 0 then [1, 0, 0, 0] else Config.cosRad (n / 2) :: rScale (Config.sinRad (n / 2) / n) v

/-- The rotation from one orientation to another, in the frame that both are given in. -/
def qFromTo (q0 q1 : List Rat) : List Rat := qMul q1 (qConj q0)

/-- slerp(Q0, Q1, u): the share u of the shortest rotation from Q0 to Q1 (R125). -/
def slerp (q0 q1 : List Rat) (u : Rat) : List Rat := qMul (qOfVec (rScale u (rotVec (qFromTo q0 q1)))) q0

/-! ### Poses -/

/-- A frame in another: its origin in m, and its orientation. -/
structure Pose where
  p : List Rat := [0, 0, 0]
  q : List Rat := [1, 0, 0, 0]
deriving DecidableEq, Repr, Inhabited

/-- A pose given in a frame, in the frame that the frame is given in. -/
def Pose.then (f g : Pose) : Pose := { p := rAdd f.p (qRot f.q g.p), q := qMul f.q g.q }

/-- A pose expressed in a frame. -/
def Pose.inFrame (g f : Pose) : Pose := { p := qRot (qConj f.q) (rSub g.p f.p), q := qMul (qConj f.q) g.q }

/-- A pose of seven words: LSB 2^-20 m, then Q2.30 (R243). -/
def poseOf (w : List Int) : Pose := { p := (w.take 3).map (ofWord 20), q := (w.drop 3).map (ofWord 30) }

/-- The seven words of a pose; the spec states no rounding for them. -/
def Pose.words (f : Pose) : List Int :=
  f.p.map (fun x => Config.rounds 0 (x * 2 ^ 20)) ++ f.q.map (fun x => Config.rounds 0 (x * 2 ^ 30))

end Sys2Proof.Machine
end

