-- ==== Sys2Proof/Machine/DeckState.lean ====
section
/-! DEFINITION. The motion of the deck and the frames of a Cartesian pose (spec/13_deck_motion_ballast.md, R288, R289, R291, R292):
the deck state propagated or predicted to an instant, and the levelled frame and the load frame there. The deck frame has x
forward, y to port and z up; positive φ heels to port and positive θ trims by the head (log entry 146). -/

namespace Sys2Proof.Machine

/-- 9.80665 m/s². -/
def gravity : Rat := frac 980665 100000

/-- Seconds of a span of CT. -/
def secs (lsb : Int) : Rat := frac lsb lsbPerSecond

/-- g_d at a heel and a trim (R288). -/
def gravityAt (phi theta : Rat) : List Rat :=
  rScale gravity [Config.sinRad theta, Config.sinRad phi * Config.cosRad theta, -(Config.cosRad phi * Config.cosRad theta)]

/-- Upwards in the deck frame. -/
def upFrom (g : List Rat) : List Rat := rScale (-1 / gravity) g

/-- The motion of the deck at an instant (R288, R250): angles in rad, heave in m, rates, accelerations and gravity in the deck
frame. -/
structure DeckMotion where
  phi   : Rat := 0
  theta : Rat := 0
  z     : Rat := 0
  omega : List Rat := [0, 0, 0]
  alpha : List Rat := [0, 0, 0]
  aRef  : List Rat := [0, 0, 0]
  gD    : List Rat := [0, 0, -gravity]
deriving DecidableEq, Repr, Inhabited

/-- A word of a deck record. -/
def deckWord (q : Nat) (w : BitVec 32) : Rat := ofWord q w.toInt

/-- The record of R288 as a motion. -/
def DeckRec.motion (r : DeckRec) : DeckMotion :=
  { phi := deckWord 24 (r.angles.getD 0 0), theta := deckWord 24 (r.angles.getD 1 0), z := deckWord 20 r.z
    omega := r.omega.map (deckWord 24), alpha := r.alpha.map (deckWord 24), aRef := r.aRef.map (deckWord 16)
    gD := r.gD.map (deckWord 16) }

/-- A motion propagated over a time at constant angular and linear acceleration (R288), with the heave speed at its start. -/
def DeckMotion.after (m : DeckMotion) (vz dt : Rat) : DeckMotion :=
  let e := fun (v : List Rat) i => v.getD i 0
  let phi := m.phi - e m.omega 0 * dt - e m.alpha 0 * dt * dt / 2
  let theta := m.theta + e m.omega 1 * dt + e m.alpha 1 * dt * dt / 2
  { phi := phi, theta := theta, z := m.z + vz * dt + rDot m.aRef (upFrom m.gD) * dt * dt / 2
    omega := rAdd m.omega (rScale dt m.alpha), alpha := m.alpha, aRef := m.aRef, gD := gravityAt phi theta }

/-! ### The predictor's output (R289) -/

/-- Value, rate and acceleration of a quantity `s` seconds after the window's first value: the mean and the kept components,
with their analytic derivatives. -/
def predictPart (p : Rat × List Wave) (s : Rat) : Rat × Rat × Rat :=
  p.2.foldl (fun (acc : Rat × Rat × Rat) w =>
    let turn := w.freq * s + w.phase
    let k := twoPi * w.freq
    (acc.1 + w.amp * cosTurn turn, acc.2.1 - w.amp * k * sinTurn turn,
      acc.2.2 - w.amp * k * k * cosTurn turn)) (p.1, 0, 0)

/-- Value, rate and acceleration of quantity `i` (heel, trim, heave) at an instant. -/
def PredModel.at_ (m : PredModel) (i : Nat) (t : Int) : Rat × Rat × Rat :=
  predictPart (m.parts.getD i (0, [])) (secs (t - m.since))

/-- The motion that the model predicts for an instant. It keeps no yaw and no horizontal motion: the yaw rate stands as last
estimated, and the reference point moves along the vertical (log entry 147). -/
def PredModel.motion (m : PredModel) (yaw : Rat) (t : Int) : DeckMotion :=
  let (phi, phi1, phi2) := m.at_ 0 t
  let (theta, theta1, theta2) := m.at_ 1 t
  let (z, _, z2) := m.at_ 2 t
  let g := gravityAt phi theta
  { phi := phi, theta := theta, z := z, omega := [-phi1, theta1, yaw], alpha := [-phi2, theta2, 0]
    aRef := rScale z2 (upFrom g), gD := g }

/-- VALID and PRED_VALID of the deck state. -/
def DeckRec.valid (r : DeckRec) : Bool := r.flags.getLsbD 0

def DeckRec.pred (r : DeckRec) : Bool := r.flags.getLsbD 1

/-- The deck state for B_{k+1}: the record propagated one period (R288). -/
def Dev.deckNext (d : Dev) : DeckMotion := d.deck.est.motion.after d.deck.heaveV (secs d.time.tc)

/-- t_lead of an arm (R296). -/
def Dev.tLead (d : Dev) (a : Nat) : Nat :=
  match look d.deck.limits a with
  | some c => c.tLead.toNat
  | none => 0

/-- The deck state used for t_e = B_{k+1} + t_lead of an arm (R291). -/
def Dev.deckAhead (d : Dev) (a : Nat) : DeckMotion :=
  match d.deck.model with
  | some m => if 0 < d.tLead a ∧ d.deck.est.pred
      then m.motion (d.deck.est.motion.omega.getD 2 0) (d.bNext + d.tLead a : Nat) else d.deckNext
  | none => d.deckNext

/-! ### Frames (R291, R292) -/

/-- The levelled frame in the deck frame: lowered by the heave, z opposite to gravity, x along the horizontal projection of the
deck's x axis. -/
def DeckMotion.levelled (m : DeckMotion) : Pose :=
  let up := upFrom m.gD
  let flat := rSub [1, 0, 0] (rScale (up.getD 0 0) up)
  let x := rScale (1 / rNorm flat) flat
  { p := rScale (-m.z) up, q := qOfMat (matT 3 [x, rCross up x, up]) }

/-- The load frame in the deck frame at an instant: the tracker's pose extrapolated at constant velocity. -/
def LoadPose.at_ (l : LoadPose) (t : Nat) : Pose :=
  let f := poseOf (l.pose.take 7)
  let dt := secs ((t : Int) - l.stamp)
  { p := rAdd f.p (rScale dt (((l.pose.drop 7).take 3).map (ofWord 16)))
    q := qMul (qOfVec (rScale dt ((l.pose.drop 10).map (ofWord 24)))) f.q }

/-- The frame of a Cartesian pose of an arm in the deck frame, for a deck motion at an instant (R291). -/
def Dev.frameAt (d : Dev) (frame : BitVec 8) (m : DeckMotion) (t : Nat) : Pose :=
  if frame = 1 then m.levelled
  else if frame = 2 then match d.deck.load with
    | some l => l.at_ t
    | none => {}
  else {}

end Sys2Proof.Machine
end

