-- ==== Sys2Proof/Machine/Kinematics.lean ====
section
/-! DEFINITION. The kinematics of an arm's model (spec/11_kinematics_dynamics.md, R243, R244, R248, R250, R251, R253): the chain
of its frames, the Jacobian, and the recursion of inverse dynamics with its regressor. Positions are rationals in joint units of
2^-24 rev or m; poses are in the deck frame but where a definition says otherwise. -/

namespace Sys2Proof.Machine

/-- A joint as the arm model gives it (R243, R244). -/
structure LinkModel where
  linear : Bool := false
  origin : Pose := {}
  q0     : Int := 0
  mass   : Rat := 0
  com    : List Rat := [0, 0, 0]
  inertia : List (List Rat) := []
  rotor  : Rat := 0
  visc   : Rat := 0
  coul   : Rat := 0
  blend  : Rat := 1
deriving DecidableEq, Repr, Inhabited

/-- A symmetric tensor from Ixx, Iyy, Izz, Ixy, Ixz, Iyz. -/
def tensor (t : List Rat) : List (List Rat) :=
  let e := fun i => t.getD i 0
  [[e 0, e 3, e 4], [e 3, e 1, e 5], [e 4, e 5, e 2]]

/-- The record of joint `j` of an arm model (R243); bit `j` of `kinds` says that it is linear (R244). -/
def linkModel (b : List Byte) (kinds : BitVec 16) (j : Nat) : LinkModel :=
  let r := b.drop (96 + 96 * j)
  { linear := kinds.getLsbD j, origin := poseOf (rdSs r 0 7), q0 := (rd 64 r 84).toInt, mass := ofWord 10 (rdS r 28)
    com := (rdSs r 32 3).map (ofWord 20), inertia := tensor ((rdSs r 44 6).map (ofWord 16)), rotor := ofWord 16 (rdS r 68)
    visc := ofWord 10 (rdS r 72), coul := ofWord 10 (rdS r 76), blend := ofWord 16 (rdS r 80) }

/-- An arm model (R243). -/
structure ArmChain where
  base  : Pose := {}
  tool  : Pose := {}
  rho   : Rat := 1
  mu2   : Rat := 0
  links : List LinkModel := []
deriving DecidableEq, Repr, Inhabited

/-- The model of an arm from its record, with the kinds of CONFIG_ARM (R242 to R244). -/
def armChain (b : List Byte) (kinds : BitVec 16) : ArmChain :=
  { base := poseOf (rdSs b 4 7), tool := poseOf (rdSs b 32 7), rho := ofWord 16 (rdS b 60), mu2 := ofWord 16 (rdS b 64)
    links := (List.range (rd 8 b 1).toNat).map (linkModel b kinds) }

/-- The model of an arm as read. -/
def Dev.chain (d : Dev) (a : Nat) : ArmChain :=
  armChain ((look d.kin a).model.getD []) (match (look d.arms a).cfg with
    | some c => c.kinds
    | none => 0)

/-- The model angle in rev, or the model displacement in m, of a joint at a position (R244). -/
def LinkModel.value (l : LinkModel) (p : Rat) : Rat := (p + l.q0) / 2 ^ 24

/-- What a joint does about or along its local z axis. -/
def LinkModel.motion (l : LinkModel) (p : Rat) : Pose :=
  let x := l.value p
  if l.linear then { p := [0, 0, x] } else { q := [cosTurn (x / 2), 0, 0, sinTurn (x / 2)] }

/-- A rate in joint units as rad/s or m/s, and back (R244). -/
def LinkModel.toSi (l : LinkModel) (v : Rat) : Rat := if l.linear then v / 2 ^ 24 else twoPi * v / 2 ^ 24

def LinkModel.ofSi (l : LinkModel) (v : Rat) : Rat := if l.linear then v * 2 ^ 24 else v * 2 ^ 24 / twoPi

/-- The frames of the links, from the base outward. -/
def ArmChain.frames (c : ArmChain) (pos : List Rat) : List Pose :=
  ((List.zip c.links pos).foldl (fun (acc : Pose × List Pose) e =>
    let f := (acc.1.then e.1.origin).then (e.1.motion e.2)
    (f, acc.2 ++ [f])) (c.base, [])).2

/-- Forward kinematics: the tool pose. -/
def ArmChain.fk (c : ArmChain) (pos : List Rat) : Pose := ((c.frames pos).getLastD c.base).then c.tool

/-- The z axis of a frame. -/
def Pose.zAxis (f : Pose) : List Rat := qRot f.q [0, 0, 1]

/-- The columns of the Jacobian, per rad or per m of each joint: velocity of the tool point, then angular velocity (R248). -/
def ArmChain.columns (c : ArmChain) (pos : List Rat) : List (List Rat) :=
  let t := (c.fk pos).p
  (List.zip c.links (c.frames pos)).map (fun e =>
    let z := e.2.zAxis
    if e.1.linear then z ++ [0, 0, 0] else rCross z (rSub t e.2.p) ++ z)

/-- The tool pose of an arm at joint positions, in the deck frame. -/
def Dev.toolPose (d : Dev) (a : Nat) (pos : List Rat) : Pose := (d.chain a).fk pos

/-! ### Inverse kinematics, one iterate (R248) -/

/-- A linear system of a template: order n, the lower triangle of A and b, exact but for the stores that formed it, of which `sat` is
the first saturated word. -/
structure System where
  a : List Rat := []
  b : List Rat := []
  sat : Option Int := none
deriving DecidableEq, Repr, Inhabited

/-- The lower triangle of a symmetric matrix, row by row. -/
def lower (m : List (List Rat)) : List Rat := (m.mapIdx (fun i r => r.take (i + 1))).flatten

/-- e = W [P_t - P; rotvec(Q_t Q^-1)] at an iterate, stored. -/
def ArmChain.poseError (c : ArmChain) (id : Nat) (target : Pose) (pos : List Rat) (o : Option Int) : List Rat × Option Int :=
  let f := c.fk pos
  keptAll id 0 (rSub target.p f.p ++ rScale c.rho (rotVec (qFromTo f.q target.q))) o

/-- The columns of W J, stored. -/
def ArmChain.weighted (c : ArmChain) (id : Nat) (pos : List Rat) : List (List Rat) × Option Int :=
  (c.columns pos).foldl (fun acc v =>
    let (w, o) := keptAll id 1 (v.take 3 ++ rScale c.rho (v.drop 3)) acc.2
    (acc.1 ++ [w], o)) ([], none)

/-- A = W J Jᵀ W + μ² I and b = e at an iterate. -/
def ArmChain.ikSystem (c : ArmChain) (id : Nat) (target : Pose) (pos : List Rat) : System :=
  let (cols, o) := c.weighted id pos
  let (b, o1) := c.poseError id target pos o
  let e := fun i j => rSum (cols.map (fun v => v.getD i 0 * v.getD j 0)) + (if i = j then c.mu2 else 0)
  { a := lower ((List.range 6).map (fun i => (List.range 6).map (e i))), b := b, sat := o1 }

/-- The next iterate q + Jᵀ W y, the step stored in joint units. -/
def ArmChain.ikStep (c : ArmChain) (id : Nat) (pos y : List Rat) : List Rat × Option Int :=
  let (cols, o) := c.weighted id pos
  let (dq, o1) := keptAll id 2 (List.zipWith (fun l v => l.ofSi (rDot v y)) c.links cols) o
  (rAdd pos dq, o1)

/-! ### Inverse dynamics (R250 to R253) -/

/-- The state that the recursion works on, in SI units: positions in joint units, rates and accelerations in rad or m; the motion
of the base in the base frame; the payload [m, m c] in the tool frame. -/
structure RneaIn where
  pos   : List Rat := []
  qd    : List Rat := []
  qdd   : List Rat := []
  omega : List Rat := [0, 0, 0]
  alpha : List Rat := [0, 0, 0]
  acc   : List Rat := [0, 0, 0]
  load  : List Rat := [0, 0, 0, 0]
deriving DecidableEq, Repr, Inhabited

/-- A link in the forward pass: its joint axis, origin and centre of mass, its rates and accelerations, and the force and moment
of its motion. -/
structure LinkState where
  z  : List Rat := [0, 0, 1]
  p  : List Rat := [0, 0, 0]
  c  : List Rat := [0, 0, 0]
  w  : List Rat := [0, 0, 0]
  dw : List Rat := [0, 0, 0]
  a  : List Rat := [0, 0, 0]
  f  : List Rat := [0, 0, 0]
  n  : List Rat := [0, 0, 0]
deriving DecidableEq, Repr, Inhabited

/-- The acceleration of a point of a body at `r` from a point of acceleration `a`. -/
def bodyAcc (a w dw r : List Rat) : List Rat := rAdd a (rAdd (rCross dw r) (rCross w (rCross w r)))

/-- The forward pass (R251) of a problem, every quantity stored in its own format, with the first saturated word. Before joint 0
stands the base, whose p is its origin. -/
def forwardPass (id : Nat) (links : List (LinkModel × Pose × Rat × Rat)) (base : LinkState) : List LinkState × Option Int :=
  let r := links.foldl (fun (acc : LinkState × List LinkState × Option Int) e =>
    let (l, f, qd, qdd) := e
    let (s, done, o) := acc
    let z := f.zAxis
    let v := rScale qd z
    let (w, o1) := if l.linear then (s.w, o) else keptAll id 3 (rAdd s.w v) o
    let (dw, o2) := if l.linear then (s.dw, o1) else keptAll id 4 (rAdd s.dw (rAdd (rScale qdd z) (rCross s.w v))) o1
    let a0 := bodyAcc s.a s.w s.dw (rSub f.p s.p)
    let (a, o3) := keptAll id 5 (if l.linear then rAdd a0 (rAdd (rScale qdd z) (rScale 2 (rCross w v))) else a0) o2
    let c := rAdd f.p (qRot f.q l.com)
    let (ac, o4) := keptAll id 6 (bodyAcc a w dw (rSub c f.p)) o3
    let (force, o5) := keptAll id 7 (rScale l.mass ac) o4
    let r := qMat f.q
    let i := matMul 3 (matMul 3 r l.inertia) (matT 3 r)
    let (n, o6) := keptAll id 8 (rAdd (matVec i dw) (rCross w (matVec i w))) o5
    let x : LinkState := { z := z, p := f.p, c := c, w := w, dw := dw, a := a, f := force, n := n }
    (x, done ++ [x], o6)) (base, [], none)
  (r.2.1, r.2.2)

/-- sat of R251. -/
def satUnit (x : Rat) : Rat := max (-1) (min 1 x)

/-- What the backward pass comes to: the torque of each joint, first to last, F_0 and N_0, and the first saturated word. -/
structure BackPass where
  tau : List Rat := []
  p   : List Rat := [0, 0, 0]
  f   : List Rat := [0, 0, 0]
  n   : List Rat := [0, 0, 0]
  sat : Option Int := none
deriving DecidableEq, Repr, Inhabited

/-- The backward pass (R251) from the payload's force and moment at the tool origin. -/
def backwardPass (id : Nat) (l : List (LinkModel × LinkState × Rat × Rat)) (last : BackPass) : BackPass :=
  l.foldr (fun e acc =>
    let (m, s, qd, qdd) := e
    let (f, o1) := keptAll id 9 (rAdd s.f acc.f) acc.sat
    let (n, o2) := keptAll id 10 (rAdd (rAdd s.n (rCross (rSub s.c s.p) s.f)) (rAdd acc.n (rCross (rSub acc.p s.p) acc.f))) o1
    let (tau, o3) := keptAll id 11
      [rDot s.z (if m.linear then f else n) + m.rotor * qdd + m.visc * qd + m.coul * satUnit (qd / m.blend)] o2
    { tau := tau ++ acc.tau, p := s.p, f := f, n := n, sat := o3 }) last

/-- The payload wrench at the tool origin by π = [m, m c], the first moment in the frame of the recursion (R253). -/
def payloadWrench (m : Rat) (mc a w dw : List Rat) : List Rat × List Rat :=
  (rAdd (rScale m a) (rAdd (rCross dw mc) (rCross w (rCross w mc))), rCross mc a)

/-- What the build step of RNEA forms (R251 to R253): the torques, the base wrench about the base origin in the deck frame, the
regressor Y = Jᵀ G, the payload-free torques, and the first saturated word. -/
structure RneaOut where
  torque : List Rat := []
  wrench : List Rat := []
  y      : List (List Rat) := []
  tau0   : List Rat := []
  sat    : Option Int := none
deriving DecidableEq, Repr, Inhabited

/-- The build step of RNEA, in the arm's base frame; `jac` are the columns of the Jacobian that DLS_IK staged, in the deck frame.
v_dz is in joint units and the rates in rad or m, so the blend speed is converted too. -/
def ArmChain.rnea (c : ArmChain) (id : Nat) (jac : List (List Rat)) (i : RneaIn) : RneaOut :=
  let b : ArmChain := { c with base := {} }
  let per := fun {α : Type} (g : LinkModel → α → Rat × Rat → LinkModel × α × Rat × Rat) (l : List α) =>
    (List.zip b.links (List.zip l (List.zip i.qd i.qdd))).map (fun e => g e.1 e.2.1 e.2.2)
  let base : LinkState := { w := i.omega, dw := i.alpha, a := i.acc }
  let frames := b.frames i.pos
  let (fwd, o1) := forwardPass id (per (fun m f q => (m, f, q.1, q.2)) frames) base
  let last := fwd.getLastD base
  let tool := b.fk i.pos
  let (aT, o2) := keptAll id 5 (bodyAcc last.a last.w last.dw (rSub tool.p last.p)) o1
  let tensorOf := fun (p : List Rat) => payloadWrench (p.getD 0 0) (qRot tool.q (p.drop 1)) aT last.w last.dw
  let (fL, o3) := keptAll id 7 (tensorOf i.load).1 o2
  let (nL, o4) := keptAll id 8 (tensorOf i.load).2 o3
  let links := per (fun m s q => ({ m with blend := m.toSi (m.blend * 2 ^ 24) }, s, q.1, q.2)) fwd
  let full := backwardPass id links { p := tool.p, f := fL, n := nL, sat := o4 }
  let free := backwardPass id links { p := tool.p, sat := full.sat }
  let (n0, o5) := keptAll id 10 (rAdd full.n (rCross (frames.headD {}).p full.f)) free.sat
  let units := (List.range 4).map (fun k => (List.range 4).map (fun j => if j = k then (1 : Rat) else 0))
  let g := units.map (fun u => let w := tensorOf u; qRot c.base.q w.1 ++ qRot c.base.q w.2)
  let y := jac.foldl (fun (acc : List (List Rat) × Option Int) v =>
    let (r, o) := keptAll id 12 (g.map (fun w => rDot v w)) acc.2
    (acc.1 ++ [r], o)) ([], o5)
  { torque := full.tau, wrench := qRot c.base.q full.f ++ qRot c.base.q n0, tau0 := free.tau, y := y.1, sat := y.2 }

end Sys2Proof.Machine
end

