-- ==== Sys2Proof/Machine/Moves.lean ====
section
/-! DEFINITION. Moves, queues and interpolation (spec/06_move_queue_interpolation.md): the times and the profile of a move,
blending, the time scale, stops, the interpolation of a period, the queue step of a boundary, and the commands of class
0x02 (R115 to R145). -/

namespace Sys2Proof.Machine

/-! ### Exact roots and the times of a move (R123) -/

/-- The smallest number whose square is not below `n`. -/
def ceilSqrt (n : Nat) : Nat := if isqrt n * isqrt n = n then isqrt n else isqrt n + 1

/-- t_a of one axis in whole LSB, rounded up (R123); the square of its way is the fraction q / qDen. -/
def Axis.ramp (x : Axis) : Nat :=
  let f := lsbPerSecond
  if x.q = 0 then 0 else min (ceilDiv (x.v * f) x.a) (ceilSqrt (ceilSqrt (ceilDiv (x.q * f ^ 4) (x.qDen * x.a ^ 2))))

/-- The bounds that one axis sets on T, given t_a (R123). -/
def Axis.duration (x : Axis) (ta : Nat) : Nat :=
  let f := lsbPerSecond
  if x.q = 0 then 0
  else max (ta + ceilSqrt (ceilDiv (x.q * f ^ 2) (x.qDen * x.v ^ 2)))
    (ta + ceilSqrt (ceilDiv (x.q * f ^ 4) (x.qDen * x.a ^ 2 * ta ^ 2)))

/-- T and t_a of a move (R123). -/
def moveTimes (axes : List Axis) : Nat × Nat :=
  let ta := axes.foldl (fun m x => max m x.ramp) 0
  (axes.foldl (fun m x => max m (x.duration ta)) (2 * ta), ta)

/-! ### The profile (R122) -/

/-- T in units of τ. -/
def Run.tt (r : Run) : Nat := r.t * 32768

/-- t_a in units of τ. -/
def Run.tta (r : Run) : Nat := r.ta * 32768

/-- den of R122. -/
def Run.den (r : Run) : Nat := 2 * r.tta * (r.tt - r.tta)

/-- num of R122. -/
def Run.num (r : Run) : Nat :=
  if r.tt ≤ r.tau then r.den
  else if r.tau < r.tta then r.tau ^ 2
  else if r.tau < r.tt - r.tta then 2 * r.tta * r.tau - r.tta ^ 2
  else r.den - (r.tt - r.tau) ^ 2

/-- The derivative of num by τ. -/
def Run.slope (r : Run) : Nat :=
  if r.tt ≤ r.tau then 0
  else if r.tau < r.tta then 2 * r.tau
  else if r.tau < r.tt - r.tta then 2 * r.tta
  else 2 * (r.tt - r.tau)

/-- The second derivative of num by τ. -/
def Run.curve (r : Run) : Int :=
  if r.tt ≤ r.tau then 0 else if r.tau < r.tta then 2 else if r.tau < r.tt - r.tta then 0 else -2

/-- Δ_i of an axis: floor(|d_i| num / den) with the sign of d_i; d_i at the end (R122). -/
def Run.delta (r : Run) (x : Axis) : Int :=
  if r.tt ≤ r.tau then x.disp
  else
    let m : Int := x.disp.natAbs * r.num / r.den
    if x.disp < 0 then -m else m

/-- A sum of fractions. -/
def fracSum (l : List (Int × Nat)) : Int × Nat :=
  l.foldl (fun (a : Int × Nat) e => (a.1 * e.2 + e.1 * a.2, a.2 * e.2)) (0, 1)

/-- A sum of fractions, rounded half to even. -/
def rneSum (l : List (Int × Nat)) : Int := rneDiv (fracSum l).1 (fracSum l).2

/-- s × d × du/dτ of an axis in LSB 2^-16 unit/s, as a fraction (R122). -/
def Run.velocity (r : Run) (s : Nat) (x : Axis) : Int × Nat :=
  if r.den = 0 then (0, 1) else (s * x.disp * r.slope * lsbPerSecond, r.den * 256)

/-- s² × d × d²u/dτ² of an axis in LSB 2^-16 unit/s², as a fraction (R247). -/
def Run.acceleration (r : Run) (s : Nat) (x : Axis) : Int × Nat :=
  if r.den = 0 then (0, 1) else (s * s * x.disp * r.curve * lsbPerSecond ^ 2, r.den * 256)

/-! ### Starting a move and blending (R123, R125, R126, R129) -/

/-- A Cartesian move. -/
def QMove.isCart (m : QMove) : Bool :=
  match m.goal with
  | .cart _ _ _ => true
  | .joint _ => false

/-- The frame and target of a Cartesian move. -/
def QMove.cartTarget (m : QMove) : Option (BitVec 8 × List Int × List Int) :=
  match m.goal with
  | .cart f p q => some (f, p, q)
  | .joint _ => none

/-- P0 and Q0 of a Cartesian move: the target of the Cartesian move before it in the same frame, else the forward
kinematics of the commanded positions, in the move's frame (R126). -/
def Dev.startPose (d : Dev) (a : Nat) (frame : BitVec 8) (prev : Option (BitVec 8 × List Int × List Int))
    (start : List Int) : Pose :=
  let fk := (d.toolPose a (start.map (fun (x : Int) => (x : Rat)))).inFrame (d.frameAt frame d.deck.est.motion d.bk)
  match prev with
  | some (f, p, q) => if f = frame then poseOf (p ++ q) else fk
  | none => fk

/-- A move started at positions `start`, at a move time (R120, R123, R125). -/
def Dev.newRun (d : Dev) (a : Nat) (m : QMove) (prev : Option (BitVec 8 × List Int × List Int)) (start : List Int)
    (tau : Nat) : Run :=
  let arm := look d.arms a
  match m.goal with
  | .joint ts =>
    let axes := (List.zip arm.joints (List.zip start ts)).map (fun e =>
      let j := look d.joints e.1
      let disp := e.2.2 - e.2.1
      { start := e.2.1, disp := disp, q := (disp.natAbs * 128) ^ 2, v := j.vmax * m.vfrac, a := j.amax * m.afrac : Axis })
    { move := m, init := true, axes := axes, t := (moveTimes axes).1, ta := (moveTimes axes).2, tau := tau }
  | .cart f p q =>
    let pose := d.startPose a f prev start
    let line := rSub (poseOf (p ++ q)).p pose.p
    let turn := rNorm (rotVec (qFromTo pose.q (poseOf (p ++ q)).q))
    let axis := fun (x : Rat) v a => ({ q := x.num.toNat, qDen := x.den, v := v, a := a } : Axis)
    let lim := fun (w : BitVec 32) (n : Nat) => w.toNat * n
    let axes := match arm.cfg with
      | some c => [axis (rDot line line * 2 ^ 62) (lim c.vLin m.vfrac) (lim c.aLin m.afrac),
                   axis ((2 ^ 31 * turn / twoPi) ^ 2) (lim c.vRot m.vfrac) (lim c.aRot m.afrac)]
      | none => []
    { move := m, init := true, axes := axes, pose0 := pose.p ++ pose.q, t := (moveTimes axes).1, ta := (moveTimes axes).2, tau := tau }

/-- The kinds of two moves allow a blend (R129). -/
def blendable (m n : QMove) : Bool :=
  match m.goal, n.goal with
  | .joint _, .joint _ => true
  | .cart f _ _, .cart g _ _ => f = g
  | _, _ => false

/-- The acceleration check of R129 cuts the blend: for some joint the deceleration of `r` and the acceleration of `n` have
one sign and add to more than the smaller a_i. -/
def blendCuts (r n : Run) : Bool :=
  let x := fun (u : Run) => u.ta * (u.t - u.ta)
  let f := 128 * lsbPerSecond ^ 2
  (List.zip r.axes n.axes).any (fun e =>
    decide (e.1.disp * e.2.disp < 0)
      && decide (min e.1.a e.2.a * (x r * x n) < f * (e.1.disp.natAbs * x n + e.2.disp.natAbs * x r)))

/-- b_eff of the junction of a run to the next move (R129). The acceleration check is one of joints' d_i and a_i; that it is not
made for a blend of two Cartesian moves is the model's choice (DESIGN CHOICE, log entry 143). -/
def blendWindow (r n : Run) : Nat :=
  if !blendable r.move n.move ∨ (!r.move.isCart ∧ blendCuts r n) then 0 else min r.move.blend (min r.ta n.ta)

/-! ### The time scale (R131, R133) -/

/-- s after one period's slew towards the target. -/
def Arm.slewed (a : Arm) : Nat :=
  let target := min a.sHost (min a.sSep a.sDeck)
  if a.sl < target then min target (a.sl + a.slew) else max target (a.sl - a.slew)

/-- The applied s of the next interpolation: it moves towards its target; a stop takes the lower of its sequence and the slewed
target, and holds it at 0 when it has ended, until the arm resumes; a joint-space stop leaves it alone. -/
def Arm.scale (a : Arm) : Arm :=
  let sl := a.slewed
  match a.stopSeq with
  | some q => { a with sl := sl, s := min sl (q.s0 * (q.n - (q.i + 1)) / q.n), stopSeq := some { q with i := min q.n (q.i + 1) } }
  | none => { a with sl := sl, s := sl }

/-! ### One arm's interpolation (R118, R121, R122, R127 to R130) -/

/-- What an arm's interpolation carries along: the arm, the positions where no move runs, the ids of the junctions that were
cut, and the move that ended last in it. -/
structure Interp where
  arm   : Arm := default
  pos   : List Int := []
  cuts  : List (BitVec 16) := []
  ended : Option Run := none
deriving DecidableEq, Repr, Inhabited

/-- The first running move is done: it is retired at the next boundary, and the arm stands at its target. -/
def Interp.finish (x : Interp) (r : Run) (cartPos : List Int) : Interp :=
  { x with
    arm := { x.arm with runs := x.arm.runs.tail, done := x.arm.done ++ [r.move], lastCart := r.move.cartTarget }
    ended := some r
    pos := match r.move.goal with
      | .joint ts => ts
      | .cart _ _ _ => cartPos }

/-- A move is the first of an open lift whose interlock holds: it starts, and stands at τ = 0 (R298 step 5). -/
def Dev.liftHolds (d : Dev) (a : Nat) (m : QMove) : Bool :=
  match look d.deck.lifts a with
  | some l => l.holding && !l.started && m.id == l.p.firstId
  | none => false

/-- An arm that a lift's interlock stops at the start of its first move: s is 0 at once (log entry 97). -/
def Arm.standing (a : Arm) (held : Bool) : Arm := if held then { a with sDeck := 0, sl := 0, s := 0 } else a

/-- The moves of an arm after τ has advanced: junctions are decided, moves end, and the next ones start with the excess
(R121, R129, R130). A next move that was queued at the boundary that opened the period counts for the window of the junction, and
joins it where it was eligible there; `may` says that a next move may start. -/
def Dev.stepRuns (d : Dev) (a : Nat) (may : Bool) (cartPos : List Int) : Nat → Interp → Interp
  | 0, x => x
  | n + 1, x =>
    let queued := x.arm.queue.head?.filter (fun m => decide (m.stamp ≤ d.bk))
    let next := queued.filter (fun m => decide (m.effB ≤ d.bk))
    match x.arm.runs with
    | [] => x
    | r :: r2 :: _ =>
      if r.tt ≤ r.tau ∧ r2.init then d.stepRuns a may cartPos n (x.finish r cartPos) else x
    | [r] =>
      match r.bEff with
      | none =>
        let target := match r.move.goal with
          | .joint ts => ts
          | .cart _ _ _ => cartPos
        let n2 := queued.map (fun m => d.newRun a m r.move.cartTarget target 0)
        let w := match n2 with
          | some q => blendWindow r q
          | none => min r.move.blend r.ta
        if r.tau < r.tt - w * 32768 then x
        else
          match may && next.isSome && decide (0 < w), n2 with
          | true, some q =>
            let held := d.liftHolds a q.move
            d.stepRuns a may cartPos n { x with arm := { x.arm.standing held with
              runs := [{ r with bEff := some w }, { q with tau := if held then 0 else r.tau - (r.tt - w * 32768) }]
              queue := x.arm.queue.tail } }
          | _, _ =>
            let c := may && next.isSome && decide (w = 0) && decide (0 < r.move.blend)
            d.stepRuns a may cartPos n { x with
              arm := { x.arm with runs := [{ r with bEff := some 0, cut := c }] }
              cuts := if c then x.cuts ++ [r.move.id] else x.cuts }
      | some _ =>
        if r.tau < r.tt then x
        else
          let y := x.finish r cartPos
          match may, next with
          | true, some m =>
            let held := d.liftHolds a m
            d.stepRuns a may cartPos n { y with arm := { y.arm.standing held with
              runs := [{ d.newRun a m r.move.cartTarget y.pos (if held then 0 else r.tau - r.tt) with cut := r.cut }]
              queue := y.arm.queue.tail } }
          | _, _ => y

/-- The moves of an arm advanced by the period with its applied s (R118 to R121, R129, R130); `cartPos` are the joint positions
at the pose of a Cartesian move. -/
def Dev.advanceArm (d : Dev) (a : Nat) (cartPos : List Int) : Interp :=
  let arm := look d.arms a
  let cmds := arm.joints.map (fun j => (look d.joints j).cmd)
  let arm1 := match arm.runs with
    | r :: rest => if r.init then arm else { arm with runs := d.newRun a r.move arm.lastCart cmds r.tau :: rest }
    | [] => arm
  let arm2 := { arm1 with runs := arm1.runs.map (fun r => { r with tau := r.tau + arm.s * d.time.tc }) }
  let may := decide (arm.phase ≠ .stopping) && decide (arm.phase ≠ .stopped)
  d.stepRuns a may cartPos (2 * arm2.queue.length + 6) { arm := arm2, pos := cmds }

/-- The Cartesian move whose pose the interpolation gives: the first that runs, or one that has just ended. -/
def Interp.cartRun (x : Interp) : Option Run :=
  match x.arm.runs with
  | r :: _ => if r.move.isCart then some r else none
  | [] => match x.ended with
    | some r => if r.move.isCart then some r else none
    | none => none

/-- u of R122. -/
def Run.share (r : Run) : Rat := if r.tt ≤ r.tau then 1 else frac r.num r.den

/-- P1 and Q1 of a Cartesian move (R125). -/
def Run.target (r : Run) : Pose :=
  match r.move.goal with
  | .cart _ p q => poseOf (p ++ q)
  | .joint _ => {}

/-- The pose of a Cartesian move at its τ, in its frame: the line and the shortest rotation, by the profile (R125). -/
def Run.pose (r : Run) : Pose :=
  let p0 := r.pose0.take 3
  if r.tt ≤ r.tau then r.target
  else { p := rAdd p0 (rScale r.share (rSub r.target.p p0)), q := slerp (r.pose0.drop 3) r.target.q r.share }

/-- A pose displaced by what a second move of a blend has done so far: its displacement adds, its rotation follows (R129). -/
def Run.onTop (r : Run) (f : Pose) : Pose :=
  { p := rAdd f.p (rSub r.pose.p (r.pose0.take 3)), q := qMul (qFromTo (r.pose0.drop 3) r.pose.q) f.q }

/-- The pose that an interpolation takes a Cartesian move to, with its frame; a joint move that has begun after it starts from
where the Cartesian one ended. -/
def Interp.pose (x : Interp) : Option (BitVec 8 × Pose) :=
  let at_ := fun (r : Run) (f : Pose) => match r.move.goal with
    | .cart g _ _ => some (g, f)
    | .joint _ => none
  let ended := match x.ended with
    | some r => at_ r r.target
    | none => none
  match x.arm.runs with
  | r :: rest => if r.move.isCart then at_ r (rest.foldl (fun f q => q.onTop f) r.pose) else ended
  | [] => ended

/-- The positions of the joints by the running moves (R122, R129). -/
def Interp.positions (x : Interp) (cartPos : List Int) : List Int :=
  match x.arm.runs with
  | [] => x.pos
  | r :: rest =>
    if r.move.isCart then cartPos
    else r.axes.mapIdx (fun i e => e.start + r.delta e + rest.foldl (fun s q => s + q.delta (q.axes.getD i default)) 0)

/-- A joint's position setpoint for the next boundary is staged, with velocity and acceleration. -/
def Dev.stage (d : Dev) (j : Nat) (p v acc : Int) : Dev :=
  d.onJoint j (fun x => { x with prev := x.cmd, cmd := p, vel := v, acc := acc, path := (0, 1), staged := some p })

/-- The path velocity at s = 1 is staged with a setpoint (R269). -/
def Dev.stagePath (d : Dev) (j : Nat) (v : Int × Nat) : Dev := d.onJoint j (fun x => { x with path := v })

/-- The path velocity of an arm's running moves at s = 1 is staged for the joint at a place of the arm, whatever s applies (R122,
R269). That of a Cartesian move is free: R122 gives it for joint moves (log entry 93). -/
def Dev.stageRunPath (d : Dev) (runs : List Run) (e : Nat × Nat) : Dev :=
  if runs.any (·.move.isCart) then (d.stagePath e.1 (Config.freeInt d.fresh, 1)).draw 1
  else d.stagePath e.1 (fracSum (runs.map (fun r => r.velocity 0x8000 (r.axes.getD e.2 default))))

/-- Setpoints formed as differences: the velocity and acceleration of a Cartesian move and of a joint-space stop
(R247). -/
def Dev.stageByDifference (d : Dev) (j : Nat) (p : Int) : Dev :=
  let x := look d.joints j
  let tc := d.time.tc
  d.stage j p (rneDiv ((p - x.cmd) * lsbPerSecond) (tc * 256))
    (rneDiv ((p - 2 * x.cmd + x.prev) * lsbPerSecond ^ 2) (tc ^ 2 * 256))

/-- A joint-space stop begins (R127, R128): each joint from its current setpoint and velocity, at a_i. -/
def Dev.beginJointStop (d : Dev) (a : Nat) (reason : BitVec 8) : Dev :=
  let arm := look d.arms a
  let afrac := match arm.runs with
    | r :: _ => r.move.afrac
    | [] => 0x8000
  let d1 := arm.joints.foldl (fun d j => d.onJoint j (fun x =>
    { x with jbase := x.cmd, jdiff := x.cmd - x.prev, jacc := x.amax * afrac })) d
  d1.onArm a (fun x => { x with phase := .stopping, reason := reason, byHold := false, jstop := true, jn := 0,
                                stopSeq := none, ikMiss := 0 })

/-- The setpoint of a joint after `n` periods of a joint-space stop, and whether it is at rest (R127, R128). -/
def Joint.stopPos (x : Joint) (n tc : Nat) : Int × Bool :=
  let f := lsbPerSecond
  let m := x.jdiff.natAbs
  let rest := decide (128 * m * f ^ 2 ≤ x.jacc * n * tc ^ 2) || decide (m = 0)
  let dist : Int := if m = 0 ∨ x.jacc = 0 then 0
    else if rest then (64 * m ^ 2 * f ^ 2 : Int) / (tc ^ 2 * x.jacc)
    else ((m * n * 256 * f ^ 2 : Int) - x.jacc * (n * tc) ^ 2) / (256 * f ^ 2)
  let p := if x.jdiff < 0 then x.jbase - dist else x.jbase + dist
  let hi := if x.jbase ≤ x.pmax then min p x.pmax else p
  (if x.pmin ≤ x.jbase then max hi x.pmin else hi, rest)

/-- A notice of class 0x02 (R135). Its source identity "of PTIM" is class 7 with instance 0: R12 lists no class for PTIM (DESIGN
CHOICE, log entry 117). -/
def Dev.moveNotice (d : Dev) (t code a : Nat) (reason : BitVec 8) (id : BitVec 16) (journalled : Bool) : Dev :=
  d.notice 7 0 t (BitVec.ofNat 16 (0x0200 + code))
    (BitVec.ofNat 32 (a % 256 + reason.toNat * 256 + id.toNat * 65536)) journalled

/-- The id of the running move; 0 without one. -/
def Arm.runId (a : Arm) : BitVec 16 :=
  match a.runs with
  | r :: _ => r.move.id
  | [] => 0

/-- An arm has reached STOPPED (R132, R135). -/
def Dev.armStopped (d : Dev) (t a : Nat) : Dev :=
  let arm := look d.arms a
  (d.onArm a (fun x => { x with phase := .stopped })).moveNotice t 2 a arm.reason arm.runId
    (arm.reason == 4 || arm.reason == 5)

/-- One period of a joint-space stop. -/
def Dev.jointStopStep (d : Dev) (t a : Nat) : Dev :=
  let arm := look d.arms a
  let n := arm.jn + 1
  let r := arm.joints.map (fun j => (j, (look d.joints j).stopPos n d.time.tc))
  let d1 := r.foldl (fun d e => (d.stageByDifference e.1 e.2.1).stagePath e.1
    ((e.2.1 - (look d.joints e.1).cmd) * lsbPerSecond, d.time.tc * 256)) d
  let d2 := d1.onArm a (fun x => { x with jn := n })
  if r.all (fun e => e.2.2) then d2.armStopped t a else d2

/-- Some joint of a Cartesian move cannot stop inside its virtual limits any more (R128): its new setpoint, moved on by the
stopping distance v² / (2 a_i), lies outside them. -/
def Dev.limitHit (d : Dev) (a : Nat) (new : List Int) : Bool :=
  let arm := look d.arms a
  let afrac := match arm.runs with
    | r :: _ => r.move.afrac
    | [] => 0x8000
  let f : Int := lsbPerSecond
  let tc : Int := d.time.tc
  (List.zip arm.joints new).any (fun e =>
    let x := look d.joints e.1
    let diff := e.2 - x.cmd
    let unit : Int := tc ^ 2 * (x.amax * afrac : Nat)
    let way := (if diff < 0 then -1 else 1) * 64 * (diff * f) ^ 2
    !(decide (x.pmin * unit ≤ e.2 * unit + way) && decide (e.2 * unit + way ≤ x.pmax * unit)))

/-- The commanded positions follow the feedback of this period, where it has come (R117); a joint of a rate multiplier has
none (R151). -/
def Dev.followFeedback (d : Dev) (j : Nat) : Dev :=
  d.onJoint j (fun x =>
    let p := if x.fbStamp = some d.bk ∧ !d.multJoint j then x.fb else x.cmd
    { x with cmd := p, prev := p })

/-- The commanded positions of an arm's joints follow feedback in this period: all of them outside RUN, HOLD and TUNE and
at entry to RUN or HOLD, and a joint in MANUAL always (R117, R181). -/
def Dev.followArm (d : Dev) (a : Nat) : Dev :=
  let all := !d.power.mode.torque || decide (d.power.entry = some d.bk)
  (look d.arms a).joints.foldl (fun d j =>
    if all ∨ (look d.loop.joints j).manual then d.followFeedback j else d) d

/-- The setpoints of an arm at rest: its commanded positions. -/
def Dev.holdArm (d : Dev) (a : Nat) : Dev :=
  (look d.arms a).joints.foldl (fun d j => d.stage j (look d.joints j).cmd 0 0) d

/-- An arm's state is kept as its completed interpolation leaves it (R145). -/
def Dev.showArm (d : Dev) (a : Nat) : Dev :=
  let arm := look d.arms a
  let r : Run := arm.runs.headD {}
  d.onArm a (fun x => { x with shown := {
    phase := arm.phase, reason := arm.reason, used := arm.queue.length + arm.runs.length + arm.done.length
    flags := bit (decide (2 ≤ arm.runs.length)) + 2 * bit r.cut + 4 * bit (decide (0 < arm.ikMiss))
    id := arm.runId, s := arm.s, scales := [arm.sHost, arm.sSep, arm.sDeck], tau := r.tau, t := r.t, ta := r.ta
    pos := arm.joints.map (fun j => (look d.joints j).cmd) } })

/-- The interpolation of one arm in RUN or HOLD. On a Cartesian move with s = 0 the arm stands still (R131, R247). -/
def Dev.runArm (d0 : Dev) (t a : Nat) : Dev :=
  let d := d0.onArm a Arm.scale
  let arm := look d.arms a
  if arm.jstop then (if arm.phase = .stopping then d.jointStopStep t a else d.holdArm a)
  else
    let k := look d.kin a
    let cont := arm.joints.map (fun j => (look d.joints j).cmd + ((look d.joints j).cmd - (look d.joints j).prev))
    let cmds := arm.joints.map (fun j => (look d.joints j).cmd)
    let still := decide (arm.s = 0) || decide (arm.phase = .stopped)
    let cartPos := if still then cmds else if k.ikOk then k.ikPos else cont
    let x := d.advanceArm a cartPos
    let cart := x.cartRun.isSome
    let miss := cart && !still && !k.ikOk
    let dm := if miss then d.moveNotice t 4 a 0 (match x.cartRun with
      | some r => r.move.id
      | none => 0) false else d
    if miss ∧ 4 ≤ arm.ikMiss then (dm.beginJointStop a 4).jointStopStep t a
    else if (cart ∨ arm.runs.any (·.move.isCart)) ∧ d.limitHit a (x.positions cartPos) then
      (dm.beginJointStop a 5).jointStopStep t a
    else
      let p := x.positions cartPos
      let phase := if arm.phase = .stopping ∨ arm.phase = .stopped then arm.phase
        else if x.arm.runs.isEmpty then .idle else if arm.s = 0 then .paused else .moving
      let d1 := { dm with arms := put dm.arms a { x.arm with phase := phase, ikMiss := if miss then arm.ikMiss + 1 else 0 } }
      let runs := x.arm.runs.filter (fun r => !r.move.isCart)
      let d2 := (arm.joints.zipIdx).foldl (fun d e =>
        let q := p.getD e.2 0
        let d1 := if cart ∧ still then d.stage e.1 q 0 0
          else if cart then d.stageByDifference e.1 q
          else d.stage e.1 q (rneSum (runs.map (fun r => r.velocity arm.s (r.axes.getD e.2 default))))
            (rneSum (runs.map (fun r => r.acceleration arm.s (r.axes.getD e.2 default))))
        d1.stageRunPath x.arm.runs e) d1
      let d3 := x.cuts.foldl (fun d id => d.moveNotice t 3 a 0 id false) d2
      if arm.phase = .stopping ∧ arm.s = 0 then d3.armStopped t a else d3

/-- In TUNE the setpoints are held, and τ and s are frozen (R134, R198). -/
def Dev.tuneArm (d : Dev) (a : Nat) : Dev :=
  let arm := look d.arms a
  (arm.joints.zipIdx).foldl (fun d e =>
    let d1 := d.stage e.1 (look d.tuning.hold e.1) 0 0
    if arm.jstop then d1 else d1.stageRunPath arm.runs e) d

/-- An arm outside RUN, HOLD and TUNE: its commanded positions follow feedback, s goes on, and a stop that took effect there ends at
s = 0 (R117, R131, R132). -/
def Dev.restArm (d0 : Dev) (t a : Nat) : Dev :=
  let d := ((d0.followArm a).onArm a Arm.scale).holdArm a
  if (look d.arms a).phase = .stopping ∧ (look d.arms a).s = 0 then d.armStopped t a else d

/-- The interpolation of one arm in the present mode (R117, R134). -/
def Dev.stepArm (d : Dev) (t a : Nat) : Dev :=
  match d.power.mode with
  | .run => (d.followArm a).runArm t a
  | .hold => (d.followArm a).runArm t a
  | .tune => d.tuneArm a
  | .commission => d.restArm t a
  | .ready => d.restArm t a
  | .safeOff => d.restArm t a
  | _ => d

/-- The interpolation of a period, arm by arm. -/
def Dev.interpolate (d : Dev) (t : Nat) : Dev :=
  if d.power.mode ∈ working then d.armList.foldl (fun d a => (d.stepArm t a).showArm a) d else d

/-! ### The state for the next boundary, as the arm's problems evaluate it (R247) -/

/-- S_k: the commanded positions after the last interpolation, P_hold in TUNE, and feedback where they follow it (R247, R257). -/
def Dev.startPositions (d : Dev) (a : Nat) : List Int :=
  let d1 := d.followArm a
  (look d.arms a).joints.map (fun j => if d.power.mode = .tune then look d.tuning.hold j else (look d1.joints j).cmd)

/-- The pose that a Cartesian move of an arm takes for B_{k+1}, in the deck frame at t_e (R126, R247, R291); none where the arm
is in no Cartesian move, or stands. -/
def Dev.poseAhead (d : Dev) (a : Nat) : Option Pose :=
  let d1 := (d.followArm a).onArm a Arm.scale
  let arm := look d1.arms a
  if !(decide (d.power.mode = .run) || decide (d.power.mode = .hold)) ∨ arm.jstop ∨ arm.s = 0 ∨ arm.phase = .stopped then none
  else (d1.advanceArm a (d1.startPositions a)).pose.map (fun e =>
    (d1.frameAt e.1 (d1.deckAhead a) (d1.bNext + d1.tLead a)).then e.2)

/-- The joints of an arm with position, velocity and acceleration for B_{k+1}: what the interpolation of this period will
stage, from the state fixed at B_k (R247). -/
def Dev.jointsAhead (d : Dev) (t a : Nat) : List Joint :=
  (look d.arms a).joints.map (fun j => look (d.stepArm t a).joints j)

/-- IK_MISS_LIMIT (R127): after the fourth period without a usable result the arm makes a joint-space stop. -/
def Dev.ikMissLimit (d : Dev) (a : Nat) : Dev :=
  let arm := look d.arms a
  if 4 ≤ arm.ikMiss ∧ arm.phase ≠ .stopped ∧ !arm.jstop ∧ (d.power.mode = .run ∨ d.power.mode = .hold)
  then d.beginJointStop a 4 else d

/-- IK_MISS_LIMIT (R127). -/
def execIkMissLimit (t : Nat) (arm : Fin 16) (s : State) : Host.Outcome State Fault Refusal :=
  s.act (fun d => (d.advance t).ikMissLimit arm.val)

/-! ### Step 2 of a boundary (R120) -/

/-- The moves whose interpolation reached their end are retired (R119, R120, R135). -/
def Dev.retireMoves (d : Dev) (t a : Nat) : Dev :=
  let arm := look d.arms a
  let d1 := arm.done.foldl (fun d m => if m.notify then d.moveNotice t 1 a 0 m.id false else d) d
  d1.onArm a (fun x => { x with done := [] })

/-- A stop by STOP_ARMS, or one staged for its boundary, takes effect on an arm. -/
def Dev.stopArm (d : Dev) (a : Nat) (reason : BitVec 8) (byHold : Bool) : Dev :=
  d.onArm a (fun x => x.beginStop d.time.tc reason byHold)

/-- A flush discards the moves that have not started and were accepted before it; of messages that one doorbell write stamps alike
the sequence says which came first. The junction of a running move that is not decided is no longer blended (R120, R144). -/
def Arm.flush (a : Arm) (stamp : Nat) (seq : BitVec 16) : Arm :=
  { a with
    queue := a.queue.filter (fun m => !(decide (m.stamp < stamp) || (decide (m.stamp = stamp) && decide (0 < (seq - m.seq).toInt))))
    runs := a.runs.map (fun r => { r with bEff := some (r.bEff.getD 0) }) }

/-- The arms of a mask that are configured. -/
def Dev.armsOf (d : Dev) (m : BitVec 16) : List Nat := d.armList.filter (fun a => m.getLsbD a)

/-- What step 2 of R120 applies, with its stamp. -/
inductive QueueAct where
  | stop (mask : BitVec 16) (flush : Bool) (seq : BitVec 16)
  | resume (mask : BitVec 16)
  | flush (mask : BitVec 16) (seq : BitVec 16)
  | scaling (p : SetScaling)
  | armStop (arm : Nat) (reason : BitVec 8)
deriving DecidableEq, Repr

/-- The queue command that an accepted command is. -/
def queueAct : Instr → Option QueueAct
  | .stopArms h p => some (.stop p.arms (p.flush == 1) h.seq)
  | .resumeArms _ p => some (.resume p.arms)
  | .flushQueue h p => some (.flush p.arms h.seq)
  | .setScaling _ p => some (.scaling p)
  | _ => none

/-- A queue command takes effect. -/
def Dev.applyQueueAct (d : Dev) (stamp : Nat) (q : QueueAct) : Dev :=
  match q with
  | .stop m fl seq => (d.armsOf m).foldl (fun d a =>
      let e := d.stopArm a 0 false
      if fl then e.onArm a (fun x => x.flush stamp seq) else e) d
  | .resume m => (d.armsOf m).foldl (fun d a => d.onArm a Arm.resume) d
  | .flush m seq => (d.armsOf m).foldl (fun d a => d.onArm a (fun x => x.flush stamp seq)) d
  | .scaling p => (d.armsOf p.arms).foldl (fun d a => d.onArm a (fun x =>
      { x with sHost := p.sHost.toNat, slew := p.slew.toNat })) d
  | .armStop a r => (d.stopArm a r ((look d.arms a).byHold || (decide (r = 3) && decide (d.power.mode = .hold)))).onArm a
      (fun x => { x with stopNext := none })

/-- The queue commands and staged stops that are due at a boundary, by stamp. -/
def Dev.queueActs (d : Dev) (b : Nat) : List (Nat × QueueAct) :=
  let cmds := d.waiting.filterMap (fun w => if w.effB ≤ b then (queueAct w.cmd).map (fun q => (w.stamp, q)) else none)
  let stops := d.armList.filterMap (fun a => match (look d.arms a).stopNext with
    | some (e, r, s) => if e ≤ b then some (s, QueueAct.armStop a r) else none
    | none => none)
  (cmds ++ stops).mergeSort (fun x y => decide (x.1 ≤ y.1))

/-- A local brake reports released at a boundary: it is in HOLD, and its accepted feedback is released (R386). -/
def Brake.reports (b : Brake) : Bool :=
  match b.cfg with
  | some c => decide (b.phase = .hold) && (b.fb == decide (c.fbPol = 1))
  | none => false

/-- The brakes of an arm report released (R134, R406, R475): its local brakes, and the brakes of its drive nodes by their
SAFE_POS data, or by the brake bit of their FEEDBACK where no SAFE_POS has come. -/
def Dev.brakesReleased (d : Dev) (a : Nat) : Bool :=
  d.safety.released && (look d.arms a).joints.all (fun j =>
    let sj := look d.safety.joints j
    (d.pwm.brakes.all (fun e => match e.2.cfg with
      | some c => c.joint.toNat != j || e.2.reports
      | none => true))
    && (if sj.known then !sj.braked
        else (look d.joints j).fbStamp.isNone || (look d.joints j).fbState.getLsbD 0))

/-- The oldest eligible move starts, where the arm has no running move and may move (R120, R134, R181). Its T and t_a are
formed from the commanded positions at the boundary; its first interpolation forms them again, because the positions
follow feedback in the period in which RUN is entered (R117, R123). -/
def Dev.startMove (d : Dev) (a : Nat) : Dev :=
  let arm := look d.arms a
  match arm.runs, arm.queue with
  | [], m :: rest =>
    if d.power.mode = .run ∧ arm.phase ≠ .stopping ∧ arm.phase ≠ .stopped ∧ m.effB ≤ d.bk ∧ d.brakesReleased a
      ∧ arm.joints.all (fun j => !(look d.loop.joints j).manual)
    then d.onArm a (fun x => { x with
      runs := [{ d.newRun a m arm.lastCart (arm.joints.map (fun j => (look d.joints j).cmd)) 0 with init := false }]
      queue := rest, phase := .moving })
    else d
  | _, _ => d

/-- A staged s_sep or s_deck that comes into use (R131). -/
def Arm.takeScales (a : Arm) (b : Nat) : Arm :=
  let a1 := match a.sSepNext with
    | some (e, v) => if e ≤ b then { a with sSep := v, sSepNext := none } else a
    | none => a
  match a1.sDeckNext with
  | some (e, v) => if e ≤ b then { a1 with sDeck := v, sDeckNext := none } else a1
  | none => a1

/-- Step 2 of a boundary as far as R120's own steps 1 and 2: moves retired, and what was accepted in effect, before the entry
actions of a mode that begins at the boundary (R61). -/
def Dev.queueChanges (d : Dev) (b : Nat) : Dev :=
  let d1 := d.armList.foldl (fun d a => (d.retireMoves b a).onArm a (fun x => x.takeScales b)) d
  let d2 := (d1.queueActs b).foldl (fun d e => d.applyQueueAct e.1 e.2) d1
  { d2 with waiting := d2.waiting.filter (fun w => !(decide (w.effB ≤ b) && (queueAct w.cmd).isSome)) }

/-- The rest of it, under the mode in force: eligible moves start (R120). -/
def Dev.startMoves (d : Dev) : Dev := d.armList.foldl (fun d a => d.startMove a) d

/-! ### Configuration as it will stand at the next boundaries (R124) -/

/-- CONFIG_ARM of an arm as accepted so far. -/
def Dev.armView (d : Dev) (a : Nat) : Option ConfigArm :=
  d.waiting.foldl (fun acc w => match w.cmd with
    | .configArm _ p => if p.arm.toNat = a then (if p.joints = 0 then none else some p) else acc
    | _ => acc) (look d.arms a).cfg

/-- The joints of a CONFIG_ARM. -/
def armJoints (c : Option ConfigArm) : List Nat :=
  match c with
  | some p => (List.range p.joints.toNat).map (fun j => p.first.toNat + j)
  | none => []

/-- The limits of a joint as accepted so far: vmax, amax, pmin, pmax (R124, R137). A CONFIG_ARM of the arm that holds the joint by
then, itself accepted or in force, returns them to their reset values. -/
def Dev.limitView (d : Dev) (j : Nat) : Nat × Nat × Int × Int :=
  let x := look d.joints j
  (d.waiting.zipIdx).foldl (fun acc e => match e.1.cmd with
    | .setJointLimits _ p => if p.joint.toNat = j then (p.vmax.toNat, p.amax.toNat, p.pmin.toInt, p.pmax.toInt) else acc
    | .configArm _ p =>
      if j ∈ armJoints (({ d with waiting := d.waiting.take e.2 } : Dev).armView p.arm.toNat) then (0, 0, 0, 0) else acc
    | _ => acc) (x.vmax, x.amax, x.pmin, x.pmax)

/-- An arm has a kinematic model as accepted so far: a CONFIG_ARM that waits will read the image's (R242). -/
def Dev.kinView (d : Dev) (a : Nat) : Bool :=
  if d.waiting.any (fun w => match w.cmd with
      | .configArm _ p => decide (p.arm.toNat = a)
      | _ => false)
  then ({ model := d.modelOf a } : Kin).hasKin else (look d.kin a).hasKin

/-! ### Commands (R136 to R145) -/

/-- Every arm of the mask is configured, and there is one. A CONFIG_ARM that is accepted but not in effect does not count here: a mask
acts on what is (DESIGN CHOICE, log entry 185; R138 to R144 do not say). -/
def Dev.maskOk (d : Dev) (m : BitVec 16) : Bool :=
  decide (m ≠ 0) && (List.range 16).all (fun a => !m.getLsbD a || (look d.arms a).cfg.isSome)

/-- A 64-bit field is a sign-extended 48-bit position. -/
def pos48 (w : BitVec 64) : Bool := decide (-(2 ^ 47) ≤ w.toInt) && decide (w.toInt < 2 ^ 47)

/-- CONFIG_ARM (R116, R136, R242). -/
def semConfigArm (h : Hdr) (p : ConfigArm) : Sem where
  op := 0x0200
  lenOk := h.length = 24
  modes := [.ready]
  range := fun _ => decide (p.arm.toNat ≤ 15) && p.reserved0 == 0 && p.reserved1 == 0
    && (p.joints == 0 || (decide (p.joints.toNat ≤ 12) && decide (p.first.toNat + p.joints.toNat ≤ 128)
      && decide (p.kinds.toNat < 2 ^ p.joints.toNat) && p.vLin != 0 && p.aLin != 0 && p.vRot != 0 && p.aRot != 0))
  cond := fun d =>
    let a := p.arm.toNat
    let others := ((List.range 16).filter (fun i => i ≠ a)).flatMap (fun i => armJoints (d.armView i))
    firstFail [(p.joints == 0 || !d.domOff 8, .range), ((look d.arms a).queue.isEmpty, .range),
      ((armJoints (some p)).all (fun j => j ∉ others), .range),
      (p.joints == 0 || d.modelFits a p.joints.toNat, .range),
      (p.joints == 0 || !d.modelWork a || !d.solverOff, .range),
      (d.mirrorRoom h.stamp (.configArm h p), .range)]
  eff := fun d => (d.await h.stamp (.configArm h p), some (.ok, []))

/-- CONFIG_ARM at its boundary (R131, R137, R242): the old joints' limits return to their reset values, and the arm is
new, but for the host's override and the moves appended to it since the command was accepted, when its queue was empty. -/
def Dev.applyConfigArm (d : Dev) (p : ConfigArm) : Dev :=
  let a := p.arm.toNat
  let old := look d.arms a
  let d1 := { d with joints := old.joints.foldl (fun m j => upd m j (fun x =>
    { x with vmax := 0, amax := 0, pmin := 0, pmax := 0 })) d.joints }
  if p.joints = 0 then ({ d1 with arms := put d1.arms a { sHost := old.sHost, slew := old.slew } } : Dev).dropModel a
  else ({ d1 with arms := put d1.arms a { cfg := some p, sHost := old.sHost, slew := old.slew, queue := old.queue } } :
    Dev).readModel a

/-- SET_JOINT_LIMITS (R137). -/
def semSetJointLimits (h : Hdr) (p : SetJointLimits) : Sem where
  op := 0x0201
  lenOk := h.length = 28
  modes := [.ready]
  range := fun _ => decide (p.joint.toNat ≤ 127) && p.reserved == 0 && decide (0 < p.vmax.toInt) && decide (0 < p.amax.toInt)
    && pos48 p.pmin && pos48 p.pmax && decide (p.pmin.toInt < p.pmax.toInt)
  cond := fun d => firstFail [((List.range 16).any (fun a => decide (p.joint.toNat ∈ armJoints (d.armView a))), .range)]
  eff := fun d => (d.await h.stamp (.setJointLimits h p), some (.ok, []))

/-- SET_JOINT_LIMITS at its boundary. -/
def Dev.applyJointLimits (d : Dev) (p : SetJointLimits) : Dev :=
  d.onJoint p.joint.toNat (fun x => { x with vmax := p.vmax.toNat, amax := p.amax.toNat, pmin := p.pmin.toInt,
                                             pmax := p.pmax.toInt })

/-- SET_SCALING (R138). -/
def semSetScaling (h : Hdr) (p : SetScaling) : Sem where
  op := 0x0202
  lenOk := h.length = 8
  modes := [.ready, .run, .hold, .tune]
  range := fun d => d.maskOk p.arms && decide (p.sHost.toNat ≤ 0x8000) && decide (1 ≤ p.slew.toNat)
    && decide (p.slew.toNat ≤ 0x8000) && p.reserved == 0
  eff := fun d => (d.await h.stamp (.setScaling h p), some (.ok, []))

/-- The queue of an arm has a free entry (R119). -/
def Arm.room (a : Arm) : Bool := decide (a.queue.length + a.runs.length + a.done.length < 64)

/-- A move joins the queue (R119, R120). -/
def Dev.append (d : Dev) (a : Nat) (m : QMove) : Dev := d.onArm a (fun x => { x with queue := x.queue ++ [m] })

/-- The joints' limits allow a move to be queued (R124, R137), for the arm as accepted so far. -/
def Dev.limitsSet (d : Dev) (a : Nat) : Bool :=
  (armJoints (d.armView a)).all (fun j => decide (0 < (d.limitView j).1) && decide (0 < (d.limitView j).2.1))

/-- APPEND_JOINT_MOVE (R124, R139, R140). -/
def semAppendJointMove (h : Hdr) (p : AppendJointMove) : Sem where
  op := 0x0210
  lenOk := h.length = 112
  modes := [.ready, .run, .hold]
  range := fun d =>
    let js := armJoints (d.armView p.arm.toNat)
    decide (p.arm.toNat ≤ 15) && (d.armView p.arm.toNat).isSome && p.flags &&& 0xFE == 0
      && decide (1 ≤ p.vfrac.toNat) && decide (p.vfrac.toNat ≤ 0x8000) && decide (1 ≤ p.afrac.toNat)
      && decide (p.afrac.toNat ≤ 0x8000) && decide (p.blend.toNat < 2147483648) && p.reserved0 == 0
      && p.targets.all pos48 && (p.targets.drop js.length).all (fun w => w == 0)
  cond := fun d =>
    let a := p.arm.toNat
    let arm := look d.arms a
    firstFail [(d.limitsSet a, .range),
      ((List.zip (armJoints (d.armView a)) p.targets).all (fun e =>
        let (_, _, lo, hi) := d.limitView e.1
        decide (lo ≤ e.2.toInt) && decide (e.2.toInt ≤ hi)), .range),
      (arm.room, .queueFull)]
  eff := fun d =>
    let a := p.arm.toNat
    (d.append a { notify := p.flags.getLsbD 0, id := p.id, vfrac := p.vfrac.toNat, afrac := p.afrac.toNat,
                  blend := p.blend.toNat, stamp := h.stamp, seq := h.seq, effB := d.effectAt h.stamp
                  goal := .joint ((p.targets.take (armJoints (d.armView a)).length).map BitVec.toInt) }, some (.ok, []))

/-- APPEND_CART_MOVE (R139, R141, R242). A DEFINE_LOAD_FRAME that is accepted but not in effect defines no load frame yet (DESIGN CHOICE,
log entry 186). -/
def semAppendCartMove (h : Hdr) (p : AppendCartMove) : Sem where
  op := 0x0211
  lenOk := h.length = 48
  modes := [.ready, .run, .hold]
  range := fun d =>
    decide (p.arm.toNat ≤ 15) && (d.armView p.arm.toNat).isSome && p.flags &&& 0xFE == 0
      && decide (1 ≤ p.vfrac.toNat) && decide (p.vfrac.toNat ≤ 0x8000) && decide (1 ≤ p.afrac.toNat)
      && decide (p.afrac.toNat ≤ 0x8000) && decide (p.blend.toNat < 2147483648) && p.reserved0 == 0
      && decide (p.frame.toNat ≤ 2) && p.reserved1 == 0 && quatOk [p.qw.toInt, p.qx.toInt, p.qy.toInt, p.qz.toInt]
  cond := fun d =>
    let a := p.arm.toNat
    firstFail [(d.limitsSet a, .range), (d.kinView a, .range), (p.frame != 2 || d.deck.loadDef.isSome, .range),
      ((look d.arms a).room, .queueFull)]
  eff := fun d =>
    (d.append p.arm.toNat { notify := p.flags.getLsbD 0, id := p.id, vfrac := p.vfrac.toNat, afrac := p.afrac.toNat,
                            blend := p.blend.toNat, stamp := h.stamp, seq := h.seq, effB := d.effectAt h.stamp
                            goal := .cart p.frame [p.x.toInt, p.y.toInt, p.z.toInt]
                              [p.qw.toInt, p.qx.toInt, p.qy.toInt, p.qz.toInt] }, some (.ok, []))

/-- STOP_ARMS (R142). -/
def semStopArms (h : Hdr) (p : StopArms) : Sem where
  op := 0x0220
  lenOk := h.length = 4
  modes := [.run, .hold]
  range := fun d => d.maskOk p.arms && decide (p.flush.toNat ≤ 1) && p.reserved == 0
  eff := fun d => (d.await h.stamp (.stopArms h p), some (.ok, []))

/-- RESUME_ARMS (R143). -/
def semResumeArms (h : Hdr) (p : ResumeArms) : Sem where
  op := 0x0221
  lenOk := h.length = 4
  modes := [.run]
  range := fun d => d.maskOk p.arms && p.flush == 0 && p.reserved == 0
  cond := fun d => firstFail [(!d.ssmHolds p.arms, .mode)]
  eff := fun d => (d.await h.stamp (.resumeArms h p), some (.ok, []))

/-- FLUSH_QUEUE (R144). -/
def semFlushQueue (h : Hdr) (p : FlushQueue) : Sem where
  op := 0x0222
  lenOk := h.length = 4
  modes := [.ready, .run, .hold, .safeOff]
  range := fun d => d.maskOk p.arms && p.flush == 0 && p.reserved == 0
  eff := fun d => (d.await h.stamp (.flushQueue h p), some (.ok, []))

/-- GET_ARM_STATE (R145): as of the last completed interpolation. -/
def semGetArmState (h : Hdr) (p : GetArmState) : Sem where
  op := 0x0230
  lenOk := h.length = 4
  link := .both
  range := fun d => p.reserved == 0 && decide (p.arm.toNat ≤ 15) && (look d.arms p.arm.toNat).cfg.isSome
  eff := fun d =>
    let a := look d.arms p.arm.toNat
    let x := a.shown
    (d, some (.ok, leBytes 1 x.phase.code ++ wordBytes x.reason ++ leBytes 1 x.used ++ leBytes 1 x.flags
      ++ wordBytes x.id ++ leBytes 2 x.s ++ (List.range 3).flatMap (fun i => leBytes 2 (x.scales.getD i 0)) ++ leBytes 2 0
      ++ leBytes 8 x.tau ++ leBytes 8 x.t ++ leBytes 8 x.ta
      ++ (List.range 12).flatMap (fun i => intBytes 8 (x.pos.getD i 0))))

def execConfigArm (h : Hdr) (p : ConfigArm) (s : State) : Host.Outcome State Fault Refusal := s.act (runCmd (semConfigArm h p) h)

def execSetJointLimits (h : Hdr) (p : SetJointLimits) (s : State) : Host.Outcome State Fault Refusal :=
  s.act (runCmd (semSetJointLimits h p) h)

def execSetScaling (h : Hdr) (p : SetScaling) (s : State) : Host.Outcome State Fault Refusal :=
  s.act (runCmd (semSetScaling h p) h)

def execAppendJointMove (h : Hdr) (p : AppendJointMove) (s : State) : Host.Outcome State Fault Refusal :=
  s.act (runCmd (semAppendJointMove h p) h)

def execAppendCartMove (h : Hdr) (p : AppendCartMove) (s : State) : Host.Outcome State Fault Refusal :=
  s.act (runCmd (semAppendCartMove h p) h)

def execStopArms (h : Hdr) (p : StopArms) (s : State) : Host.Outcome State Fault Refusal := s.act (runCmd (semStopArms h p) h)

def execResumeArms (h : Hdr) (p : ResumeArms) (s : State) : Host.Outcome State Fault Refusal :=
  s.act (runCmd (semResumeArms h p) h)

def execFlushQueue (h : Hdr) (p : FlushQueue) (s : State) : Host.Outcome State Fault Refusal :=
  s.act (runCmd (semFlushQueue h p) h)

def execGetArmState (h : Hdr) (p : GetArmState) (s : State) : Host.Outcome State Fault Refusal :=
  s.act (runCmd (semGetArmState h p) h)

end Sys2Proof.Machine
end

