-- ==== Sys2Proof/Machine/Rates.lean ====
section
/-! DEFINITION. Rate multipliers, steps and coil choppers (spec/07_rate_multiplier_chopper.md): the accumulators, the pulse
generator, the velocity words, the coil cycle, and the commands 0x0B00 to 0x0B02 (R146 to R164). -/

namespace Sys2Proof.Machine

/-! ### Step pulses (R146, R153) -/

/-- STEP_PULSE (R146, R153): step channel m runs for so many ticks. -/
def execStepPulse (t : Nat) (m : Fin 16) (ticks : Nat) (s : State) : Host.Outcome State Fault Refusal :=
  s.act (fun d =>
    let d := d.advance t
    if d.power.mode.torque ∧ (look d.mults m.val).step.isSome then d.runMult t m.val ticks else d)

/-! ### Velocity words (R147 to R151) -/

/-- N_nom (R147). -/
def nNom (tc : Nat) : Nat := tc * 25000 / 64000

/-- v_max of a multiplier (R152); for a chopper, the range of the word. -/
def Mult.vMax (m : Mult) : Nat :=
  match m.step with
  | some c => 2147483648 / c.w.toNat
  | none => 2147483647

/-- The velocity word that carries A_end to a setpoint's phase, and the difference it leaves (R149). -/
def velocityWord (a : BitVec 48) (target : BitVec 48) (n vMax : Nat) : Int × Int :=
  let diff := (target - a).toInt
  let v := rneDiv diff n
  (clampInt (-vMax) vMax v, diff)

/-- The firmware hands each enabled multiplier the setpoint of the next boundary (R149). The word is formed at the
reference tick from the actual tick count. -/
def Dev.velocityWords (d : Dev) : Dev :=
  if d.power.mode.torque then
    { d with mults := mapTab (fun _ m => match m.joint with
      | some (j, _) => { m with target := some (look d.joints j).cmd }
      | none => m) d.mults }
  else d

/-- The reference tick of a period for one multiplier whose ticks of the period that ends have run (R147, R149, R150, R159): the new
word is loaded. Without a fresh one the old word stays, with its flag, and the period is missed (R24), unless the channel was loaded
since (R151). -/
def Dev.refTick (d1 : Dev) (t i : Nat) : Dev :=
  let m := look d1.mults i
  let m1 := { m with a := m.now, ticks := 0, loaded := false }
  match m.joint, m.target with
  | some (_, k), some s =>
    let n := nNom d1.time.tc
    let (v, diff) := velocityWord m1.a (phaseOf s k) n m.vMax
    let lag := (diff - v * n).natAbs / 65536
    let sat := decide (v ≠ rneDiv diff n)
    let d2 := { d1 with mults := put d1.mults i { m1 with v := v, target := none, sat := sat, lag := lag } }
    let limit := match m.step with
      | some c => c.lagLimit.toNat
      | none => 2147483647
    if sat ∧ limit < lag then (d2.rateNotice t 1 i false).faultEvent 9 i t else d2
  | j, _ =>
    let d2 := { d1 with mults := put d1.mults i m1 }
    if j.isSome ∧ !m.loaded then d2.missed t 12 else d2

/-- The reference tick in a mode in which A holds (R154): no word is loaded, none is clamped, and nothing is followed. -/
def Mult.restTick (m : Mult) : Mult := { m with a := m.now, ticks := 0, v := 0, target := none, sat := false, lag := 0 }

/-- A chopper channel at a boundary counts its periods with V = 0, in any mode, the one that begins among them, and i_hold or i_run
applies (R159). -/
def Dev.holdCount (d : Dev) (c : Nat) : Dev :=
  let m := look d.mults (16 + c)
  match m.chop with
  | some p => d.onChop c (fun x =>
      if m.v ≠ 0 then { x with zero := 0, atHold := false }
      else { x with zero := x.zero + 1, atHold := x.atHold || decide (p.holdDelay.toNat ≤ x.zero) })
  | none => d

/-- What GET_RATE_STATE shows is kept as the reference tick leaves it (R164). -/
def Dev.showRates (d : Dev) : Dev :=
  { d with
    mults := mapTab (fun _ m => { m with shown := {
      a := m.a, v := m.v, emitted := m.gen.emitted, lag := m.lag, sat := m.sat, enabled := m.joint.isSome } }) d.mults
    chops := mapTab (fun _ x => { x with shown := {
      refA := x.coilA.ref, refB := x.coilB.ref, latched := x.latched, atHold := x.atHold } }) d.chops }

/-- The sampled position of a joint of a rate multiplier is its commanded position (R151). -/
def Dev.sampleMults (d : Dev) (b : Nat) : Dev :=
  d.mults.foldl (fun d e => match e.2.joint with
    | some (j, _) => d.onJoint j (fun x => { x with fbLast := some x.fb, fb := x.cmd, fbStamp := some b })
    | none => d) d

/-- The multipliers run through the ticks of the period that ends, before a mode that begins with the next one stops them (R146,
R153). -/
def Dev.endRates (d : Dev) (t ticks : Nat) : Dev := if d.power.mode.torque then d.runMults t ticks else d

/-- Step 3 of a boundary for the multipliers; outside RUN, HOLD and TUNE A holds (R154). -/
def Dev.rateStep (d0 : Dev) (t : Nat) : Dev :=
  let d := d0.sampleMults t
  let d1 := if d.power.mode.torque
    then (List.range 24).foldl (fun d i => if (look d.mults i).joint.isSome then d.refTick t i else d) d
    else { d with mults := mapTab (fun _ m => m.restTick) d.mults }
  ((List.range 8).foldl Dev.holdCount d1).showRates

/-- HOLD_DELAY (R159): after hold_delay whole periods at V = 0, i_hold applies from the boundary that ended the last of them. -/
def execHoldDelay (t : Nat) (c : Fin 8) (s : State) : Host.Outcome State Fault Refusal :=
  s.act (fun d0 =>
    let d := d0.advance t
    let m := look d.mults (16 + c.val)
    match m.chop with
    | some p => d.onChop c.val (fun x => if m.v = 0 ∧ p.holdDelay.toNat < x.zero then { x with atHold := true } else x)
    | none => d)

/-! ### Coil references (R156, R157) -/

/-- ref of a coil (R156): rne(1023 × cos × amp / 32768); the sine is the cosine a quarter cycle earlier. -/
def coilRef (theta amp : Nat) (b : Bool) : Int :=
  let n := if b then theta + 768 else theta
  rneReal (fun p => 1023 * amp * sinAt p (4 * n + 1024) 4096 / 32768)

/-- One coil of a chopper channel. -/
def Chopper.coil (x : Chopper) (c : Coil) : CoilState :=
  match c with
  | .a => x.coilA
  | .b => x.coilB

/-- A coil of a chopper channel changed by a function. -/
def Chopper.onCoil (x : Chopper) (c : Coil) (f : CoilState → CoilState) : Chopper :=
  match c with
  | .a => { x with coilA := f x.coilA }
  | .b => { x with coilB := f x.coilB }

/-- The gates HH, HL, LH, LL that a phase commands (R155), in a polarity; `fast` tells fast decay from slow. -/
def CoilPhase.gates (p : CoilPhase) (neg fast : Bool) : List Bool :=
  match p with
  | .off => [false, false, false, false]
  | .blank => [!neg, neg, neg, !neg]
  | .drive => [!neg, neg, neg, !neg]
  | .decay => if fast then [neg, !neg, !neg, neg] else [false, true, false, true]
  | .slow => [false, true, false, true]

/-- LSB of fast decay at the start of an off-time: fast/16 of t_off (R158). -/
def fastPart (p : ConfigChopper) : Nat := p.fast.toNat * p.tOff.toNat * 16

/-- The gates commanded at an instant. -/
def CoilState.commanded (c : CoilState) (p : ConfigChopper) (t : Nat) : List Bool :=
  c.phase.gates c.neg (decide (t < c.since + fastPart p))

/-- When each gate last went off, as it stands at an instant: the switch from fast to slow decay lies inside a phase. -/
def CoilState.offs (c : CoilState) (p : ConfigChopper) (t : Nat) : List Nat :=
  if c.phase = .decay ∧ 0 < fastPart p ∧ c.since + fastPart p ≤ t then
    List.zipWith (fun (x : Bool × Bool) o => if x.1 && !x.2 then c.since + fastPart p else o)
      (List.zip (c.phase.gates c.neg true) (c.phase.gates c.neg false)) c.offAt
  else c.offAt

/-- A coil enters a phase at an instant, in the polarity of its reference where it drives: gates that go off are stamped. -/
def CoilState.enter (c : CoilState) (p : ConfigChopper) (t : Nat) (ph : CoilPhase) : CoilState :=
  let neg := if ph = .blank then decide (c.ref < 0) else c.neg
  let now := c.commanded p t
  { c with phase := ph, neg := neg, since := t, driveAt := if ph = .blank then t else c.driveAt
           offAt := List.zipWith (fun (x : Bool × Bool) o => if x.1 && !x.2 then t else o)
             (List.zip now (ph.gates neg (decide (0 < fastPart p)))) (c.offs p t) }

/-- A drive phase begins with blanking, in the polarity of the reference; a reference of 0 holds slow decay (R158). -/
def CoilState.drive (c : CoilState) (p : ConfigChopper) (t : Nat) : CoilState :=
  c.enter p t (if c.ref = 0 then .slow else .blank)

/-- The break time of a channel in LSB, rounded up (R155, R163). -/
def breakTime (p : ConfigChopper) : Nat := ((p.brk.toNat + 256 * p.brkHi.toNat) * 64 + 24) / 25

/-- The levels of HH, HL, LH, LL at an instant: a gate is on only after the other gate of its leg has been off for the break time
(R155). -/
def CoilState.gatesAt (c : CoilState) (p : ConfigChopper) (t : Nat) : List Bool :=
  let on := c.commanded p t
  let off := c.offs p t
  (List.range 4).map (fun i => on.getD i false && decide (off.getD (i ^^^ 1) 0 + breakTime p ≤ t))

/-- A drive phase goes on in the polarity of the reference (R155, R157): its gates change over, and those that go off are stamped.
That its blanking and its limit run on is the model's choice (DESIGN CHOICE, log entry 187). -/
def CoilState.turn (c : CoilState) (p : ConfigChopper) (t : Nat) : CoilState :=
  let neg := decide (c.ref < 0)
  let gates := List.zip (c.commanded p t) (c.phase.gates neg false)
  { c with neg := neg, offAt := List.zipWith (fun (x : Bool × Bool) o => if x.1 && !x.2 then t else o) gates (c.offs p t) }

/-- A coil takes its reference at a PWM period (R157, R158). A reference of 0 holds slow decay from that instant, in an off-time too,
and the next one that is not 0 begins a drive phase (DESIGN CHOICE, log entry 187: R158 does not say what an off-time cut so does). -/
def CoilState.take (c : CoilState) (p : ConfigChopper) (t : Nat) (r : Int) : CoilState :=
  let c1 := { c with ref := r }
  if r = 0 then (if c.phase = .slow then c1 else c1.enter p t .slow)
  else match c.phase with
    | .off => c1.drive p t
    | .slow => c1.drive p t
    | .decay => c1
    | _ => if c.neg = decide (r < 0) then c1 else c1.turn p t

/-- A chopper channel is enabled (R157, R158, R163). -/
def Dev.chopEnabled (d : Dev) (c : Nat) : Bool :=
  (look d.mults (16 + c)).chop.isSome && !(look d.chops c).latched && !d.isRetired 9 (16 + c)

/-- The chopper of a channel regulates (R160). -/
def Dev.chopOn (d : Dev) (c : Nat) : Bool := d.power.mode.torque && d.chopEnabled c

/-- A coil of an enabled channel gets its reference, which drives its bridge where the chopper regulates (R157, R160). -/
def CoilState.refer (c : CoilState) (p : ConfigChopper) (t : Nat) (run : Bool) (r : Int) : CoilState :=
  if run then c.take p t r else { c with ref := r }

/-- A PWM period begins: the coils' references are taken from the accumulator after so many more ticks (R156, R157). -/
def Dev.chopRefs (d : Dev) (t c ticks : Nat) : Dev :=
  if d.chopEnabled c then
    let run := d.power.mode.torque
    let d1 := if run then d.runMult t (16 + c) ticks else d
    let m := look d1.mults (16 + c)
    let theta := m.now.toNat / 2 ^ 24 % 1024
    let p := m.chop.getD default
    let amp := if (look d1.chops c).atHold then p.iHold.toNat else p.iRun.toNat
    d1.onChop c (fun x => { x with coilA := x.coilA.refer p t run (coilRef theta amp false),
                                   coilB := x.coilB.refer p t run (coilRef theta amp true) })
  else d

/-- CHOP_REF_PWM_PERIOD (R156, R157). -/
def execChopRefPwmPeriod (t : Nat) (c : Fin 8) (ticks : Nat) (s : State) : Host.Outcome State Fault Refusal :=
  s.act (fun d => (d.advance t).chopRefs t c.val ticks)

/-! ### The coil cycle (R158) -/

/-- The configuration of a chopper channel. -/
def Dev.chopCfg (d : Dev) (c : Nat) : ConfigChopper := (look d.mults (16 + c)).chop.getD default

/-- A coil's phase in the cycle changes, where the channel regulates, the coil is in the phase named, and a time of quarters of
a microsecond has passed since the instant `from_` gives. -/
def Dev.coilEvent (d : Dev) (t c : Nat) (k : Coil) (p : CoilPhase) (from_ : CoilState → Nat) (quarters : ConfigChopper → Nat)
    (f : Dev → Dev) : Dev :=
  let y := (look d.chops c).coil k
  if d.chopOn c ∧ y.phase = p ∧ from_ y + 256 * quarters (d.chopCfg c) ≤ t then f d else d

/-- A coil of a channel enters a phase. -/
def Dev.coilEnter (d : Dev) (t c : Nat) (k : Coil) (ph : CoilPhase) (f : CoilState → CoilState) : Dev :=
  d.onChop c (fun x => x.onCoil k (fun y => (f y).enter (d.chopCfg c) t ph))

/-- CHOP_ISNS_HIGH (R158): after blanking, it ends the drive phase. -/
def execChopIsnsHigh (t : Nat) (c : Fin 8) (k : Coil) (s : State) : Host.Outcome State Fault Refusal :=
  s.act (fun d => (d.advance t).coilEvent t c.val k .drive (·.since) (fun _ => 0) (fun d => d.coilEnter t c.val k .decay id))

/-- CHOP_BLANK_END (R158): with ISNS high the drive phase ends, and the sixteenth such phase in a row latches the channel
off. -/
def execChopBlankEnd (t : Nat) (c : Fin 8) (k : Coil) (isns : Bool) (s : State) : Host.Outcome State Fault Refusal :=
  s.act (fun d => (d.advance t).coilEvent t c.val k .blank (·.since) (·.blank.toNat) (fun d =>
    if !isns then d.coilEnter t c.val k .drive (fun y => { y with short := 0 })
    else if ((look d.chops c.val).coil k).short + 1 < 16 then
      d.coilEnter t c.val k .decay (fun y => { y with short := y.short + 1 })
    else
      (d.onChop c.val (fun x => { x with latched := true, coilA := { short := x.coilA.short },
                                         coilB := { short := x.coilB.short } })).rateNotice t 4 (16 + c.val) (k = .b)))

/-- CHOP_OFF_TIME_END (R158): the next drive phase begins. -/
def execChopOffTimeEnd (t : Nat) (c : Fin 8) (k : Coil) (s : State) : Host.Outcome State Fault Refusal :=
  s.act (fun d => (d.advance t).coilEvent t c.val k .decay (·.since) (·.tOff.toNat) (fun d =>
    d.onChop c.val (fun x => x.onCoil k (fun y => y.drive (d.chopCfg c.val) t))))

/-- CHOP_ON_TIME_LIMIT (R158): the drive phase ends, CHOP_OPEN is posted, and an event is counted. -/
def execChopOnTimeLimit (t : Nat) (c : Fin 8) (k : Coil) (s : State) : Host.Outcome State Fault Refusal :=
  s.act (fun d => (d.advance t).coilEvent t c.val k .drive (·.driveAt) (·.tOnMax.toNat) (fun d =>
    let d1 := d.coilEnter t c.val k .decay id
    ((d1.onMult (16 + c.val) (fun m => { m with chopOpen := true })).rateNotice t 3 (16 + c.val) (k = .b)).faultEvent
      9 (16 + c.val) t))

/-! ### Commands (R162 to R164) -/

/-- The joint of a multiplier as accepted so far. -/
def Dev.multJointView (d : Dev) (m : Nat) : Option Nat :=
  d.waiting.foldl (fun acc w => match w.cmd with
    | .configStep _ p => if p.channel.toNat = m then (if p.joint = 0xFF then none else some p.joint.toNat) else acc
    | .configChopper _ p => if 16 + p.channel.toNat = m then (if p.joint = 0xFF then none else some p.joint.toNat) else acc
    | _ => acc) ((look d.mults m).joint.map (·.1))

/-- A joint may be assigned to a multiplier (R162): none, or a joint of a configured arm that no other one has. -/
def Dev.jointFree (d : Dev) (m : Nat) (joint : BitVec 8) : Bool :=
  joint == 0xFF || ((d.armOf joint.toNat).isSome
    && ((List.range 24).filter (fun i => i ≠ m)).all (fun i => d.multJointView i != some joint.toNat))

/-- A field lies between two bounds. -/
def within {w : Nat} (lo hi : Nat) (v : BitVec w) : Bool := decide (lo ≤ v.toNat) && decide (v.toNat ≤ hi)

/-- CONFIG_STEP (R162). -/
def semConfigStep (h : Hdr) (p : ConfigStep) : Sem where
  op := 0x0B00
  lenOk := h.length = 16
  modes := [.ready]
  range := fun _ => within 0 15 p.channel && (p.joint == 0xFF || within 0 127 p.joint) && p.flags &&& 0xFC == 0
    && p.reserved == 0 && p.k != 0 && within 8 4000 p.w && within 8 4000 p.tDs && within 1 0x7FFFFFFF p.lagLimit
  cond := fun d => firstFail [(!d.isArbiter, .retired), (p.joint == 0xFF || !d.domOff 8, .range), (d.jointFree p.channel.toNat p.joint, .range),
    (!d.isRetired 9 p.channel.toNat, .retired)]
  eff := fun d => (d.await h.stamp (.configStep h p), some (.ok, []))

/-- CONFIG_STEP at its boundary (R151). -/
def Dev.applyConfigStep (d : Dev) (p : ConfigStep) : Dev :=
  let m : Mult := if p.joint = 0xFF then {} else { step := some p, gen := { dirPos := p.flags.getLsbD 1 } }
  { d with mults := put d.mults p.channel.toNat (d.loadMult m) }

/-- CONFIG_CHOPPER (R163). -/
def semConfigChopper (h : Hdr) (p : ConfigChopper) : Sem where
  op := 0x0B01
  lenOk := h.length = 24
  modes := [.ready]
  range := fun _ =>
    let brk := p.brk.toNat + 256 * p.brkHi.toNat
    within 0 7 p.channel && (p.joint == 0xFF || within 0 127 p.joint) && within 0 16 p.fast && within 1 16 p.blank
      && p.k != 0 && within 0 0x8000 p.iRun && within 0 p.iRun.toNat p.iHold && within 1 65535 p.holdDelay
      && within 4 160 p.tOff && decide (8 ≤ brk) && decide (brk ≤ 400) && within 0 1 p.brkHi && within 8 800 p.tOnMax
      && decide (p.blank.toNat < p.tOnMax.toNat) && p.reserved0 == 0 && p.reserved1 == 0
  cond := fun d => firstFail [(!d.isArbiter, .retired), (p.joint == 0xFF || !d.domOff 8, .range), (d.jointFree (16 + p.channel.toNat) p.joint, .range),
    (!d.isRetired 9 (16 + p.channel.toNat), .retired)]
  eff := fun d => (d.await h.stamp (.configChopper h p), some (.ok, []))

/-- CONFIG_CHOPPER at its boundary: the channel is new, and no longer latched off. -/
def Dev.applyConfigChopper (d : Dev) (p : ConfigChopper) : Dev :=
  let m : Mult := if p.joint = 0xFF then {} else { chop := some p }
  { d with mults := put d.mults (16 + p.channel.toNat) (d.loadMult m), chops := put d.chops p.channel.toNat {} }

/-- GET_RATE_STATE (R164): reading clears the since-last-read flags. -/
def semGetRateState (h : Hdr) (p : GetRateState) : Sem where
  op := 0x0B02
  lenOk := h.length = 4
  link := .both
  range := fun _ => p.reserved == 0 && within 0 23 p.channel
  cond := fun d => firstFail [(!d.isArbiter, .retired)]
  eff := fun d =>
    let i := p.channel.toNat
    let m := look d.mults i
    let x := m.shown
    let chop : ChopShown := if 16 ≤ i then (look d.chops (i - 16)).shown else {}
    (d.onMult i (fun m => { m with overrun := false, chopOpen := false }),
     some (.ok, leBytes 8 x.a.toNat ++ intBytes 4 x.v ++ intBytes 4 x.emitted ++ leBytes 4 x.lag
      ++ leBytes 2 (bit x.enabled + 2 * bit x.sat + 4 * bit m.overrun + 8 * bit m.chopOpen + 16 * bit chop.latched
        + 32 * bit chop.atHold)
      ++ intBytes 2 chop.refA ++ intBytes 2 chop.refB))

def execConfigStep (h : Hdr) (p : ConfigStep) (s : State) : Host.Outcome State Fault Refusal :=
  s.act (runCmd (semConfigStep h p) h)

def execConfigChopper (h : Hdr) (p : ConfigChopper) (s : State) : Host.Outcome State Fault Refusal :=
  s.act (runCmd (semConfigChopper h p) h)

def execGetRateState (h : Hdr) (p : GetRateState) (s : State) : Host.Outcome State Fault Refusal :=
  s.act (runCmd (semGetRateState h p) h)

end Sys2Proof.Machine
end

