-- ==== Sys2Proof/Machine/Signals.lean ====
section
/-! DEFINITION. The test signals of an injection (spec/09_tuning_injection.md, R199 to R203). -/

namespace Sys2Proof.Machine

/-! ### The signal block (R210) -/

/-- A signed word of the signal block. -/
def injWord (p : StartInjection) (off : Nat) : Int := (rd 32 p.block off).toInt

/-- An unsigned word of the signal block. -/
def injNat (p : StartInjection) (off : Nat) : Nat := (rd 32 p.block off).toNat

/-- P of a multisine. -/
def injPeriod (p : StartInjection) : Nat := injNat p 0

/-- The components of a multisine: a_i, h_i and φ_i. -/
def injParts (p : StartInjection) : List (Int × Nat × Nat) :=
  (List.range (min 8 (p.block.getD 4 0).toNat)).map (fun i =>
    (injWord p (8 + 8 * i), (rd 16 p.block (12 + 8 * i)).toNat, (rd 16 p.block (14 + 8 * i)).toNat))

/-- The order of a PRBS (R202). -/
def injOrder (p : StartInjection) : Nat := (p.block.getD 4 0).toNat

/-- The tap of an order; 0 for an order that R202 does not list. -/
def prbsTap (o : Nat) : Nat := if o = 7 then 6 else if o = 9 then 5 else if o = 11 then 9 else if o = 15 then 14 else 0

/-- The sum of the absolute amplitudes. -/
def injAmplitude (p : StartInjection) : Nat :=
  if p.signal = 3 then (injParts p).foldl (fun s c => s + c.1.natAbs) 0 else (injWord p 0).natAbs

/-- The next bit of a PRBS (R202). -/
def prbsStep (o state : Nat) : Bool × Nat :=
  let fb := state.testBit (o - 1) != state.testBit (prbsTap o - 1)
  (fb, (2 * state + bit fb) % 2 ^ o)

/-- The sample v_n of a running injection, and the injection after it (R201, R202). -/
def Injection.sample (x : Injection) : Int × Injection :=
  let p := x.p
  let a := injWord p 0
  let n := x.i
  if p.signal = 0 then (a, { x with i := n + 1 })
  else if p.signal = 1 then
    let d0 : Int := injNat p 4
    let d1 : Int := injNat p 8
    let delta := d0 + rneDiv ((d1 - d0) * n) (p.n.toNat - 1)
    (rneSin a x.phi (2 ^ 32), { x with i := n + 1, phi := ((x.phi + delta) % 2 ^ 32).toNat })
  else if p.signal = 2 then
    let hold := (rd 16 p.block 6).toNat
    let o := injOrder p
    let (b, st) := if x.held = 0 then prbsStep o (if n = 0 then injNat p 8 else x.lfsr) else (x.bit, x.lfsr)
    (if b then a else -a, { x with i := n + 1, bit := b, lfsr := st, held := (x.held + 1) % max 1 hold })
  else
    let m := injPeriod p
    let sum := fun b => (injParts p).foldl
      (fun (s : Int) c => s + c.1 * sinAt b (c.2.1 * n % m * 65536 + c.2.2 * m) (m * 65536)) 0
    (rneReal sum, { x with i := n + 1 })

/-- The injection of a slot gives samples at a point now (R199). -/
def Dev.injecting (d : Dev) (key point : Nat) : Bool :=
  let x := look d.tuning.inj key
  decide (x.phase = .running) && decide (x.i < x.p.n.toNat) && decide (x.p.point.toNat = point)

/-- The sample of a slot's injection at a point: 0 where it has none. -/
def Dev.injected (d : Dev) (key point : Nat) : Int :=
  if d.injecting key point then (look d.tuning.inj key).sample.1 else 0

/-- The slot's injection, at whichever point, gives a sample now. -/
def Dev.injectsAt (d : Dev) (key : Nat) : Bool := d.injecting key (look d.tuning.inj key).p.point.toNat

/-- A sample of the slot's injection has been applied. -/
def Dev.nextSample (d : Dev) (key : Nat) : Dev :=
  if d.injectsAt key then d.onTuning (fun x => { x with inj := upd x.inj key (fun i => i.sample.2) }) else d

/-- The joints that an injection's limits watch (R203). -/
def Dev.watched (d : Dev) (key : Nat) : List Nat :=
  if key < 256 then [key]
  else if key < 512 then (look d.arms (key - 256)).joints
  else match (look d.loop.currents (key - 512)).cfg with
    | some c => [c.joint.toNat]
    | none => []

/-- The sample of a joint at B_k breaks a limit of an injection (R203). -/
def Dev.breaks (d : Dev) (p : StartInjection) (j : Nat) : Bool :=
  let x := look d.joints j
  x.fbStamp = some d.bk &&
    (decide (p.excLimit.toNat < (x.fb - look d.tuning.hold j).natAbs) ||
      match x.fbLast with
      | some y => decide ((p.velLimit.toNat : Int) < rneDiv (((x.fb - y).natAbs * lsbPerSecond : Nat) : Int) (256 * d.time.tc))
      | none => false)

/-- The limits of the running injections (R203): where one is broken, all of them end, and the device goes to HOLD with the
stamp of the boundary. -/
def Dev.checkInjections (d : Dev) (t : Nat) : Dev :=
  let keys := d.injections .running
  if keys.any (fun k => (d.watched k).any (fun j => d.breaks (look d.tuning.inj k).p j)) then
    (keys.foldl (fun d k => d.endInjection t k .aborted 2) d).eventMode d.bk .hold 0
  else d

end Sys2Proof.Machine
end

