-- ==== Sys2Proof/Machine/BlockFloat.lean ====
section
/-! DEFINITION. The block-floating arithmetic of the loop engine (spec/08_loop_engine.md, R168 to R175, R182) and the
coefficient records (R177). -/

namespace Sys2Proof.Machine

/-! ### Primitive operations (R169) -/

/-- rne(v, r) of R169. -/
def rneShift (v r : Int) : Int := if r ≤ 0 then v * 2 ^ (-r).toNat else rneDiv v (2 ^ r.toNat)

/-- fits(v). -/
def fits24 (v : Int) : Bool := decide (-8388608 ≤ v) && decide (v ≤ 8388607)

/-- sat(v), without its flag. -/
def sat24 (v : Int) : Int := clampInt (-8388608) 8388607 v

/-- mag(v). -/
def mag (v : Int) : Nat := if 0 ≤ v then v.toNat else (-v - 1).toNat

/-- bitlen(v). -/
def bitlen (n : Nat) : Nat := if n = 0 then 0 else Nat.log2 n + 1

/-- lz(v). -/
def lz (v : Int) : Int := 23 - bitlen (mag v)

/-- An integer in block-floating form: mantissa and exponent (R170). -/
def toBlock (i : Int) : Int × Int :=
  let e := bitlen (mag i)
  if e ≤ 23 then (i * 2 ^ (23 - e), e)
  else
    let m := rneShift i (e - 23)
    if m = 8388608 then (rneShift i (e - 22), e + 1) else (m, e)

/-! ### Alignment and norm (R171, R174) -/

/-- A block as aligned with an input: the working exponent, the input mantissa, the stored mantissas, and whether the
input saturated. -/
structure Aligned where
  ew  : Int
  x   : Int
  m   : List Int
  sat : Bool
deriving DecidableEq, Repr, Inhabited

/-- The alignment of R171; `m` are the stored mantissas at exponent `es`. -/
def align (m : List Int) (es emax mIn eIn : Int) : Aligned :=
  if eIn ≤ es then { ew := es, x := rneShift mIn (es - eIn), m := m, sat := false }
  else
    let ew := min eIn emax
    let v := rneShift mIn (ew - eIn)
    { ew := ew, x := sat24 v, m := m.map (fun v => rneShift v (ew - es)), sat := !fits24 v }

/-- What norm gives: results, carried mantissas, exponent, and whether a result saturated. -/
structure Normed where
  results : List Int
  carried : List Int
  e       : Int
  sat     : Bool
deriving DecidableEq, Repr, Inhabited

/-- The smallest growth, of at most `fuel` bits, that holds every result. -/
def growth (results : List Int) (r : Int) : Nat → Nat → Nat
  | 0, n => n
  | fuel + 1, n => if results.any (fun a => !fits24 (rneShift a (r + n))) then growth results r fuel (n + 1) else n

/-- norm of R174. -/
def norm (results carried : List Int) (ew f emin emax : Int) : Normed :=
  let r := 23 - f
  let n := growth results r (emax - ew).toNat 0
  let raw := results.map (fun a => rneShift a (r + n))
  let res := raw.map sat24
  let car := carried.map (fun c => rneShift c n)
  let e := ew + n
  let sat := raw.any (fun v => !fits24 v)
  if n = 0 then
    let h := min ((res ++ car).foldl (fun h v => min h (lz v)) 23) (e - emin)
    { results := res.map (fun v => rneShift v (-h)), carried := car.map (fun v => rneShift v (-h)), e := e - h, sat := sat }
  else { results := res, carried := car, e := e, sat := sat }

/-! ### Coefficient records (R177) -/

/-- A core's record. -/
structure CoreRec where
  kp   : Int := 0
  ki   : Int := 0
  kd   : Int := 0
  ad   : Int := 0
  f    : Int := 0
  emin : Int := 0
  emax : Int := 0
deriving DecidableEq, Repr, Inhabited

/-- A second-order stage's record. -/
structure StageRec where
  b    : List Int := []                  -- b0, b1, b2
  a1   : Int := 0
  a2   : Int := 0
  f    : Int := 0
  emin : Int := 0
  emax : Int := 0
deriving DecidableEq, Repr, Inhabited

/-- A 32-bit field as a signed integer. -/
def s32 (b : List Byte) (off : Nat) : Int := (rd 32 b off).toInt

/-- An 8-bit field as a signed integer. -/
def s8 (b : List Byte) (off : Nat) : Int := (rd 8 b off).toInt

/-- A core's record from its 20 bytes. -/
def coreRec (b : List Byte) : CoreRec :=
  { kp := s32 b 0, ki := s32 b 4, kd := s32 b 8, ad := s32 b 12, f := (rd 8 b 16).toNat, emin := s8 b 17, emax := s8 b 18 }

/-- A stage's record from its 24 bytes. -/
def stageRec (b : List Byte) : StageRec :=
  { b := [s32 b 0, s32 b 4, s32 b 8], a1 := s32 b 12, a2 := s32 b 16, f := (rd 8 b 20).toNat, emin := s8 b 21,
    emax := s8 b 22 }

/-- The fields that cores and stages share are in range: mantissas of 24 bits, f, and the exponent bounds. -/
def recOk (b : List Byte) (words off : Nat) : Bool :=
  (List.range words).all (fun i => fits24 (s32 b (4 * i))) && decide ((rd 8 b off).toNat ≤ 16)
    && decide (s8 b (off + 1) ≤ s8 b (off + 2)) && rd 8 b (off + 3) == 0

/-- A core's record is in range. -/
def coreOk (b : List Byte) : Bool :=
  let c := coreRec b
  recOk b 4 16 && decide (0 ≤ c.ad) && decide (c.ad * 2 ^ c.f.toNat < 2 ^ 23)

/-- A stage's record is in range: its poles lie inside the unit circle. -/
def stageOk (b : List Byte) : Bool :=
  let c := stageRec b
  let one : Int := 2 ^ 23
  let s : Int := 2 ^ c.f.toNat
  recOk b 5 20 && decide ((c.a2.natAbs : Int) * s < one) && decide ((c.a1.natAbs : Int) * s < one + c.a2 * s)

/-- A part of a record. -/
def part (b : List Byte) (off n : Nat) : List Byte := (b.drop off).take n

/-- The size of a slot kind's record. -/
def recordSize (kind : Nat) : Nat := if kind = 0 then 216 else if kind = 1 then 120 else 40

/-- A record of a slot kind is in range. -/
def recordOk (kind : Nat) (b : List Byte) : Bool :=
  match kind with
  | 0 =>
    let n := (rd 8 b 0).toNat
    decide (n ≤ 8) && rd 8 b 1 == 0 && decide ((rd 16 b 2).toNat ≤ 0x8000) && coreOk (part b 4 20)
      && (List.range 8).all (fun i => if i < n then stageOk (part b (24 + 24 * i) 24)
        else (part b (24 + 24 * i) 24).all (· == 0))
  | 1 => (List.range 6).all (fun i => coreOk (part b (20 * i) 20))
  | _ => (List.range 2).all (fun i =>
      let p := part b (20 * i) 20
      coreOk p && decide ((coreRec p).kd = 0) && decide ((coreRec p).ad = 0))

/-! ### Stages and cores (R172, R173, R175, R182) -/

/-- A mantissa of a block; a block in its reset state holds 0. -/
def Block.at_ (b : List Int) (i : Nat) : Int := b.getD i 0

/-- The exponent of a stored block; in its reset state it is e_min (R171). -/
def Block.exp (b : Block) (emin : Int) : Int := if b.m.isEmpty then emin else b.e

/-- A second-order stage: the block after the sample, its output, and whether it saturated (R172). -/
def runStage (c : StageRec) (blk : Block) (mIn eIn : Int) : Block × Int × Int × Bool :=
  let m := if blk.m.isEmpty then [0, 0, 0, 0] else blk.m
  let a := align m (blk.exp c.emin) c.emax mIn eIn
  let v := Block.at_ a.m
  let acc := c.b.getD 0 0 * a.x + c.b.getD 1 0 * v 0 + c.b.getD 2 0 * v 1 - c.a1 * v 2 - c.a2 * v 3
  let r := norm [acc] [a.x, v 0, v 2] a.ew c.f c.emin c.emax
  let y := r.results.getD 0 0
  let w := Block.at_ r.carried
  ({ m := [w 0, w 1, y, w 2], e := r.e }, y, r.e, a.sat || r.sat)

/-- What a core does with a sample. -/
structure CoreRun where
  block : Block := {}
  m     : Int := 0                       -- u
  e     : Int := 0
  hi    : Bool := false
  lo    : Bool := false
  sat   : Bool := false
deriving DecidableEq, Repr, Inhabited

/-- The sum of an accumulator at scale 2^x and an integer is above a bound, and below another. -/
def beyond (acc x add lo hi : Int) : Bool × Bool :=
  let up := 2 ^ x.toNat
  let dn := 2 ^ (-x).toNat
  (decide (acc * up > (hi - add) * dn), decide (acc * up < (lo - add) * dn))

/-- A PID core (R173, R182): `preset` is a core target c_t; `test` is what the limit test compares, unless none is made:
ff_s, u_min and u_max; `held` is a limit that bars all integration. -/
def runCore (c : CoreRec) (blk : Block) (mIn eIn : Int) (preset : Option Int) (test : Option (Int × Int × Int))
    (held : Bool) : CoreRun :=
  let m := if blk.m.isEmpty then [0, 0, 0] else blk.m
  let a := align m (blk.exp c.emin) c.emax mIn eIn
  let v := Block.at_ a.m
  let accD := c.ad * v 1 + c.kd * a.x - c.kd * v 0
  let accI := match preset with
    | some ct => rneShift ct (a.ew + c.f - 46) - c.kp * a.x - accD
    | none => v 2 * 2 ^ (23 - c.f).toNat
  let accU := c.kp * a.x + accI + accD
  let lim := match test with
    | some (ff, lo, hi) => beyond accU (a.ew + c.f - 46) ff lo hi
    | none => (false, false)
  let ix := c.ki * a.x
  let stop := (lim.1 && decide (0 < ix)) || (lim.2 && decide (ix < 0)) || held
  let accN := if stop then accI else accI + ix
  let r := norm [accD, accU, accN] [a.x] a.ew c.f c.emin c.emax
  { block := { m := [r.carried.getD 0 0, r.results.getD 0 0, r.results.getD 2 0], e := r.e },
    m := r.results.getD 1 0, e := r.e, hi := lim.1, lo := lim.2, sat := a.sat || r.sat }

/-- The conversion of a core output to the output format, and whether it saturated (R175 step 3). -/
def convertOut (m e : Int) : Int × Bool :=
  let v := rneShift m (23 - e)
  let c := clampInt (-2147483648) 2147483647 v
  (c, decide (c ≠ v))

/-- The staged output of a sample by R175 step 4. -/
def staged (hi lo : Bool) (out ff umin umax : Int) : Int :=
  if hi then umax else if lo then umin else clampInt umin umax (out + ff)

end Sys2Proof.Machine
end

