-- ==== Sys2Proof/Machine/LoopEngine.lean ====
section
/-! DEFINITION. The loop engine (spec/08_loop_engine.md): the samples of joint and arm slots in a period, feedback
misses, the coefficient banks and their swap, and the commands of class 0x03. -/

namespace Sys2Proof.Machine

/-! ### Operating states and feedforward (R166, R181, R187) -/

/-- The operating states of a joint slot (R181). -/
inductive SlotRun where
  | auto
  | manual
  | track
deriving DecidableEq, Repr, Inhabited

/-- The code of an operating state (R197). -/
def SlotRun.code : SlotRun → Nat
  | .auto => 0 | .manual => 1 | .track => 2

/-- The brake test holds the joint's slot, with the output in its place (R478). -/
def Dev.testForce (d : Dev) (j : Nat) : Option (Option Int) :=
  match d.safety.test with
  | some bt =>
    if bt.joint ≠ j then none
    else match bt.phase with
      | .wait => none
      | .apply => some none
      | .plus => some (some bt.p.tauTest.toInt)
      | .minus => some (some (-bt.p.tauTest.toInt))
  | none => none

/-- The trip latch of the group that drives the joint's motor is set (R382). -/
def Dev.tripHolds (d : Dev) (j : Nat) : Bool :=
  d.loop.currents.any (fun e => (look d.pwm.groups e.1).trip && (match e.2.cfg with
    | some c => decide (c.joint.toNat = j)
    | none => false))

/-- The state in which a joint slot runs (R181, R187, R382, R478): in TUNE, slots run AUTO whatever was set. -/
def Dev.slotRun (d : Dev) (j : Nat) : SlotRun :=
  if (d.testForce j).isSome ∨ d.tripHolds j then .track
  else match d.power.mode with
    | .run => if (look d.loop.joints j).manual then .manual else .auto
    | .hold => .auto
    | .tune => .auto
    | _ => .track

/-- The modes in which joint and arm slots run (R187). -/
def Mode.loops : Mode → Bool
  | .dormant => false | .shadow => false | .boot => false | _ => true

/-- A slot's record in the active bank, where it is complete (R178). -/
def Dev.bankOf (d : Dev) (key cfgStamp : Nat) : Option (List Byte) :=
  let r := d.loop.active key
  if r.completeFor cfgStamp then some r.bytes else none

/-- The place of a joint in its arm. -/
def Dev.jointPlace (d : Dev) (a j : Nat) : Nat := (look d.arms a).joints.idxOf j

/-- ff of a joint slot (R166, R184, R190): the staged velocity, or the inverse-dynamics torque and the arm slot's. -/
def Dev.ffOf (d : Dev) (j : Nat) (c : ConfigJointSlot) : Int :=
  if !c.flags.getLsbD 1 then 0
  else if c.kind = 2 then (look d.joints j).vel
  else match d.armOf j with
    | some a =>
      let i := d.jointPlace a j
      (look d.kin a).torque.getD i 0 + (if c.flags.getLsbD 0 then (look d.loop.arms a).torques.getD i 0 else 0)
    | none => 0

/-! ### The samples of a joint slot (R167, R175, R180 to R183) -/

/-- The flags of a sample, in the order of R176. -/
def flagWord (sat conv hi lo preset miss : Bool) : SlotFlags :=
  BitVec.ofNat 16 (bit sat + 2 * bit conv + 4 * bit hi + 8 * bit lo + 16 * bit preset + 32 * bit miss)

/-- A notice of class 0x03 (R188). -/
def Dev.loopNotice (d : Dev) (t code arg : Nat) : Dev :=
  d.notice 5 0 t (BitVec.ofNat 16 (0x0300 + code)) (BitVec.ofNat 32 arg) false

/-- The sample is skipped: its feedback has not arrived (R180). -/
def Dev.feedbackMiss (d : Dev) (t j : Nat) : Dev :=
  let f := flagWord false false false false false true
  let d1 := d.onLoop (fun l => { l with joints := upd l.joints j (fun s =>
    { s with flags := f, sticky := s.sticky ||| f, misses := s.misses + 1 }) })
  let d2 := d1.loopNotice t 1 j
  (List.range 10).foldl (fun d ch => if (look d.joints j).fbCh.getLsbD ch then d.faultEvent 1 ch t else d) d2

/-- The output without a chain: ff limited (R178, R181). -/
def slotLimit (c : ConfigJointSlot) (v : Int) : Int := clampInt c.uMin.toInt c.uMax.toInt v

/-- The stages of a joint program on an input (R167 step 3). -/
def runStages (recs : List (List Byte)) (blks : List Block) (m e : Int) (sat : Bool) :
    List Block × Int × Int × Bool :=
  match recs with
  | [] => (blks, m, e, sat)
  | r :: rs =>
    let (b, m1, e1, s1) := runStage (stageRec r) (blks.headD {}) m e
    let (bs, m2, e2, s2) := runStages rs (blks.drop 1) m1 e1 (sat || s1)
    (b :: bs, m2, e2, s2)

/-- The chain of a joint slot on an error. -/
def runChain (b : List Byte) (s : JointSlot) (err : Int) (preset : Option Int) (test : Option (Int × Int × Int)) :
    List Block × CoreRun :=
  let i := toBlock err
  let recs := (List.range (rd 8 b 0).toNat).map (fun k => part b (24 + 24 * k) 24)
  let (bs, m, e, sat) := runStages recs s.stages i.1 i.2 false
  let r := runCore (coreRec (part b 4 20)) s.core m e preset test false
  (bs, { r with sat := r.sat || sat })

/-- The records that the skimmer takes from a sample (R205, R356). -/
def Dev.jointRecords (d : Dev) (j : Nat) (err out ffs v : Int) (ff : Bool) : Dev :=
  let x := look d.joints j
  let bk := d.bk
  let bn := d.bNext
  let put := fun (d : Dev) t var (n : Int) => let w := loopWord n; d.skimLoop t j var w.1 w.2
  let d1 := put d bk 0 err
  let d2 := put d1 bn 1 out
  let d3 := if ff then put d2 bn 2 ffs else d2
  let d4 := d3.skimLoop bk j 3 (BitVec.ofInt 32 x.fb) false
  let d5 := d4.skimLoop bn j 4 (BitVec.ofInt 32 (x.staged.getD x.out)) false
  let d6 := match d.armOf j with
    | some a => d5.skimLoop bk j 5 (BitVec.ofNat 32 (look d.arms a).s) false
    | none => d5
  let d7 := put d6 bn 6 v
  put d7 bk 9 (x.fb - look d.tuning.hold j)

/-- The records of a slot with an injection: one that the skimmer does not take makes the identification NOTCONV
(R205). -/
def Dev.watchLost (d0 d : Dev) (key : Nat) : Dev :=
  if d0.injectsAt key ∧ ((d.skim.phase ≠ .armed ∧ d.skim.phase ≠ .post) ∨ d.skim.lost ≠ d0.skim.lost)
  then d.onTuning (fun x => { x with inj := upd x.inj key (fun i => { i with lost := true }) }) else d

/-- The samples of c_out and c_fb that an identification works on, as the skimmer records them (R205, R206). -/
def Dev.keepIdent (d : Dev) (key : Nat) (out fb : Int) : Dev :=
  if d.injectsAt key ∧ (look d.tuning.inj key).p.flags.getLsbD 2 then
    d.onTuning (fun x => { x with inj := upd x.inj key (fun i => { i with
      outs := (d.bNext, (loopWord out).1.toInt) :: i.outs, fbs := (d.bk, (loopWord fb).1.toInt) :: i.fbs }) })
  else d

/-- A sample of a joint slot with a law, on its record in the active bank (R181 to R183). A first AUTO sample that a swap with
preset, a takeover or an OPEN injection makes is staged as one after MANUAL is: u_prev exactly, with no limit test (DESIGN CHOICE,
log entry 189: R182 says that of the first AUTO sample only, and R183 names the preset's target only). -/
def Dev.lawSample (d : Dev) (t j : Nat) (s : JointSlot) (c : ConfigJointSlot) (b : List Byte) : Dev :=
  let x := look d.joints j
  let v := d.injected j
  let err := x.staged.getD x.out + v 0 - x.fb
  let ffs := rneShift ((d.ffOf j c + v 2) * (rd 16 b 2).toNat) 15
  let opn := d.injecting j 1 && (look d.tuning.inj j).p.flags.getLsbD 0
  let st := if opn then SlotRun.track else d.slotRun j
  let lo := c.uMin.toInt
  let hi := c.uMax.toInt
  let track := slotLimit c ffs
  let prev := s.out.getD track
  let exact := decide (st = .auto) && s.preset
  let preset : Option Int := match st with
    | .track => some 0
    | .manual => some (s.uMan - ffs)
    | .auto => if exact then some (prev - ffs) else none
  let (bs, r) := runChain b s err preset (if exact then none else some (ffs, lo, hi))
  let (out, conv) := convertOut r.m r.e
  let base := match st with
    | .track => track
    | .manual => slotLimit c s.uMan
    | .auto => if exact then prev else staged r.hi r.lo out ffs lo hi
  let u := if opn then slotLimit c (ffs + v 1) else if d.injecting j 1 then slotLimit c (base + v 1) else base
  let u' := match d.testForce j with
    | some (some f) => f
    | _ => u
  let f := flagWord r.sat conv r.hi r.lo preset.isSome false
  let d1 := d.onLoop (fun l => { l with joints := put l.joints j { s with
    stages := bs ++ s.stages.drop bs.length, core := r.block, flags := f, sticky := s.sticky ||| f,
    satSaid := s.satSaid || r.sat, misses := 0, preset := decide (st ≠ .auto), staged := some u', last := u' } })
  let d2 := if r.sat ∧ !s.satSaid then d1.loopNotice t 2 j else d1
  ((d.watchLost (d2.jointRecords j err u' ffs (v 0 + v 1 + v 2) true) j).keepIdent j u' (x.fb - look d.tuning.hold j)).nextSample j

/-- A joint slot is evaluated in a period (R166, R178, R180). -/
def Dev.jointSample (d : Dev) (t j : Nat) : Dev :=
  let s := look d.loop.joints j
  let x := look d.joints j
  match s.cfg with
  | none => d
  | some c =>
    if c.kind = 0 ∨ j ∈ d.loop.bankErr then d
    else if x.fbStamp ≠ some d.bk then d.feedbackMiss t j
    else
      let plain := fun (u : Int) (ffs : Int) (ff : Bool) =>
        (d.onLoop (fun l => { l with joints := put l.joints j { s with
          flags := 0, misses := 0, preset := true, staged := some u, last := u } })).jointRecords j
            (x.staged.getD x.out - x.fb) u ffs 0 ff
      if c.kind = 1 then plain (x.staged.getD x.out) 0 false
      else match d.bankOf j s.cfgStamp with
        | some b => d.lawSample t j s c b
        | none => plain (slotLimit c (d.ffOf j c)) (d.ffOf j c) true

/-! ### The samples of an arm slot (R184) -/

/-- The axis inputs of an arm slot: the pose error, or the target less the measured wrench, which is free: the spec gives
no frame that carries it. -/
def Dev.axisInputs (d : Dev) (a : Nat) (s : ArmSlot) (law : BitVec 8) : List Int × Dev :=
  let k := look d.kin a
  if law = 1 then
    ((List.range 3).map (fun i => k.poseT.getD i 0 - k.poseF.getD i 0)
      ++ (rotVec (qFromTo (poseOf k.poseF).q (poseOf k.poseT).q)).map (fun x => Config.rounds 1 (x * 2 ^ 24 / twoPi)), d)
  else ((List.range 6).map (fun i => s.target.getD i 0 - (d.freeInts 6).getD i 0), d.draw 6)

/-- One axis of an arm slot. -/
def axisRun (b : List Byte) (s : ArmSlot) (c : ConfigArmSlot) (track : Bool) (input : List Int) (i : Nat) :
    CoreRun × Int × Bool :=
  let lim : Int := if i < 3 then c.fLim.toNat else c.mLim.toNat
  let prev := s.outs.getD i 0
  let exact := !track && s.preset
  let preset : Option Int := if track then some 0 else if exact then some prev else none
  let e := toBlock (input.getD i 0)
  let r := runCore (coreRec (part b (20 * i) 20)) (s.cores.getD i {}) e.1 e.2 preset
    (if exact then none else some (0, -lim, lim)) false
  let (out, conv) := convertOut r.m r.e
  (r, if track then 0 else if exact then prev else staged r.hi r.lo out 0 (-lim) lim, conv)

/-- The joint torques of a wrench through the transposed Jacobian (R184). -/
def wrenchTorques (jac : List Int) (n : Nat) (w : List Int) : List Int :=
  (List.range n).map (fun j => rneShift ((List.range 6).foldl (fun s i => s + jac.getD (i * n + j) 0 * w.getD i 0) 0) 24)

/-- Every joint of an arm is of kind TORQUE. -/
def Loop.allTorque (l : Loop) (joints : List Nat) : Bool :=
  joints.all (fun j => match (look l.joints j).cfg with
    | some c => c.kind == 3
    | none => false)

/-- The axis whose values the LOOP channels of an arm slot record, which R356 does not say and is free, and its setpoint: of a rotation
that is free too (log entry 183). -/
def Dev.shownAxis (d : Dev) (a : Nat) (s : ArmSlot) (law : BitVec 8) : Nat × Int :=
  let i := Config.freeNat d.fresh % 6
  (i, if law = 1 then (if i < 3 then (look d.kin a).poseT.getD i 0 else Config.freeInt (d.fresh + 1)) else s.target.getD i 0)

/-- An arm slot is evaluated in a period (R178, R184). Where it is not, it stages zero torques: on an arm with a joint that is no
longer of kind TORQUE too (DESIGN CHOICE, log entry 184: R184 says only that it is not evaluated). -/
def Dev.armSample (d : Dev) (t a : Nat) : Dev :=
  let s := look d.loop.arms a
  let key := 256 + a
  let joints := (look d.arms a).joints
  match s.cfg with
  | none => d
  | some c =>
    if c.law = 0 ∨ key ∈ d.loop.bankErr then d
    else
      let zero := fun (f : SlotFlags) (p : Bool) => ((d.onLoop (fun l => { l with arms := put l.arms a { s with
        torques := joints.map (fun _ => 0), flags := f, sticky := s.sticky ||| f, preset := p } })).skimLoop d.bNext key 1 0 false
          ).skimLoop d.bk key 5 (BitVec.ofNat 32 (look d.arms a).s) false
      if !d.loop.allTorque joints then zero 0 true
      else match d.bankOf key s.cfgStamp with
        | none => zero 0 true
        | some b =>
          if !(look d.kin a).ikOk then zero (flagWord false false false false false true) s.preset
          else
            let (inputs, d1) := d.axisInputs a s c.law
            let inj := look d.tuning.inj key
            let v := d.injected key 3
            let xin := inputs.mapIdx (fun i e => if i = inj.p.axis.toNat then e + v else e)
            let track := !d.power.mode.torque
            let runs := (List.range 6).map (fun i => (c.axes.getLsbD i, axisRun b s c track xin i))
            let outs := runs.map (fun r => if r.1 then r.2.2.1 else 0)
            let any := fun (g : CoreRun × Int × Bool → Bool) => runs.any (fun r => r.1 && g r.2)
            let sat := any (fun r => r.1.sat)
            let f := flagWord sat (any (fun r => r.2.2)) (any (fun r => r.1.hi)) (any (fun r => r.1.lo))
              (track || s.preset) false
            let d2 := d1.onLoop (fun l => { l with arms := put l.arms a { s with
              cores := runs.mapIdx (fun i r => if r.1 then r.2.1.block else s.cores.getD i {})
              outs := outs, torques := wrenchTorques (look d.kin a).jac joints.length outs, preset := track,
              flags := f, sticky := s.sticky ||| f, satSaid := s.satSaid || sat } })
            let d3 := if sat ∧ !s.satSaid then d2.loopNotice t 2 key else d2
            let ax := inj.p.axis.toNat
            let w := fun (n : Int) => loopWord n
            let (i, set) := d3.shownAxis a s c.law
            let rec1 := fun (d : Dev) t var n => d.skimLoop t key var (w n).1 (w n).2
            let da := rec1 (rec1 (d3.draw 2) d.bk 0 (xin.getD i 0)) d.bNext 1 (outs.getD i 0)
            let d4 := ((da.skimLoop d.bNext key 2 0 false).skimLoop d.bk key 3 (BitVec.ofInt 32 (set - inputs.getD i 0)) false
              ).skimLoop d.bNext key 4 (BitVec.ofInt 32 set) false
            let d5 := d4.skimLoop d4.bk key 5 (BitVec.ofNat 32 (look d.arms a).s) false
            let d6 := d5.skimLoop d5.bNext key 6 (w v).1 (w v).2
            let d7 := d6.skimLoop d6.bk key 9 (w (xin.getD ax 0)).1 (w (xin.getD ax 0)).2
            let d8 := d7.skimLoop d7.bNext key 10 (w (outs.getD ax 0)).1 (w (outs.getD ax 0)).2
            (d.watchLost d8 key).nextSample key

/-- The laws of a period: arm slots, then joint slots, in ascending index (R179). -/
def Dev.evalLaws (d : Dev) (t : Nat) : Dev :=
  if d.power.mode.loops then
    let d1 := d.checkInjections t
    let d2 := (List.range 16).foldl (fun d a => d.armSample t a) d1
    (d2.loop.joints.map Prod.fst).foldl (fun d j => d.jointSample t j) d2
  else d

/-- FEEDBACK_MISS_LIMIT (R180): after miss_limit consecutive misses SAFE-OFF with trigger FEEDBACK, and the count
restarts. -/
def Dev.missLimit (d : Dev) (t j : Nat) : Dev :=
  let s := look d.loop.joints j
  match s.cfg with
  | some c =>
    if c.missLimit.toNat ≤ s.misses ∧ c.missLimit ≠ 0 then
      let d1 := d.onLoop (fun l => { l with joints := upd l.joints j (fun x => { x with misses := 0 }) })
      if d.latchedTrig 0x06 then d1 else d1.stoReaction t 0x06 j false
    else d
  | none => d

/-! ### Boundary steps (R178, R179) -/

/-- A bank swap at its boundary; with preset, every AUTO slot is preset in its next sample (R178, R183, R188). -/
def Dev.swapBanks (d : Dev) (b : Nat) : Dev :=
  match d.loop.swap with
  | some (e, preset) =>
    if b < e then d
    else
      let d1 := d.onLoop (fun l => { l with
        activeB := !l.activeB, swap := none, bankErr := []
        joints := if preset then mapTab (fun j s => if d.slotRun j = .auto then { s with preset := true } else s) l.joints
          else l.joints
        arms := if preset ∧ d.power.mode.torque then mapTab (fun _ s => { s with preset := true }) l.arms else l.arms })
      d1.loopNotice b 3 (65536 * bit d1.loop.activeB)
  | none => d

/-- The joint outputs of the last period take effect (R24, R179). One that was not staged repeats, and is missed; a slot
that skipped its first samples has nothing to repeat, and its missed staging counts too. -/
def Dev.loopOutputs (d : Dev) (b : Nat) : Dev :=
  if d.power.mode.loops then
    d.loop.joints.foldl (fun d e =>
      match e.2.cfg with
      | some c =>
        if c.kind = 0 then d
        else match e.2.staged with
          | some u => d.onLoop (fun l => { l with joints := upd l.joints e.1 (fun s =>
              { s with out := some u, staged := none }) })
          | none => if e.2.out.isSome || e.2.flags.getLsbD 5 then d.missed b 9 else d
      | none => d) d
  else d

/-- Double-bit errors in active bank records (R178): the slots stop, and the device takes SAFE-OFF with trigger BANK. -/
def Dev.bankErrors (d : Dev) (b : Nat) (keys : List Nat) : Dev :=
  let hit := keys.filter (fun k => d.loop.slotKeys.any (fun e => decide (e.1 = k)) && decide (k ∉ d.loop.bankErr))
  match hit with
  | [] => d
  | k :: _ => (d.onLoop (fun l => { l with bankErr := l.bankErr ++ hit })).stoReaction b 0x05 (k % 256) false

/-! ### Commands (R189 to R197) -/

/-- CONFIG_JOINT_SLOT (R190). -/
def semConfigJointSlot (h : Hdr) (p : ConfigJointSlot) : Sem where
  op := 0x0300
  lenOk := h.length = 16
  modes := [.ready]
  range := fun _ => decide (p.joint.toNat ≤ 127) && decide (p.kind.toNat ≤ 3) && decide (1 ≤ p.missLimit.toNat)
    && decide (p.missLimit.toNat ≤ 8) && p.flags &&& 0xFC == 0 && (!p.flags.getLsbD 0 || p.kind == 3)
    && decide (p.uMin.toInt < p.uMax.toInt) && p.reserved == 0
  cond := fun d => firstFail
    [((List.range 16).any (fun a => decide (p.joint.toNat ∈ armJoints (d.armView a))), .range),
     (p.kind == 0 || !d.domOff 3, .range), (d.mirrorRoom h.stamp (.configJointSlot h p), .range)]
  eff := fun d =>
    ((d.onLoop (fun l => { l with joints := upd l.joints p.joint.toNat (fun s => { s with cfgStamp := h.stamp }) })).await
      h.stamp (.configJointSlot h p), some (.ok, []))

/-- CONFIG_JOINT_SLOT at its boundary: the slot's state is reset (R171, R190). -/
def Dev.applyConfigJointSlot (d : Dev) (p : ConfigJointSlot) : Dev :=
  d.onLoop (fun l => { l with
    joints := upd l.joints p.joint.toNat (fun s => { cfg := some p, cfgStamp := s.cfgStamp })
    bankErr := l.bankErr.filter (· ≠ p.joint.toNat) })

/-- CONFIG_ARM_SLOT (R191). -/
def semConfigArmSlot (h : Hdr) (p : ConfigArmSlot) : Sem where
  op := 0x0301
  lenOk := h.length = 12
  modes := [.ready]
  range := fun _ => decide (p.arm.toNat ≤ 15) && decide (p.law.toNat ≤ 2) && p.axes &&& 0xC0 == 0 && p.reserved == 0
    && decide (0 < p.fLim.toNat) && decide (0 < p.mLim.toNat)
  cond := fun d =>
    let joints := armJoints (d.armView p.arm.toNat)
    firstFail [(p.law == 0 || (!joints.isEmpty && d.loopView.allTorque joints), .range),
      (p.law == 0 || (d.modelOf p.arm.toNat).isSome, .range), (p.law == 0 || !d.domOff 3, .range),
      (d.mirrorRoom h.stamp (.configArmSlot h p), .range)]
  eff := fun d =>
    ((d.onLoop (fun l => { l with arms := upd l.arms p.arm.toNat (fun s => { s with cfgStamp := h.stamp }) })).await
      h.stamp (.configArmSlot h p), some (.ok, []))

/-- CONFIG_ARM_SLOT at its boundary. -/
def Dev.applyConfigArmSlot (d : Dev) (p : ConfigArmSlot) : Dev :=
  d.onLoop (fun l => { l with
    arms := upd l.arms p.arm.toNat (fun s => { cfg := some p, cfgStamp := s.cfgStamp })
    bankErr := l.bankErr.filter (· ≠ 256 + p.arm.toNat) })

/-- CONFIG_CURRENT_SLOT (R193). -/
def semConfigCurrentSlot (h : Hdr) (p : ConfigCurrentSlot) : Sem where
  op := 0x0302
  lenOk := h.length = 24
  modes := [.ready]
  range := fun _ => decide (p.group.toNat ≤ 7) && (p.joint == 0xFF || decide (p.joint.toNat ≤ 127))
    && decide (1 ≤ p.polePairs.toNat) && decide (p.polePairs.toNat ≤ 64) && p.reserved == 0
    && decide (p.offset.toNat ≤ 0xFFFF) && decide (0 < p.kt.toNat) && decide (0 < p.iScale.toNat)
    && decide (0 < p.iMax.toNat) && decide (0 < p.vDc.toNat)
  cond := fun d =>
    let g := p.group.toNat
    let torque := match (look d.loopView.joints p.joint.toNat).cfg with
      | some c => c.kind == 3
      | none => false
    firstFail [(p.joint == 0xFF || torque, .range),
      (p.joint == 0xFF || !(d.domOff 3 || d.domOff 7 || d.domOff 8), .range),
      (d.mirrorRoom h.stamp (.configCurrentSlot h p), .range),
      (!d.isRetired 6 g && (List.range 3).all (fun i => !d.isRetired 7 (3 * g + i)), .retired)]
  eff := fun d =>
    ((d.onLoop (fun l => { l with currents := upd l.currents p.group.toNat (fun s => { s with cfgStamp := h.stamp }) })).await
      h.stamp (.configCurrentSlot h p), some (.ok, []))

/-- CONFIG_CURRENT_SLOT at its boundary; joint 0xFF disables the slot. -/
def Dev.applyConfigCurrentSlot (d : Dev) (p : ConfigCurrentSlot) : Dev :=
  d.onLoop (fun l => { l with
    currents := upd l.currents p.group.toNat (fun s =>
      { cfg := if p.joint = 0xFF then none else some p, cfgStamp := s.cfgStamp })
    bankErr := l.bankErr.filter (· ≠ 512 + p.group.toNat) })

/-- SET_ARM_TARGET (R192). -/
def semSetArmTarget (h : Hdr) (p : SetArmTarget) : Sem where
  op := 0x0303
  lenOk := h.length = 28
  modes := [.run, .hold, .tune]
  range := fun _ => decide (p.arm.toNat ≤ 15) && p.reserved == 0
  cond := fun d => firstFail [(match (look d.loopView.arms p.arm.toNat).cfg with
    | some c => c.law == 2
    | none => false, .range)]
  eff := fun d => (d.await h.stamp (.setArmTarget h p), some (.ok, []))

/-- SET_ARM_TARGET at its boundary. -/
def Dev.applyArmTarget (d : Dev) (p : SetArmTarget) : Dev :=
  d.onLoop (fun l => { l with arms := upd l.arms p.arm.toNat (fun s =>
    { s with target := p.target.map (fun (w : BitVec 32) => w.toInt) }) })

/-- A record is put into the inactive bank (R177, R178). -/
def Loop.load (l : Loop) (key : Nat) (r : BankRec) : Loop :=
  if l.activeB then { l with bankA := put l.bankA key r } else { l with bankB := put l.bankB key r }

/-- The slots of a kind (R165). -/
def slotCount (kind : Nat) : Nat := if kind = 0 then 128 else if kind = 1 then 16 else if kind = 2 then 8 else 0

/-- The modes of the bank commands (R189). -/
def bankModes : List Mode := [.commission, .ready, .run, .tune, .hold, .safeOff]

/-- LOAD_BANK (R177, R178, R194). -/
def semLoadBank (h : Hdr) (p : LoadBank) : Sem where
  op := 0x0310
  lenOk := if p.kind.toNat ≤ 2 then h.length = 4 + recordSize p.kind.toNat else h.length ∈ [220, 124, 44]
  modes := bankModes
  range := fun _ => decide (p.index.toNat < slotCount p.kind.toNat) && p.reserved == 0
    && recordOk p.kind.toNat p.record
  cond := fun d => firstFail [(d.loop.swap.isNone, .busy)]
  eff := fun d => (d.onLoop (fun l => l.load (256 * p.kind.toNat + p.index.toNat)
    { bytes := p.record, stamp := some h.stamp }), some (.ok, []))

/-- An entry of LOAD_BANK_BLOCK is in range (R194). -/
def bankEntryOk (e : List Byte) : Bool :=
  let kind := (rd 8 e 0).toNat
  decide ((rd 8 e 1).toNat < slotCount kind) && rd 16 e 2 == 0 && (part e (4 + recordSize kind) 220).all (· == 0)
    && recordOk kind (part e 4 (recordSize kind))

/-- LOAD_BANK_BLOCK (R108, R194): all of its records or none. -/
def semLoadBankBlock (h : Hdr) (p : LoadBankBlock) : Sem where
  op := 0x0311
  lenOk := h.length = 16
  modes := bankModes
  range := fun _ => decide (1 ≤ p.count.toNat) && decide (p.count.toNat ≤ 152) && p.reserved == 0
  cond := fun d => d.blockCond p.offset p.length p.crc (p.length.toNat = 224 * p.count.toNat)
    (if d.loop.swap.isSome then some .busy else none) (fun b => (chunks 224 p.count.toNat b).all bankEntryOk)
  eff := fun d =>
    let es := chunks 224 p.count.toNat (d.blockBytes p.offset p.length)
    (d.onLoop (fun l => es.foldl (fun l e =>
      let kind := (rd 8 e 0).toNat
      l.load (256 * kind + (rd 8 e 1).toNat) { bytes := part e 4 (recordSize kind), stamp := some h.stamp }) l),
      some (.ok, []))

/-- The inactive bank is made equal to the active one. -/
def Loop.copy (l : Loop) : Loop := if l.activeB then { l with bankA := l.bankB } else { l with bankB := l.bankA }

/-- COPY_BANK (R178, R195): an incomplete record stays incomplete. -/
def semCopyBank (h : Hdr) : Sem where
  op := 0x0312
  lenOk := h.length = 0
  modes := bankModes
  cond := fun d => firstFail [(d.loop.swap.isNone, .busy)]
  eff := fun d => (d.onLoop Loop.copy, some (.ok, []))

/-- SWAP_BANKS (R178, R195). -/
def semSwapBanks (h : Hdr) (p : SwapBanks) : Sem where
  op := 0x0313
  lenOk := h.length = 4
  modes := bankModes
  range := fun _ => decide (p.preset.toNat ≤ 1) && p.reserved == 0
  cond := fun d => firstFail [(d.loop.swap.isNone, .busy), (d.loopView.complete (!d.loop.activeB), .range)]
  eff := fun d =>
    let e := d.effectAt h.stamp
    (d.onLoop (fun l => { l with swap := some (e, p.preset == 1) }), some (.ok, leBytes 8 e))

/-- SET_SLOT_MODE (R181, R196). -/
def semSetSlotMode (h : Hdr) (p : SetSlotMode) : Sem where
  op := 0x0320
  lenOk := h.length = 8
  modes := [.run, .tune]
  range := fun _ => decide (p.joint.toNat ≤ 127) && decide (p.state.toNat ≤ 1) && p.reserved == 0
  cond := fun d =>
    let j := p.joint.toNat
    let law := match (look d.loopView.joints j).cfg with
      | some c => c.kind == 2 || c.kind == 3
      | none => false
    let busy := match d.armOf j with
      | some a => decide ((look d.arms a).phase = .moving) || decide ((look d.arms a).phase = .stopping)
      | none => false
    if p.state = 1 then firstFail [(law, .range), (!busy, .mode)] else none
  eff := fun d => (d.await h.stamp (.setSlotMode h p), some (.ok, []))

/-- An arm's running move is abandoned (R181). -/
def Arm.abandon (a : Arm) : Arm :=
  if a.runs.isEmpty then a
  else { a with runs := [], lastCart := none, phase := if a.phase = .paused ∨ a.phase = .moving then .idle else a.phase }

/-- SET_SLOT_MODE at its boundary (R181, R196): in HOLD a slot is AUTO; MANUAL in RUN or TUNE abandons the arm's running move.
AUTO presets a slot that was set MANUAL, one that TUNE ran AUTO too (DESIGN CHOICE, log entry 190: R187 does not say whether its
next sample is a first one after MANUAL). -/
def Dev.applySlotMode (d : Dev) (p : SetSlotMode) : Dev :=
  let j := p.joint.toNat
  let man := decide (p.state = 1) && decide (d.power.mode ≠ .hold)
  let d1 := d.onLoop (fun l => { l with joints := upd l.joints j (fun s =>
    { s with manual := man, uMan := p.uMan.toInt, preset := s.preset || (s.manual && !man) }) })
  if man then
    match d.armOf j with
    | some a => d1.onArm a Arm.abandon
    | none => d1
  else d1

/-- A block as GET_SLOT_STATE returns it (R197). -/
def slotBlockBytes (b : Block) (n : Nat) (emin : Int) : List Byte :=
  intBytes 1 (b.exp emin) ++ [0, 0, 0] ++ (List.range n).flatMap (fun i => intBytes 4 (b.m.getD i 0))

/-- The slot of GET_SLOT_STATE exists and is on (R197). -/
def Dev.slotOn (d : Dev) (kind i : Nat) : Bool :=
  decide (i < slotCount kind) && (match kind with
  | 0 => match (look d.loop.joints i).cfg with
    | some c => c.kind != 0
    | none => false
  | 1 => match (look d.loop.arms i).cfg with
    | some c => c.law != 0
    | none => false
  | _ => (look d.loop.currents i).cfg.isSome)

/-- The blocks of a slot in chain order, on the record that the active bank holds. -/
def Dev.slotBlocks (d : Dev) (kind i : Nat) : List Byte :=
  let b := (d.loop.active (256 * kind + i)).bytes
  if b.isEmpty then []
  else match kind with
    | 0 =>
      let s := look d.loop.joints i
      (List.range (rd 8 b 0).toNat).flatMap (fun k => slotBlockBytes (s.stages.getD k {}) 4
          (stageRec (part b (24 + 24 * k) 24)).emin) ++ slotBlockBytes s.core 3 (coreRec (part b 4 20)).emin
    | 1 =>
      let s := look d.loop.arms i
      (List.range 6).flatMap (fun k => match s.cfg with
        | some c => if c.axes.getLsbD k then slotBlockBytes (s.cores.getD k {}) 3 (coreRec (part b (20 * k) 20)).emin else []
        | none => [])
    | _ =>
      let s := look d.loop.currents i
      slotBlockBytes s.coreD 3 (coreRec (part b 0 20)).emin ++ slotBlockBytes s.coreQ 3 (coreRec (part b 20 20)).emin

/-- GET_SLOT_STATE (R197): reading clears the sticky flags. The last staged output of an arm slot or a current slot,
which stage several values, is free. -/
def semGetSlotState (h : Hdr) (p : GetSlotState) : Sem where
  op := 0x0330
  lenOk := h.length = 4
  link := .both
  range := fun _ => p.reserved == 0
  cond := fun d => firstFail [(d.slotOn p.kind.toNat p.index.toNat, .range)]
  eff := fun d =>
    let i := p.index.toNat
    let held := if d.power.mode.torque then 0 else 2
    let ab := leBytes 1 (bit d.loop.activeB)
    if p.kind = 0 then
      let s := look d.loop.joints i
      let pass := match s.cfg with
        | some c => c.kind == 1
        | none => false
      let st := if pass then held else if d.power.mode.loops then (d.slotRun i).code else 2
      (d.onLoop (fun l => { l with joints := upd l.joints i (fun s => { s with sticky := 0, satSaid := false }) }),
        some (.ok, leBytes 1 st ++ ab ++ wordBytes s.sticky ++ intBytes 8 s.last ++ (if pass then [] else d.slotBlocks 0 i)))
    else
      let k := p.kind.toNat
      let sticky := if k = 1 then (look d.loop.arms i).sticky else (look d.loop.currents i).sticky
      ((d.draw 1).onLoop (fun l => if k = 1
          then { l with arms := upd l.arms i (fun s => { s with sticky := 0, satSaid := false }) }
          else { l with currents := upd l.currents i (fun s => { s with sticky := 0, satSaid := false }) }),
        some (.ok, leBytes 1 held ++ ab ++ wordBytes sticky ++ wordBytes (Config.freeWord d.fresh 64)
          ++ d.slotBlocks k i))

def execConfigJointSlot (h : Hdr) (p : ConfigJointSlot) (s : State) : Host.Outcome State Fault Refusal :=
  s.act (runCmd (semConfigJointSlot h p) h)

def execConfigArmSlot (h : Hdr) (p : ConfigArmSlot) (s : State) : Host.Outcome State Fault Refusal :=
  s.act (runCmd (semConfigArmSlot h p) h)

def execConfigCurrentSlot (h : Hdr) (p : ConfigCurrentSlot) (s : State) : Host.Outcome State Fault Refusal :=
  s.act (runCmd (semConfigCurrentSlot h p) h)

def execSetArmTarget (h : Hdr) (p : SetArmTarget) (s : State) : Host.Outcome State Fault Refusal :=
  s.act (runCmd (semSetArmTarget h p) h)

def execLoadBank (h : Hdr) (p : LoadBank) (s : State) : Host.Outcome State Fault Refusal :=
  s.act (runCmd (semLoadBank h p) h)

def execLoadBankBlock (h : Hdr) (p : LoadBankBlock) (s : State) : Host.Outcome State Fault Refusal :=
  s.act (runCmd (semLoadBankBlock h p) h)

def execCopyBank (h : Hdr) (s : State) : Host.Outcome State Fault Refusal := s.act (runCmd (semCopyBank h) h)

def execSwapBanks (h : Hdr) (p : SwapBanks) (s : State) : Host.Outcome State Fault Refusal :=
  s.act (runCmd (semSwapBanks h p) h)

def execSetSlotMode (h : Hdr) (p : SetSlotMode) (s : State) : Host.Outcome State Fault Refusal :=
  s.act (runCmd (semSetSlotMode h p) h)

def execGetSlotState (h : Hdr) (p : GetSlotState) (s : State) : Host.Outcome State Fault Refusal :=
  s.act (runCmd (semGetSlotState h p) h)

/-- FEEDBACK_MISS_LIMIT (R180). -/
def execFeedbackMissLimit (t : Nat) (slot : Fin 128) (s : State) : Host.Outcome State Fault Refusal :=
  s.act (fun d => (d.advance t).missLimit t slot.val)

end Sys2Proof.Machine
end

