-- ==== Sys2Proof/Machine/CurrentLoop.lean ====
section
/-! DEFINITION. The local current slots (spec/08_loop_engine.md, R185 to R187). Products and quotients are rounded once to a
24-bit mantissa at the exponent that R170 gives them; currents are carried in units of 2^-16 A, voltages of 2^-10 V
(log entry 41). -/

namespace Sys2Proof.Machine

/-- A dyadic number: mantissa and exponent, of value m × 2^e. -/
structure Dy where
  m : Int := 0
  e : Int := 0
deriving DecidableEq, Repr, Inhabited

/-- The exact sum. -/
def Dy.add (a b : Dy) : Dy :=
  let e := min a.e b.e
  { m := a.m * 2 ^ (a.e - e).toNat + b.m * 2 ^ (b.e - e).toNat, e := e }

/-- The negative. -/
def Dy.neg (a : Dy) : Dy := { a with m := -a.m }

/-- Half. -/
def Dy.half (a : Dy) : Dy := { a with e := a.e - 1 }

/-- Rounded once, half to even, to a 24-bit mantissa. -/
def Dy.round (a : Dy) : Dy :=
  let n := bitlen (mag a.m)
  if n ≤ 23 then a
  else
    let m := rneShift a.m (n - 23)
    if m = 8388608 then { m := rneShift a.m (n - 22), e := a.e + (n - 22) } else { m := m, e := a.e + (n - 23) }

/-- A product, rounded once. -/
def Dy.mul (a b : Dy) : Dy := ({ m := a.m * b.m, e := a.e + b.e } : Dy).round

/-- The square root of p / q with sign, rounded once to a 24-bit mantissa; what is lost beyond 2^-64 of it only says on
which side of a half it lies. -/
def rootOf (neg : Bool) (p q : Nat) : Dy :=
  let k : Nat := 200
  let n := p * 4 ^ k / q
  let r := isqrtFrom (bitlen n / 2 + 1) n 0
  let odd := if r * r * q = p * 4 ^ k then 2 * r else 2 * r + 1
  ({ m := if neg then -(odd : Int) else odd, e := -(k : Int) - 1 } : Dy).round

/-- A quotient of a number by a positive integer, rounded once. -/
def Dy.divNat (a : Dy) (q : Nat) : Dy :=
  let k : Nat := 64
  let n := a.m.natAbs * 2 ^ k
  let r := n / q
  let odd : Nat := if r * q = n then 2 * r else 2 * r + 1
  ({ m := if a.m < 0 then -(odd : Int) else odd, e := a.e - k - 1 } : Dy).round

/-- The square of a number as a fraction. -/
def Dy.sq (a : Dy) : Nat × Nat := (a.m.natAbs ^ 2 * 4 ^ a.e.toNat, 4 ^ (-a.e).toNat)

/-- A quotient by sqrt3, rounded once. -/
def Dy.divRoot3 (a : Dy) : Dy := let s := a.sq; rootOf (decide (a.m < 0)) s.1 (3 * s.2)

/-- A product with sqrt3, rounded once. -/
def Dy.mulRoot3 (a : Dy) : Dy := let s := a.sq; rootOf (decide (a.m < 0)) (3 * s.1) s.2

/-- The order of two numbers. -/
def Dy.le (a b : Dy) : Bool := decide (0 ≤ (b.add a.neg).m)

/-- Sine and cosine of a turn n / m as 24-bit mantissas (R185). -/
def sincos24 (n m : Nat) : Dy × Dy :=
  let f := fun (w : Int) => ({ m := if w = 2 ^ 23 then 2 ^ 23 - 1 else w, e := -23 } : Dy)
  (f (rneSin (2 ^ 23) n m), f (rneCos (2 ^ 23) n m))

/-- The electrical angle at the next quarter point, as a fraction of a revolution (R185). -/
def angle (c : ConfigCurrentSlot) (fb vel : Int) (m tc : Nat) : Nat × Nat :=
  let den : Nat := 2 ^ 24 * 4 * lsbPerSecond
  let num : Int := (c.polePairs.toNat : Int) * (fb * (4 * lsbPerSecond : Nat) + vel * 256 * ((m + 1) * tc : Nat))
    + (c.offset.toNat * 2 ^ 8 * (4 * lsbPerSecond) : Nat)
  ((num % (den : Int)).toNat, den)

/-- A dyadic number as the input of a core: a 24-bit mantissa and its exponent (R168). -/
def Dy.input (a : Dy) : Int × Int :=
  let n := bitlen (mag a.m)
  if n ≤ 23 then (a.m * 2 ^ (23 - n), a.e + n)
  else let r := a.round; let k := bitlen (mag r.m); (r.m * 2 ^ (23 - k), r.e + k)

/-- A core output as a number. -/
def CoreRun.value (r : CoreRun) : Dy := { m := r.m, e := r.e - 23 }

/-- What a quarter point gives a current slot. -/
structure CurrentRun where
  d      : CoreRun
  q      : CoreRun
  duties : List (BitVec 16)
  iq     : Dy
  vq     : Dy
  lim    : Bool
deriving DecidableEq, Repr, Inhabited

/-- The duty of a phase voltage. -/
def duty (v : Dy) (vdc : Nat) : BitVec 16 :=
  let x := v.divNat vdc
  let y := x.add { m := 1, e := -1 }
  BitVec.ofInt 16 (clampInt 0 65535 (rneShift y.m (-16 - y.e)))

/-- The largest and the smallest of three numbers. -/
def Dy.extremes (a b c : Dy) : Dy × Dy :=
  let hi := fun (x y : Dy) => if x.le y then y else x
  let lo := fun (x y : Dy) => if x.le y then x else y
  (hi a (hi b c), lo a (lo b c))

/-- The computation of R185 on the phase words, the angle, and the torque command; `preset` is the target to which both cores
are preset, if they are (R187). -/
def runCurrent (c : ConfigCurrentSlot) (b : List Byte) (s : CurrentSlot) (u v : Int) (sc : Dy × Dy) (tau inj : Int)
    (preset : Option Int) : CurrentRun :=
  let amps := fun (w : Int) => (({ m := w * c.iScale.toNat, e := -8 } : Dy)).round
  let iu := amps u
  let iv := amps v
  let ib := (iu.add (iv.add iv)).divRoot3
  let (sn, cs) := sc
  let id := (iu.mul cs).add (ib.mul sn)
  let iq := ((iu.neg).mul sn).add (ib.mul cs)
  let want := ({ m := tau, e := 22 } : Dy).divNat c.kt.toNat
  let top : Dy := { m := c.iMax.toNat, e := 0 }
  let held := if want.le top.neg then top.neg else if want.le top then want else top
  let err := (held.add { m := inj, e := 0 }).add iq.neg
  let xd := id.neg.input
  let xq := err.input
  let rd' := coreRec (part b 0 20)
  let rq' := coreRec (part b 20 20)
  let cores := fun (h : Bool) => (runCore rd' s.coreD xd.1 xd.2 preset none h, runCore rq' s.coreQ xq.1 xq.2 preset none h)
  let vdc := c.vDc.toNat
  let norm2 := fun (p : CoreRun × CoreRun) => let a := p.1.value.sq; let b := p.2.value.sq
    (a.1 * b.2 + b.1 * a.2, a.2 * b.2)
  let p0 := cores false
  let n0 := norm2 p0
  let lim := decide (vdc ^ 2 * n0.2 < 3 * n0.1)
  let p := if lim then cores true else p0
  let n := norm2 p
  let scaled := fun (r : CoreRun) =>
    if !lim ∨ n.1 = 0 then r.value
    else let a := r.value.sq; rootOf (decide (r.m < 0)) (a.1 * vdc ^ 2 * n.2) (a.2 * 3 * n.1)
  let vd := scaled p.1
  let vq := scaled p.2
  let va := (vd.mul cs).add (vq.mul sn).neg
  let vb := (vd.mul sn).add (vq.mul cs)
  let r3 := vb.mulRoot3
  let vu := va
  let vv := (va.neg.add r3).half
  let vw := (va.neg.add r3.neg).half
  let (hi, lo) := Dy.extremes vu vv vw
  let off := (hi.add lo).half.neg
  { d := p.1, q := p.2, duties := [vu, vv, vw].map (fun x => duty (x.add off) vdc), iq := iq, vq := vq, lim := lim }

/-- The duty words of a current slot are staged for its PWM group (R380); one with DIRECT words takes none. -/
def Dev.stageDuties (d : Dev) (g : Nat) (l : List (BitVec 16)) : Dev :=
  d.onPwm (fun p => { p with groups := upd p.groups g (fun x =>
    if x.cfg.any (fun c => decide (c.source ≠ 2)) then x else { x with phases := x.phases.mapIdx (fun i y => { y with next := some (l.getD i 0) }) }) })

/-- A number rounded to an integer, for the skimmer. -/
def Dy.toInt (a : Dy) : Int := rneShift a.m (-a.e)

/-- The filter outputs as the slots take them at a quarter point: of an input with an event, the previous one again (R495). -/
def Loop.filtered (l : Loop) (sd : List Int) : List Int :=
  (List.range 24).map (fun i => if l.sdBad.getLsbD i then l.sd.getD i 0 else sd.getD i 0)

/-- A current slot at quarter point m of the period (R185 to R187, R382). -/
def Dev.currentSample (d : Dev) (t m : Nat) (sd : List Int) (g : Nat) : Dev :=
  let s := look d.loop.currents g
  let key := 512 + g
  match s.cfg with
  | none => d
  | some c =>
    let zero := fun (d : Dev) => d.stageDuties g [0, 0, 0]
    let keep := fun (x : CurrentSlot) (l : List (BitVec 16)) => d.onLoop (fun y => { y with
      currents := put y.currents g { x with duties := l } })
    if (List.range 3).any (fun i => d.isRetired 7 (3 * g + i)) ∨ !d.sdPostRuns then
      (zero (keep s [0, 0, 0])).onPwm (fun p => { p with groups := upd p.groups g (fun x =>
        { x with driven := false, edges := [], gates := 0 }) })
    else if key ∈ d.loop.bankErr then d
    else match d.bankOf key s.cfgStamp with
      | none => (zero (keep s [0, 0, 0])).skimLoop (t + d.time.tc / 4) key 8 0 false
      | some b =>
        let j := c.joint.toNat
        let x := look d.joints j
        let tau := ((look d.loop.joints j).out).getD 0
        let v := d.injected key 4
        let a := angle c x.fb x.fbVel m d.time.tc
        let u0 := sd.getD (3 * g) 0
        let u1 := sd.getD (3 * g + 1) 0
        let on := decide (d.power.mode.torque ∧ !(look d.pwm.groups g).trip)
        let r := runCurrent c b s u0 u1 (sincos24 a.1 a.2) tau v (if on then none else some 0)
        let sat := r.d.sat || r.q.sat
        let f := flagWord sat false (on && r.lim) (on && r.lim) (!on) false
        let duties := if on then r.duties else [0, 0, 0]
        let d1 := keep { s with
          coreD := r.d.block, coreQ := r.q.block, flags := f, sticky := s.sticky ||| f,
          satSaid := s.satSaid || sat } duties
        let d2 := d1.stageDuties g duties
        let d3 := if sat ∧ !s.satSaid then d2.loopNotice t 2 key else d2
        let w := fun (n : Int) => loopWord n
        let q := t + d.time.tc / 4
        let vq := if on then r.vq.toInt else 0
        let d4 := d3.skimLoop t key 7 (w r.iq.toInt).1 (w r.iq.toInt).2
        let d5 := d4.skimLoop q key 8 (w vq).1 (w vq).2
        let d6 := d5.skimLoop q key 6 (w v).1 (w v).2
        if on then (d.watchLost d6 key).nextSample key else d.watchLost d6 key

/-- What SD_POST delivers for the filter words of a quarter point (R185, R322). -/
def droop (f : Nat) (l : List Int) : List Int := l.mapIdx (fun i w => Config.droop (f + i) w)

/-- The current slots at a quarter point (R185); they are off in DORMANT and SHADOW. -/
def Dev.currentSlots (d : Dev) (t m : Nat) (sd : List Int) : Dev :=
  if d.power.mode.loops then (List.range 8).foldl (fun d g => d.currentSample t m sd g) d else d

end Sys2Proof.Machine
end

