-- ==== Sys2Proof/Machine/Tuning.lean ====
section
/-! DEFINITION. Tuning by injection and capture (spec/09_tuning_injection.md): the commands of class 0x04, the start and
end of injections, identification and retuning. -/

namespace Sys2Proof.Machine

/-! ### The start and end of injections (R203 to R205, R210, R211) -/

/-- The key of a slot: kind * 256 + index. -/
def slotKey (kind index : BitVec 8) : Nat := 256 * kind.toNat + index.toNat

/-- The slots with an injection once every accepted START and STOP has taken effect (R204). -/
def Dev.injectedView (d : Dev) : List Nat :=
  d.waiting.foldl (fun l w => match w.cmd with
    | .startInjection _ p => slotKey p.kind p.index :: l.filter (· ≠ slotKey p.kind p.index)
    | .stopInjection _ p => if p.index = 0xFF then l.filter (fun k => k / 256 ≠ p.kind.toNat)
      else l.filter (· ≠ slotKey p.kind p.index)
    | _ => l) (d.injections .running)

/-- The skimmer channels bound or to be bound. -/
def Dev.boundView (d : Dev) : List (BitVec 8) :=
  let of := fun (p : StartInjection) => [p.cInj, p.cOut, p.cFb].filter (· ≠ 0xFF)
  let keys := d.injectedView
  (keys.flatMap (fun k => if (look d.tuning.inj k).phase = .running then of (look d.tuning.inj k).p else []))
    ++ d.waiting.flatMap (fun w => match w.cmd with
      | .startInjection _ p => if slotKey p.kind p.index ∈ keys then of p else []
      | _ => [])

/-- The signal block is in range: its fields, and zeros beyond them (R210). -/
def signalOk (p : StartInjection) : Bool :=
  let rest := fun n => (p.block.drop n).all (· == 0)
  match p.signal.toNat with
  | 0 => rest 4
  | 1 => decide (injNat p 4 ≤ 0x7FFFFFFF) && decide (injNat p 8 ≤ 0x7FFFFFFF) && decide (2 ≤ p.n.toNat) && rest 12
  | 2 =>
    let hold := (rd 16 p.block 6).toNat
    let seed := injNat p 8
    decide (prbsTap (injOrder p) ≠ 0) && p.block.getD 5 0 == 0 && decide (1 ≤ hold) && decide (hold ≤ 64)
      && decide (0 < seed) && decide (seed < 2 ^ injOrder p) && rest 12
  | 3 =>
    let n := (p.block.getD 4 0).toNat
    let m := injPeriod p
    decide (16 ≤ m) && decide (m ≤ 65535) && decide (1 ≤ n) && decide (n ≤ 8)
      && ((p.block.drop 5).take 3).all (· == 0)
      && (injParts p).all (fun c => decide (1 ≤ c.2.1) && decide (c.2.1 ≤ m / 2 - 1)) && rest (8 + 8 * n)
  | _ => false

/-- The point is one of its slot kind (R199). -/
def pointOk (kind point : Nat) : Bool :=
  match kind with
  | 0 => decide (point ≤ 2)
  | 1 => decide (point = 3)
  | 2 => decide (point = 4)
  | _ => false

/-- IDENT is allowed (R206), as far as the command's own fields say. -/
def identOk (p : StartInjection) : Bool :=
  !p.flags.getLsbD 2 || (p.kind == 0 && p.point == 1 && p.signal == 3 && decide (p.n.toNat % injPeriod p = 0)
    && decide (2 * injPeriod p ≤ p.n.toNat) && p.cOut != 0xFF && p.cFb != 0xFF)

/-- START_INJECTION (R199, R204 to R206, R210). -/
def semStartInjection (h : Hdr) (p : StartInjection) : Sem where
  op := 0x0400
  lenOk := h.length = 96
  modes := [.tune]
  range := fun _ => decide (p.index.toNat < slotCount p.kind.toNat) && pointOk p.kind.toNat p.point.toNat
    && p.flags &&& 0xF8 == 0 && (!p.flags.getLsbD 0 || p.point == 1) && decide (1 ≤ p.n.toNat)
    && decide (p.n.toNat ≤ 16777216) && decide (1 ≤ p.excLimit.toNat) && decide (1 ≤ p.velLimit.toNat)
    && decide (p.velLimit.toNat ≤ 0x7FFFFFFF) && (if p.point = 3 then decide (p.axis.toNat ≤ 5) else p.axis == 0)
    && p.reserved == 0 && signalOk p && identOk p
    && decide (injAmplitude p < (if p.point = 0 then 2 ^ 47 else 2 ^ 31))
  cond := fun d =>
    let key := slotKey p.kind p.index
    let kind := fun (ks : List (BitVec 8)) => match (look d.loop.joints p.index.toNat).cfg with
      | some c => decide (c.kind ∈ ks)
      | none => false
    let slot := if p.kind = 0 then (if p.flags.getLsbD 2 then kind [3] else kind [2, 3]) else d.slotOn p.kind.toNat p.index.toNat
    let chans := [p.cInj, p.cOut, p.cFb].filter (· ≠ 0xFF)
    firstFail [(slot, .range), (decide (key ∉ d.injectedView), .range),
      (decide chans.Nodup && chans.all (fun c => decide (c ∉ d.boundView)), .range),
      (chans.isEmpty || !d.domOff 11, .range),
      (p.kind != 0 || !(look d.loop.joints p.index.toNat).manual, .mode),
      (decide (d.injectedView.length < 8), .queueFull)]
  eff := fun d =>
    let key := slotKey p.kind p.index
    let d1 := if (look d.tuning.inj key).phase = .running then d
      else d.onTuning (fun x => { x with inj := put x.inj key { p := p, phase := .pending, effB := d.effectAt h.stamp } })
    (d1.await h.stamp (.startInjection h p), some (.ok, []))

/-- A channel bound by an injection: kind LOOP with EVERY set (R205, R368). -/
def boundChannel (c : BitVec 8) (key var : Nat) : ConfigChannel :=
  { channel := c, kind := 4, source := BitVec.ofNat 16 (key + 1024 * var), flags := 1 }

/-- START_INJECTION at its boundary: it starts in TUNE, and elsewhere ends with CANCELLED, where the end of TUNE has not ended it
already (R204); its channels are bound, and its start is a trigger condition where TRIG is set (R205, R362). -/
def Dev.applyStart (d : Dev) (b : Nat) (p : StartInjection) : Dev :=
  let key := slotKey p.kind p.index
  let d1 := d.onTuning (fun x => { x with inj := put x.inj key { p := p, phase := .pending, effB := b } })
  let ended := look d.tuning.inj key
  if ended.phase = .cancelled ∧ ended.p = p ∧ ended.effB = b then d
  else if d.power.mode ≠ .tune then d1.endInjection b key .cancelled 3
  else
    let vars := if p.kind = 1 then (6, 10, 9) else if p.kind = 2 then (6, 8, 7) else (6, 1, 9)
    let bind := fun (m : Tab SkimChan) (c : BitVec 8) var => if c = 0xFF then m
      else upd m c.toNat (fun y => { y with bound := some (boundChannel c key var), last := none, first := true })
    let d2 := d1.onTuning (fun x => { x with inj := upd x.inj key (fun i => { i with phase := .running }) })
    let d3 := d2.onSkim (fun k => { k with
      chans := bind (bind (bind k.chans p.cInj vars.1) p.cOut vars.2.1) p.cFb vars.2.2 })
    if p.flags.getLsbD 1 ∧ d3.skim.trig.enable.getLsbD 5 then d3.skimTrigger b 32 else d3

/-- STOP_INJECTION (R211). -/
def semStopInjection (h : Hdr) (p : StopInjection) : Sem where
  op := 0x0401
  lenOk := h.length = 4
  modes := [.tune]
  range := fun _ => decide (p.kind.toNat ≤ 2) && (p.index == 0xFF || decide (p.index.toNat < slotCount p.kind.toNat))
    && p.reserved == 0
  eff := fun d => (d.await h.stamp (.stopInjection h p), some (.ok, []))

/-- STOP_INJECTION at its boundary. -/
def Dev.applyStop (d : Dev) (b : Nat) (p : StopInjection) : Dev :=
  (d.injections .running).foldl (fun d k =>
    if k / 256 = p.kind.toNat ∧ (p.index = 0xFF ∨ k % 256 = p.index.toNat) then d.endInjection b k .cancelled 3 else d) d

/-- The injections whose samples have all been applied end at a boundary; with IDENT what they recorded is identified (R205, R206,
R209). -/
def Dev.finishInjections (d : Dev) (b : Nat) : Dev :=
  (d.injections .running).foldl (fun d k =>
    let x := look d.tuning.inj k
    if x.i < x.p.n.toNat then d
    else
      let d1 := d.endInjection b k .done 1
      if x.p.flags.getLsbD 2 then d1.onTuning (fun u => { u with
        ids := put u.ids k (some { p := x.p, at_ := x.effB, outs := x.outs, fbs := x.fbs, lost := x.lost }) })
      else d1) d

/-! ### Identification (R206, R207) -/

/-- A complex number, and its operations. -/
structure Cx where
  re : Rat := 0
  im : Rat := 0
deriving DecidableEq, Repr, Inhabited

def Cx.norm (z : Cx) : Rat := z.re * z.re + z.im * z.im

def Cx.sub (z w : Cx) : Cx := { re := z.re - w.re, im := z.im - w.im }

def Cx.div (z w : Cx) : Cx :=
  { re := (z.re * w.re + z.im * w.im) / w.norm, im := (z.im * w.re - z.re * w.im) / w.norm }

/-- The single-bin DFT at `h` cycles in `m` samples of values with their sample numbers. -/
def dftBin (h m : Nat) (l : List (Int × Rat)) : Cx :=
  l.foldl (fun z e =>
    let turn := frac (h * e.1) m
    { re := z.re + e.2 * cosTurn turn, im := z.im - e.2 * sinTurn turn }) {}

/-- The samples of a channel after the first P, numbered by their stamps from the start boundary, times its LSB. -/
def identSamples (at_ tc p : Nat) (lsb : Rat) (l : List (Nat × Int)) : List (Int × Rat) :=
  (l.reverse.drop p).map (fun e => (((e.1 : Int) - at_) / tc, e.2 * lsb))

/-- ω_i and Z_i of the components (R206 steps 1 and 2): torque in N m, position in rev or m. -/
def Ident.responses (x : Ident) (tc : Nat) : List (Rat × Cx) :=
  let m := injPeriod x.p
  (injParts x.p).map (fun c =>
    let h := c.2.1
    let u := dftBin h m (identSamples x.at_ tc m (1 / 2 ^ 10) x.outs)
    let y := dftBin h m (identSamples x.at_ tc m (1 / 2 ^ 24) x.fbs)
    (twoPi * h * lsbPerSecond / (m * tc : Nat), u.div y))

/-- J′, b′ and r (R206 steps 3 and 4). -/
def fitPlant (l : List (Rat × Cx)) : Rat × Rat × Rat :=
  let sum := fun (g : Rat → Cx → Rat) => rSum (l.map (fun e => g e.1 e.2))
  let j := -(sum (fun w z => z.re * w ^ 2)) / sum (fun w _ => w ^ 4)
  let b := sum (fun w z => z.im * w) / sum (fun w _ => w ^ 2)
  (j, b, sum (fun w z => (z.sub { re := -j * w ^ 2, im := b * w }).norm) / sum (fun _ z => z.norm))

/-- The smallest f from `n` to 16 for which four mantissas fit; `g` gives them. -/
def smallestF (g : Nat → List Int) : Nat → Nat → Option (Nat × List Int)
  | 0, _ => none
  | fuel + 1, f => if (g f).all fits24 then some (f, g f) else smallestF g fuel (f + 1)

/-- A gain clamped into its bound, and whether it was. -/
def clampGain (x lo hi : Rat) : Rat × Bool := if x < lo then (lo, true) else if hi < x then (hi, true) else (x, false)

/-- The gains that R207 proposes from J′ and b′: the mantissas by f, and the clamp flags. -/
def proposal (j b : Rat) (p : SetRetuneBounds) (tc : Nat) : (Nat → List Int) × Nat :=
  let w := ofWord 16 p.omegaC.toNat
  let t := frac tc lsbPerSecond
  let one := fun (x : BitVec 32) => (x.toNat : Rat)
  let kp := clampGain (3 * j * w ^ 2) (one p.kpMin) (one p.kpMax)
  let ki := clampGain (j * w ^ 3) (one p.kiMin) (one p.kiMax)
  let kd := clampGain (3 * j * w - b) (one p.kdMin / 256) (one p.kdMax / 256)
  let ad := max 0 (1 - 10 * w * t)
  (fun f =>
    let s : Rat := 2 ^ (23 - f)
    [rneRat (kp.1 * s / 2 ^ 14), rneRat (ki.1 * t * s / 2 ^ 14), rneRat (kd.1 / t * s / 2 ^ 14), rneRat (ad * s)],
   bit kp.2 + 2 * bit ki.2 + 4 * bit kd.2)

/-- A joint record with other gains: kff, the stages and the exponent bounds stay (R207). -/
def withGains (old : List Byte) (f : Nat) (m : List Int) : List Byte :=
  part old 0 4 ++ (List.range 4).flatMap (fun i => intBytes 4 (m.getD i 0)) ++ leBytes 1 f ++ old.drop 21

/-- IDENT_RESULT (R206, R207): the result of the slot's identification is posted. The spec states no rounding for J′, b′ and r as
they are reported; the fit and the gains are exact. A sum that is 0 in a denominator makes no fit. -/
def Dev.identResult (d : Dev) (t j : Nat) : Dev :=
  match look d.tuning.ids j with
  | none => d
  | some x =>
    let bounds := look d.tuning.bounds j
    let (jj, bb, r) := fitPlant (x.responses d.time.tc)
    let rmax := match bounds with
      | some p => ofWord 15 p.rMax.toNat
      | none => 0
    let fit := !x.lost && decide (0 < jj) && decide (0 ≤ bb) && decide (r ≤ rmax)
    let base := { look d.tuning.inj j with
      j := BitVec.ofInt 32 (Config.rounds 8 (jj * 2 ^ 10)), b := BitVec.ofInt 32 (Config.rounds 8 (bb * 2 ^ 10))
      r := BitVec.ofInt 16 (clampInt 0 65535 (Config.rounds 8 (r * 2 ^ 15))), record := [], clamp := 0, idStat := 0xA }
    let done := match bounds with
      | some p =>
        if fit then
          let g := proposal jj bb p d.time.tc
          match smallestF g.1 17 0 with
          | some (f, m) => { base with idStat := 0, record := withGains (d.loop.active j).bytes f m,
                                       clamp := BitVec.ofNat 8 g.2 }
          | none => { base with idStat := 6, clamp := BitVec.ofNat 8 g.2 }
        else base
      | none => base
    let prop := if done.record.isEmpty then none else some { id := x.p.id, record := done.record }
    (d.onTuning (fun u => { u with
      inj := put u.inj j done, ids := put u.ids j none, props := put u.props j prop, busy := put u.busy j 0 })).notice 5 0 t 0x0404
      (injArg j x.p.id) false

/-! ### Retuning (R208) -/

/-- A retune is given up, with its notice. -/
def Dev.skipRetune (d : Dev) (t j : Nat) (id : BitVec 16) : Dev :=
  (d.onTuning (fun u => { u with busy := put u.busy j 0, props := put u.props j none })).notice 5 0 t 0x0406 (injArg j id) false

/-- The two banks hold the same record for every slot. -/
def Loop.sameBanks (l : Loop) : Bool :=
  (l.bankA ++ l.bankB).all (fun e => decide ((look l.bankA e.1).bytes = (look l.bankB e.1).bytes))

/-- RETUNE (R208): copy, load of the one record, and swap with preset, at AUTONOMOUS in TUNE with bounds. While the slot carries an
injection, or the mode is another, the proposal goes on waiting. -/
def Dev.retune (d : Dev) (t j : Nat) : Dev :=
  match look d.tuning.props j with
  | none => d
  | some g =>
    let x := look d.tuning.inj j
    if d.time.policyForce ≠ .autonomous ∨ (look d.tuning.bounds j).isNone ∨ d.power.mode ≠ .tune ∨ x.phase = .pending
      ∨ x.phase = .running then d
    else if !d.loop.sameBanks then d.skipRetune t j g.id
    else if d.loop.swap.isSome then
      let n := look d.tuning.busy j + 1
      if 80 ≤ n then d.skipRetune t j g.id else d.onTuning (fun u => { u with busy := put u.busy j n })
    else
      let old := (d.loop.active j).bytes
      let d1 := d.onLoop (fun l => { l.copy.load j { bytes := g.record, stamp := some t } with
        swap := some (d.effectAt t, true) })
      d1.onTuning (fun u => { u with
        busy := put u.busy j 0, props := put u.props j none, retune := some (j, g.id, old, g.record) })

/-- SET_RETUNE_BOUNDS as bytes, in the order of R213. -/
def boundsBytes (p : SetRetuneBounds) : List Byte :=
  wordBytes p.joint ++ [0, 0, 0] ++ [p.omegaC, p.kpMin, p.kpMax, p.kiMin, p.kiMax, p.kdMin, p.kdMax].flatMap wordBytes
    ++ wordBytes p.rMax ++ [0, 0]

/-- The bank swap of a boundary, and RETUNED where a retune made it, journalled with both records and the bounds (R178,
R208). -/
def Dev.swapStep (d : Dev) (b : Nat) : Dev :=
  let d1 := d.swapBanks b
  match d.loop.swap.isSome && d1.loop.swap.isNone, d1.tuning.retune with
  | true, some (j, id, old, new) =>
    (d1.onTuning (fun u => { u with retune := none })).notice 5 0 b 0x0405 (injArg j id) true
      (old ++ new ++ (match look d1.tuning.bounds j with
        | some p => boundsBytes p
        | none => []))
  | _, _ => d1

/-! ### The other commands (R212, R213) -/

/-- The state code of an injection (R212). -/
def InjPhase.code : InjPhase → Nat
  | .none => 0 | .pending => 1 | .running => 2 | .done => 3 | .aborted => 4 | .cancelled => 5

/-- GET_INJECTION_STATE (R212). -/
def semGetInjectionState (h : Hdr) (p : GetInjectionState) : Sem where
  op := 0x0402
  lenOk := h.length = 4
  link := .both
  range := fun _ => decide (p.index.toNat < slotCount p.kind.toNat) && p.reserved == 0
  eff := fun d =>
    let x := look d.tuning.inj (slotKey p.kind p.index)
    (d, some (.ok, leBytes 1 x.phase.code ++ wordBytes x.p.id ++ leBytes 4 x.i ++ wordBytes x.idStat ++ wordBytes x.j
      ++ wordBytes x.b ++ wordBytes x.r ++ (x.record ++ List.replicate (216 - x.record.length) 0) ++ wordBytes x.clamp))

/-- SET_RETUNE_BOUNDS (R213). -/
def semSetRetuneBounds (h : Hdr) (p : SetRetuneBounds) : Sem where
  op := 0x0410
  lenOk := h.length = 36
  modes := [.ready, .hold, .tune]
  range := fun _ => decide (p.joint.toNat ≤ 127) && p.reserved0 == 0 && p.reserved1 == 0 && decide (0 < p.omegaC.toNat)
    && decide (p.kpMin.toNat ≤ p.kpMax.toNat) && decide (p.kiMin.toNat ≤ p.kiMax.toNat)
    && decide (p.kdMin.toNat ≤ p.kdMax.toNat)
  cond := fun d => firstFail [(match (look d.loopView.joints p.joint.toNat).cfg with
    | some c => c.kind == 3
    | none => false, .range)]
  eff := fun d => (d.onTuning (fun u => { u with bounds := put u.bounds p.joint.toNat (some p) }), some (.ok, []))

def execStartInjection (h : Hdr) (p : StartInjection) (s : State) : Host.Outcome State Fault Refusal :=
  s.act (runCmd (semStartInjection h p) h)

def execStopInjection (h : Hdr) (p : StopInjection) (s : State) : Host.Outcome State Fault Refusal :=
  s.act (runCmd (semStopInjection h p) h)

def execGetInjectionState (h : Hdr) (p : GetInjectionState) (s : State) : Host.Outcome State Fault Refusal :=
  s.act (runCmd (semGetInjectionState h p) h)

def execSetRetuneBounds (h : Hdr) (p : SetRetuneBounds) (s : State) : Host.Outcome State Fault Refusal :=
  s.act (runCmd (semSetRetuneBounds h p) h)

/-- IDENT_RESULT (R206). -/
def execIdentResult (t : Nat) (slot : Fin 128) (s : State) : Host.Outcome State Fault Refusal :=
  s.act (fun d => (d.advance t).identResult t slot.val)

/-- RETUNE (R208). -/
def execRetune (t : Nat) (slot : Fin 128) (s : State) : Host.Outcome State Fault Refusal :=
  s.act (fun d => (d.advance t).retune t slot.val)

end Sys2Proof.Machine
end

