-- ==== Sys2Proof/Machine/PwmBrakes.lean ====
section
/-! DEFINITION. PWM groups, trips and brake outputs (spec/17_pwm_brake_outputs.md): carrier cycles, latching, trip latches,
the calibration flag, and the commands of class 0x0B from 0x0B40 on. -/

namespace Sys2Proof.Machine

/-! ### Carrier cycles (R375 to R379) -/

/-- The period of a carrier cycle in fine steps, where n_c divides it (R375). -/
def finePeriod (tc nc : Nat) : Nat := nNom tc * 64 / nc

/-- One carrier cycle of a phase (R376, R378). -/
def PwmPhase.cycle (x : PwmPhase) (c : ConfigPwmGroup) (pf : Nat) : PwmPhase :=
  let refresh := decide (c.nRef ≠ 0) && decide (c.nRef.toNat ≤ x.count)
  let th : Nat := if x.d = 0xFFFF then pf else (rneDiv (x.d.toNat * pf : Nat) 65536).toNat
  let p : Nat := if refresh then pf - c.tRf.toNat else pf
  let r : Nat := (clampInt 0 p (th + x.c)).toNat
  let thr := c.tDt.toNat + c.tMin.toNat
  let next := fun (low : Bool) => if refresh ∨ low then 0 else x.count + 1
  if r < thr then { x with r := r, c := r, high := false, count := next true }
  else if p - r < thr then { x with r := r, c := (r : Int) - p, high := true, count := next false }
  else { x with r := r, c := 0, high := false, count := next true }

/-- The level changes of a phase within a cycle (R376, R378): the level and the fine step at which it begins. -/
def PwmPhase.levels (x y : PwmPhase) (c : ConfigPwmGroup) : List (Bool × Nat) :=
  let refresh := decide (c.nRef ≠ 0) && decide (c.nRef.toNat ≤ x.count)
  let s := if refresh then c.tRf.toNat else 0
  let emitted := y.c = 0 ∧ !y.high
  (if refresh then [(false, 0)] else []) ++ (if emitted ∧ y.r ≠ 0 then [(true, s), (false, s + y.r)] else [(y.high, s)])

/-- The gate edges that a phase's levels make (R377): the gate of the old level turns off at once, that of the new one turns on
t_dt later; from the all-off state the gate of the first level turns on t_dt after it begins. `h` and `l` say which gate is on
before. -/
def gateEdges (tDt i : Nat) : List (Bool × Nat) → Bool → Bool → List GateEdge
  | [], _, _ => []
  | (true, s) :: r, h, l =>
    (if l then [{ step := s, gate := 2 * i + 1, on := false }] else [])
      ++ (if h then [] else [{ step := (s + tDt : Nat), gate := 2 * i, on := true }]) ++ gateEdges tDt i r true false
  | (false, s) :: r, h, l =>
    (if h then [{ step := s, gate := 2 * i, on := false }] else [])
      ++ (if l then [] else [{ step := (s + tDt : Nat), gate := 2 * i + 1, on := true }]) ++ gateEdges tDt i r false true

/-- Where cycle `i` of a period starts, in fine steps from its reference tick, which is taken at B_k (R375, log entry 197). -/
def cycleStart (tc nc i : Nat) : Nat := (rneDiv (i * (nNom tc * 64) : Nat) nc).toNat

/-- An edge as it is placed (R374) in a cycle that starts `o` fine steps after the reference tick: a coarse group rounds it half to
even to a whole tick. -/
def GateEdge.place (e : GateEdge) (coarse : Bool) (o : Nat) : GateEdge :=
  if coarse then { e with step := 64 * rneDiv (o + e.step) 64 - o } else e

/-- The edges of a group's cycle that starts `o` fine steps after the reference tick, by phase. -/
def PwmGroup.cycleEdges (g : PwmGroup) (c : ConfigPwmGroup) (o : Nat) (new : List PwmPhase) : List GateEdge :=
  ((List.zip g.phases new).zipIdx.flatMap (fun e =>
    gateEdges c.tDt.toNat e.2 (e.1.1.levels e.1.2 c) (g.gates.getLsbD (2 * e.2)) (g.gates.getLsbD (2 * e.2 + 1)))).map
    (fun e => e.place g.coarse o)

/-- The gates of phases at rest at the end of a cycle (R377). -/
def phaseGates (l : List PwmPhase) : BitVec 6 :=
  BitVec.ofNat 6 ((l.zipIdx).foldl (fun a e => a + (if e.1.high then 1 else 2) * 4 ^ e.2) 0)

/-- A notice of this chapter (R388). -/
def Dev.pwmNotice (d : Dev) (t code i : Nat) (brake journalled : Bool) : Dev :=
  d.notice 7 0 t (BitVec.ofNat 16 (0x0B00 + code)) (BitVec.ofNat 32 (i + 256 * bit brake)) journalled

/-- A group changed by a function. -/
def Dev.onGroup (d : Dev) (g : Nat) (f : PwmGroup → PwmGroup) : Dev :=
  d.onPwm (fun p => { p with groups := upd p.groups g f })

/-- The levels of a group's gates at an instant: those before its edges, with each edge that has come (R377). -/
def PwmGroup.gatesAt (g : PwmGroup) (t : Nat) : BitVec 6 :=
  if g.edges.isEmpty then g.gates
  else g.edges.foldl (fun a e => if (g.edgesAt : Int) + e.step ≤ (25 * t : Nat) then setBit a e.gate e.on else a) g.before

/-- The next cycle of a group may open at an instant (R375): it has one left in the period, and its start has come. -/
def Dev.cycleDue (d : Dev) (t g : Nat) (c : ConfigPwmGroup) : Bool :=
  let i := (look d.pwm.groups g).cyc
  decide (i < c.nC.toNat) && decide (25 * d.bk + cycleStart d.time.tc c.nC.toNat i ≤ 25 * t + 24)

/-- The pins of a group are read back (R384). -/
def Dev.readBack (d : Dev) (t g : Nat) (pins : BitVec 6) : Dev :=
  if pins = (look d.pwm.groups g).gatesAt t then d else (d.faultEvent 6 g t).pwmNotice t 0x13 g false false

/-- The pins of a group are read back, at a cycle start or after an edge; where a carrier cycle opens, a driven group runs it (R375,
R376, R382, R384). -/
def Dev.carrier (d : Dev) (t g : Nat) (pins : BitVec 6) : Dev :=
  let x := look d.pwm.groups g
  match x.cfg with
  | none => d
  | some c =>
    if d.isRetired 6 g then d
    else
      let d1 := d.readBack t g pins
      if !d.cycleDue t g c then d1
      else
      let o := cycleStart d.time.tc c.nC.toNat x.cyc
      let d1 := d1.onGroup g (fun y => { y with cyc := y.cyc + 1 })
      if x.driven then
        let l := x.phases.map (fun p => p.cycle c (finePeriod d.time.tc c.nC.toNat))
        d1.onGroup g (fun y => { y with phases := l, gates := phaseGates l, before := y.gates, edgesAt := 25 * d.bk + o,
                                        edges := y.cycleEdges c o l })
      else d1

/-- The carriers start again with their first cycle at a boundary (R375, R380). -/
def Dev.openCarriers (d : Dev) : Dev := d.onPwm (fun p => { p with groups := mapTab (fun _ g => { g with cyc := 0 }) p.groups })

/-- PWM_CARRIER_CYCLE (R376). -/
def execPwmCarrierCycle (t : Nat) (g : Fin 8) (gates : BitVec 6) (s : State) : Host.Outcome State Fault Refusal :=
  s.act (fun d => (d.advance t).carrier t g.val gates)

/-! ### Latching (R380) -/

/-- The latch instant of an update mode: 0 the boundary, 1 mid-period, 2 a quarter point. DIRECT words latch from their
boundary on, and, like all, in RUN, HOLD and TUNE alone. -/
def Dev.latchPwm (d : Dev) (t mode : Nat) : Dev :=
  let one := fun (_ : Nat) (g : PwmGroup) => match g.cfg with
    | some c => if c.update.toNat = mode then g.latch t else g
    | none => g
  if d.power.mode.torque then d.onPwm (fun p => { p with groups := mapTab one p.groups }) else d

/-! ### Trips (R381 to R383) -/

/-- The gates of a group as a trip leaves them: off, or in trip state LOW_ON each low gate on, one that is off t_dt after the fall
(R381) and no earlier than 25 ns after it (R523). -/
def PwmGroup.tripGates (g : PwmGroup) (t tDt : Nat) (low : Bool) : PwmGroup :=
  if low then
    let on := g.gatesAt t &&& lowGates
    { g with before := on, edgesAt := 25 * t, gates := lowGates
             edges := ([1, 3, 5].filter (fun i => !on.getLsbD i)).map (fun i => { step := max tDt 640, gate := i, on := true }) }
  else { g with edges := [], gates := 0 }

/-- A low time of TRIP_N sets the latch: 10 ns always do, under 3 ns never; between them it is free (R381, R523). -/
def Dev.tripSets (d : Dev) (ns : Nat) : Bool := decide (10 ≤ ns) || (decide (3 ≤ ns) && Config.freeBool d.fresh)

/-- TRIP_N of a group falls: low for long enough it sets the latch. A latch that waits for its clear is kept by any fall (R383),
with the new stamp, and TRIP is posted again. -/
def Dev.tripFall (d : Dev) (t g lowNs : Nat) : Dev :=
  let x := look d.pwm.groups g
  let until_ := t + (lowNs * 1024 + 999) / 1000
  let d1 := (d.draw 1).onGroup g (fun y => { y with tripUntil := max y.tripUntil until_ })
  if x.clearAt.isNone ∧ (d.tripSets lowNs = false ∨ x.trip) then d1
  else
    let (state, tDt) := match x.cfg with
      | some c => (c.tripState, c.tDt.toNat)
      | none => (0, 0)
    let low := decide (state = 1) && d.power.mode.torque && !d.isRetired 6 g
    (d1.onGroup g (fun y => { (y.tripGates t tDt low) with
      trip := true, tripAt := t, clearAt := none, driven := false })).pwmNotice t 0x10 g false true

/-- TRIP_N_FALL (R381). -/
def execTripNFall (t : Nat) (g : Fin 8) (lowNs : Nat) (s : State) : Host.Outcome State Fault Refusal :=
  s.act (fun d => (d.advance t).tripFall t g.val lowNs)

/-- The joint slot that a group's current slot serves returns to AUTO with the preset of R183 (R382). -/
def Dev.presetJoint (d : Dev) (g : Nat) : Dev :=
  match (look d.loop.currents g).cfg with
  | some c => d.onLoop (fun l => { l with joints := upd l.joints c.joint.toNat (fun s => { s with manual := false, preset := true }) })
  | none => d

/-- The trip latches whose clear has come clear at a boundary: the phases restart with c = 0 (R376, R382, R383). -/
def Dev.clearTrips (d : Dev) (b : Nat) : Dev :=
  (List.range 8).foldl (fun d g =>
    let x := look d.pwm.groups g
    match x.clearAt with
    | some e =>
      if b < e then d
      else
        ((d.presetJoint g).onGroup g (fun y =>
          let z : PwmGroup := { y with trip := false, clearAt := none, phases := y.phases.map (fun p => { p with c := 0 }) }
          if d.power.mode.torque then z.start (d.isRetired 6 g) else z)).pwmNotice b 0x11 g false true
    | none => d) d

/-! ### Calibration (R374) -/

/-- How far a measured span lies from one cycle, in 1/16 tap. -/
def spanOff (span : BitVec 16) : Nat := (span.toNat - 0x400) + (0x400 - span.toNat)

/-- The span was off by more than 2 taps for 1,024 comparisons. -/
def Dev.coarseSet (d : Dev) (t g : Nat) (span : BitVec 16) : Dev :=
  let x := look d.pwm.groups g
  if 32 < spanOff span then
    let d1 := d.onGroup g (fun y => { y with span := span, coarse := true })
    if x.coarse then d1 else (d1.faultEvent 6 g t).pwmNotice t 0x12 g false true
  else d

/-- The span was within one tap for 1,024 comparisons. -/
def Dev.coarseClear (d : Dev) (g : Nat) (span : BitVec 16) : Dev :=
  if spanOff span ≤ 16 then d.onGroup g (fun y => { y with span := span, coarse := false }) else d

/-- PWM_COARSE (R374). -/
def execPwmCoarse (t : Nat) (g : Fin 8) (span : BitVec 16) (s : State) : Host.Outcome State Fault Refusal :=
  s.act (fun d => (d.advance t).coarseSet t g.val span)

/-- PWM_COARSE_CLEAR (R374). -/
def execPwmCoarseClear (t : Nat) (g : Fin 8) (span : BitVec 16) (s : State) : Host.Outcome State Fault Refusal :=
  s.act (fun d => (d.advance t).coarseClear g.val span)

/-! ### Commands (R389 to R395) -/

/-- The limits of a group that depend on the control period (R375, R390). -/
def pwmFits (p : ConfigPwmGroup) (tc : Nat) : Bool :=
  let n := nNom tc * 64
  let nc := p.nC.toNat
  let pf := n / nc
  let thr := p.tDt.toNat + p.tMin.toNat
  decide (n % nc = 0) && decide (2 * thr ≤ pf)
    && (if p.nRef = 0 then p.tRf == 0 else decide (thr ≤ p.tRf.toNat) && decide (2 * p.tRf.toNat ≤ pf))

/-- CONFIG_PWM_GROUP (R390). -/
def semConfigPwmGroup (h : Hdr) (p : ConfigPwmGroup) : Sem where
  op := 0x0B40
  lenOk := h.length = 24
  modes := [.ready]
  range := fun d => within 0 7 p.group && within 0 2 p.source && within 0 2 p.update && within 0 1 p.tripState
    && within 1 64 p.nC && p.reserved0 == 0 && p.reserved1 == 0 && within 0 51200 p.tDt && within 0 25600 p.tMin
    && (p.source != 2 || p.update == 2) && (p.update != 1 || p.nC.toNat % 2 == 0) && (p.update != 2 || p.nC.toNat % 4 == 0)
    && pwmFits p d.time.tc
  cond := fun d => firstFail
    [(p.source == 0 || !d.domOff 8, .range),
     (p.source != 2 || (look d.loopView.currents p.group.toNat).cfg.isSome, .range),
     (!d.isArbiter && !d.isRetired 6 p.group.toNat, .retired)]
  eff := fun d => (d.await h.stamp (.configPwmGroup h p), some (.ok, []))

/-- CONFIG_PWM_GROUP at its boundary: the carrier restarts, with c = 0 where the group was off or n_c has changed (R376, R380). -/
def Dev.applyConfigPwm (d : Dev) (p : ConfigPwmGroup) : Dev :=
  d.onGroup p.group.toNat (fun y => { y with
    cfg := if p.source = 0 then none else some p
    phases := y.phases.map (fun x => { d := x.d, next := x.next, count := p.nRef.toNat
                                       c := if y.cfg.any (fun q => q.nC == p.nC) then x.c else 0 }) })

/-- A change of Tc at CT_0: a group whose limits fail is disabled, and posts CONFIG_INVALID (R375). -/
def Dev.recheckPwm (d : Dev) (b : Nat) : Dev :=
  (List.range 8).foldl (fun d g => match (look d.pwm.groups g).cfg with
    | some c => if pwmFits c d.time.tc then d
        else (d.onGroup g (fun y => { y with cfg := none, driven := false, edges := [], gates := 0 })).pwmNotice b 0x15 g false true
    | none => d) d

/-- A group's configuration once every accepted command has taken effect. -/
def Dev.pwmView (d : Dev) (g : Nat) : Option ConfigPwmGroup :=
  d.waiting.foldl (fun acc w => match w.cmd with
    | .configPwmGroup _ p => if p.group.toNat = g then (if p.source = 0 then none else some p) else acc
    | _ => acc) (look d.pwm.groups g).cfg

/-- SET_PWM_DUTY (R380, R391). -/
def semSetPwmDuty (h : Hdr) (p : SetPwmDuty) : Sem where
  op := 0x0B41
  lenOk := h.length = 12
  modes := [.ready, .run, .hold, .tune]
  range := fun _ => within 0 7 p.group && p.reserved0 == 0 && p.reserved1 == 0
  cond := fun d => firstFail [(!d.isArbiter, .retired), (match d.pwmView p.group.toNat with
    | some c => c.source == 1
    | none => false, .range)]
  eff := fun d => (d.onGroup p.group.toNat (fun y => { y with
    waits := y.waits.filter (fun w => decide (w.1 < d.effectAt h.stamp)) ++ [(d.effectAt h.stamp, [p.dU, p.dV, p.dW])] }),
    some (.ok, []))

/-- CLEAR_TRIP (R383, R392): refused as a whole while TRIP_N of a named group is low. -/
def semClearTrip (h : Hdr) (p : ClearTrip) : Sem where
  op := 0x0B42
  lenOk := h.length = 4
  modes := [.commission, .ready, .run, .tune, .hold, .safeOff]
  range := fun _ => p.groups != 0 && p.reserved == 0
  cond := fun d => firstFail [(!d.isArbiter, .retired),
    ((List.range 8).all (fun g => !p.groups.getLsbD g || decide ((look d.pwm.groups g).tripUntil ≤ h.stamp)), .tripActive)]
  eff := fun d =>
    let e := d.effectAt h.stamp
    (d.onPwm (fun y => { y with groups := mapTab (fun g x =>
      if p.groups.getLsbD g ∧ x.trip then { x with clearAt := some (x.clearAt.elim e (min e)) } else x) y.groups }), some (.ok, []))

/-- GET_PWM_STATE (R393). -/
def semGetPwmState (h : Hdr) (p : GetPwmState) : Sem where
  op := 0x0B43
  lenOk := h.length = 4
  link := .both
  range := fun _ => within 0 7 p.group && p.reserved == 0
  cond := fun d => firstFail [(!d.isArbiter, .retired)]
  eff := fun d =>
    let g := p.group.toNat
    let x := look d.pwm.groups g
    (d, some (.ok,
      leBytes 1 (bit x.cfg.isSome + 2 * bit x.trip + 4 * bit (decide (h.stamp < x.tripUntil)) + 8 * bit x.coarse
        + 16 * bit (d.isRetired 6 g)) ++ [0, 0, 0] ++ leBytes 8 x.tripAt
      ++ x.phases.flatMap (fun y => wordBytes y.d) ++ [0, 0] ++ x.phases.flatMap (fun y => intBytes 4 y.c)
      ++ x.phases.flatMap (fun y => leBytes 1 y.count) ++ [0] ++ wordBytes x.span ++ [0, 0]
      ++ wordBytes (d.chan (chanId 6 g)).events))

/-- CONFIG_BRAKE (R394). -/
def semConfigBrake (h : Hdr) (p : ConfigBrake) : Sem where
  op := 0x0B50
  lenOk := h.length = 16
  modes := [.ready]
  range := fun _ => within 0 15 p.brake && (p.joint == 0xFF || within 0 127 p.joint) && within 0 1 p.fbPol
    && p.reserved0 == 0 && p.reserved1 == 0 && within 10 2000 p.tPull && p.hold != 0 && within 4000 400000 p.holdPeriod
    && within 1 1000 p.tFb
  cond := fun d => firstFail
    [(!d.isArbiter, .retired), (p.joint == 0xFF || !d.domOff 8, .range),
     (p.joint == 0xFF || (List.range 16).any (fun a => decide (p.joint.toNat ∈ armJoints (d.armView a))), .range)]
  eff := fun d => (d.await h.stamp (.configBrake h p), some (.ok, []))

/-- CONFIG_BRAKE at its boundary. -/
def Dev.applyConfigBrake (d : Dev) (p : ConfigBrake) : Dev :=
  d.onPwm (fun y => { y with brakes := upd y.brakes p.brake.toNat (fun b =>
    { cfg := if p.joint = 0xFF then none else some p, since := b.since, cmdAt := b.cmdAt, fb := b.fb, fbAt := b.fbAt }) })

/-- The code of a brake state (R395). -/
def BrakePhase.code : BrakePhase → Nat
  | .applied => 0 | .pullIn => 1 | .hold => 2

/-- The accepted feedback of a brake reads released (R386). -/
def Brake.fbReleased (b : Brake) : Bool :=
  match b.cfg with
  | some c => b.fb == decide (c.fbPol = 1)
  | none => b.fb

/-- GET_BRAKE_STATE (R395). -/
def semGetBrakeState (h : Hdr) (p : GetBrakeState) : Sem where
  op := 0x0B51
  lenOk := h.length = 4
  link := .both
  range := fun _ => within 0 15 p.brake && p.reserved == 0
  cond := fun d => firstFail [(!d.isArbiter, .retired)]
  eff := fun d =>
    let b := look d.pwm.brakes p.brake.toNat
    (d, some (.ok, leBytes 1 b.phase.code ++ leBytes 1 (bit b.fbReleased)
      ++ leBytes 1 (bit b.relB + 2 * bit b.late + 4 * bit b.dropped) ++ [0] ++ leBytes 8 b.since ++ leBytes 8 b.fbAt))

def execConfigPwmGroup (h : Hdr) (p : ConfigPwmGroup) (s : State) : Host.Outcome State Fault Refusal :=
  s.act (runCmd (semConfigPwmGroup h p) h)

def execSetPwmDuty (h : Hdr) (p : SetPwmDuty) (s : State) : Host.Outcome State Fault Refusal :=
  s.act (runCmd (semSetPwmDuty h p) h)

def execClearTrip (h : Hdr) (p : ClearTrip) (s : State) : Host.Outcome State Fault Refusal :=
  s.act (runCmd (semClearTrip h p) h)

def execGetPwmState (h : Hdr) (p : GetPwmState) (s : State) : Host.Outcome State Fault Refusal :=
  s.act (runCmd (semGetPwmState h p) h)

def execConfigBrake (h : Hdr) (p : ConfigBrake) (s : State) : Host.Outcome State Fault Refusal :=
  s.act (runCmd (semConfigBrake h p) h)

def execGetBrakeState (h : Hdr) (p : GetBrakeState) (s : State) : Host.Outcome State Fault Refusal :=
  s.act (runCmd (semGetBrakeState h p) h)

/-! ### Brake outputs (R385, R386) -/

/-- HOLD follows PULL_IN at the first tick after t_pull. -/
def Dev.pullInEnd (d : Dev) (t b : Nat) : Dev :=
  let x := look d.pwm.brakes b
  match x.cfg with
  | some c =>
    if x.phase = .pullIn ∧ x.since + c.tPull.toNat * 1024000 ≤ t then
      d.onPwm (fun y => { y with brakes := put y.brakes b { x with phase := .hold, since := t } })
    else d
  | none => d

/-- BRAKE_PULL_IN_END (R385). -/
def execBrakePullInEnd (t : Nat) (b : Fin 16) (s : State) : Host.Outcome State Fault Refusal :=
  s.act (fun d => (d.advance t).pullInEnd t b.val)

/-- A BRK_FB level is accepted (R386); one that reports released ends what a late release latched (R467). -/
def Dev.brakeFb (d : Dev) (t b : Nat) (level : Bool) : Dev :=
  let d1 := d.onPwm (fun y => { y with brakes := upd y.brakes b (fun x => if x.fb = level then x else { x with fb := level, fbAt := t }) })
  if (look d1.pwm.brakes b).fbReleased then
    (d1.onSafety (fun s => { s with brakeRel := setBit s.brakeRel b false })).sweep t
  else d1

/-- BRK_FB_CHANGE (R386). -/
def execBrkFbChange (t : Nat) (b : Fin 16) (level : Bool) (s : State) : Host.Outcome State Fault Refusal :=
  s.act (fun d => (d.advance t).brakeFb t b.val level)

end Sys2Proof.Machine
end

