-- ==== Sys2Proof/Machine/Skimmer.lean ====
section
/-! DEFINITION. The skimmer (spec/16_skimmer.md): the store, arming, the end of a capture, the XTRG lines, and the commands
of class 0x0A. What it takes in stands in Machine/Capture.lean. -/

namespace Sys2Proof.Machine

/-! ### The store (R357, R361) -/

/-- A record is written to the store; in POST the TRIGGER record and those after it count towards the post limit. -/
def Skim.put1 (k : Skim) (r : SkimRec) : Skim :=
  let before := k.queue.any SkimRec.isTrigger
  { k with store := put k.store k.wi r, wi := (k.wi + 1) % skimSize, stored := k.stored + 1,
           postLeft := if k.phase = .post ∧ !before then k.postLeft - 1 else k.postLeft }

/-- The capture is complete: HELD, the ARM line released, and notice CAPTURE_DONE (R360, R365, R370). -/
def Dev.holdCapture (d : Dev) (t : Nat) : Dev :=
  let last := BitVec.ofNat 32 ((d.skim.wi + skimSize - 1) % skimSize)
  (d.onSkim (fun k => { k with phase := .held, queue := [], lastIdx := last, doneAt := t, armOut := false })).notice 10 0 t
    0x0A02 last false

/-- The intake queue drains one record; the capture ends at the post limit; and where records were lost, the room goes to
one GAP record (R357). -/
def Dev.skimDrain (d : Dev) (t : Nat) : Dev :=
  match d.skim.queue with
  | [] => d
  | r :: q =>
    let d1 := d.onSkim (fun k => ({ k with queue := q }).put1 r)
    if d1.skim.phase = .post ∧ d1.skim.postLeft = 0 then d1.holdCapture t
    else if d1.skim.lostRun = 0 then d1
    else
      let n := d1.skim.lostRun
      let gap : SkimRec := { ct := d1.skim.lostAt, chan := 0xFF00, flags := 2, value := BitVec.ofNat 32 n }
      let d2 := d1.onSkim (fun k => { k with queue := k.queue ++ [gap], lostRun := 0, gapSaid := true })
      if d1.skim.gapSaid then d2 else d2.notice 10 0 t 0x0A04 (BitVec.ofNat 32 n) false

/-- The intake queue drains while the capture is in POST. -/
def Dev.skimDrainAll (t : Nat) : Nat → Dev → Dev
  | 0, d => d
  | n + 1, d => if d.skim.phase = .post ∧ d.skim.queue ≠ [] then Dev.skimDrainAll t n (d.skimDrain t) else d

/-- The skimmer runs: its domain is on, and the mode is none in which it is off (R369). -/
def Dev.skimOn (d : Dev) : Bool :=
  !d.power.offMask.getLsbD 11 && decide (d.power.mode ≠ .dormant) && decide (d.power.mode ≠ .boot)

/-- The skimmer arms (R360, R364, R365): write index 0, nothing stored, and the counts since arming at zero; a MASTER
pulls the ARM line low. -/
def Dev.armSkim (d : Dev) : Dev :=
  d.onSkim (fun k => { k with
    phase := .armed, wi := 0, stored := 0, queue := [], lostRun := 0, lost := 0, gapSaid := false, mask := 0
    first := 0, trigIdx := 0, lastIdx := 0, preAct := 0, missed := 0, trigAt := 0, doneAt := 0
    armOut := decide (k.cap.role = 1)
    chans := mapTab (fun _ c => { c with last := none, prev := none, first := true }) k.chans })

/-- ARM at its boundary. -/
def Dev.applyArm (d : Dev) : Dev :=
  if d.skim.phase = .armed ∨ d.skim.phase = .post then d else d.armSkim

/-- The missed triggers of the period that ends: one notice, journalled with the stamp of the first (R364). -/
def Dev.missedTriggers (d : Dev) : Dev :=
  if d.skim.missNow = 0 then d
  else
    let n := BitVec.ofNat 32 d.skim.missNow
    (d.onSkim (fun k => { k with missNow := 0 })).notice 10 0 d.skim.missAt 0x0A03 n true

/-! ### Commands (R371, R372) -/

/-- A LOOP source names a slot and a variable that go together (R356). -/
def loopSource (v : BitVec 16) : Bool :=
  let idx := v.toNat % 256
  let kind := v.toNat / 256 % 4
  let var := v.toNat / 1024 % 16
  decide (v.toNat < 0x4000) &&
    ((kind == 0 && decide (idx < 128) && decide (var ≤ 6)) || (kind == 1 && decide (idx < 16) && decide (var ≤ 6))
      || (kind == 2 && decide (idx < 8) && (var == 7 || var == 8)))

/-- The fields of CONFIG_CHANNEL are in range (R352 to R356, R372). -/
def channelFits (p : ConfigChannel) : Bool :=
  p.reserved == 0 && within 0 4 p.kind && p.flags &&& 0xFE == 0 && (p.kind == 4 || p.flags == 0)
    && (p.kind == 1 || p.glitch == 0)
    && (if p.kind = 2 then decide (p.lo.toInt < p.hi.toInt) else p.lo == 0 && p.hi == 0)
    && (if p.kind = 1 then within 0 0xA3 p.source else if p.kind = 2 then within 0 23 p.source
        else if p.kind = 3 then internalCode p.source.toNat else if p.kind = 4 then loopSource p.source else true)

/-- A configuration command is refused in ARMED and POST (R371). -/
def Dev.skimBusy (d : Dev) : Bool := decide (d.skim.phase = .armed) || decide (d.skim.phase = .post)

/-- CONFIG_CHANNEL. -/
def semConfigChannel (h : Hdr) (p : ConfigChannel) : Sem where
  op := 0x0A00
  lenOk := h.length = 16
  link := .write 820 true true
  range := fun _ => channelFits p
  cond := fun d => firstFail [(!d.isArbiter, .retired), (!d.skimBusy, .busy),
    ((look d.skim.chans p.channel.toNat).bound.isNone, .range), (p.kind == 0 || !d.domOff 11, .range)]
  eff := fun d => (d.onSkim (fun k => { k with
    chans := put k.chans p.channel.toNat (if p.kind = 0 then {} else { cfg := p }) }), some (.ok, []))

/-- CONFIG_CAPTURE. -/
def semConfigCapture (h : Hdr) (p : ConfigCapture) : Sem where
  op := 0x0A01
  lenOk := h.length = 16
  link := .write 820 true true
  range := fun _ => within 0 131071 p.pre && within 0 2 p.role && within 0 3 p.armLine && within 0 3 p.fireLine
    && p.fireLine != p.armLine && within 0 1 p.fireOut && p.reserved == 0
  cond := fun d => firstFail [(!d.isArbiter, .retired), (!d.skimBusy, .busy)]
  eff := fun d => (d.onSkim (fun k => { k with cap := p }), some (.ok, []))

/-- SET_TRIGGERS. -/
def semSetTriggers (h : Hdr) (p : SetTriggers) : Sem where
  op := 0x0A02
  lenOk := h.length = 52
  link := .write 820 true true
  range := fun _ => p.enable &&& 0xC0 == 0 && p.reserved == 0
    && (List.range 4).all (fun i => decide ((p.conds.getD (3 * i) 0).toNat < 0x800))
  cond := fun d => firstFail [(!d.isArbiter, .retired), (!d.skimBusy, .busy)]
  eff := fun d => (d.onSkim (fun k => { k with trig := p }), some (.ok, []))

/-- ARM (R360): from HELD the state is REARM until the boundary. -/
def semArm (h : Hdr) : Sem where
  op := 0x0A10
  lenOk := h.length = 0
  link := .write 820 true true
  cond := fun d => firstFail [(!d.isArbiter, .retired), (!d.skimBusy && d.skim.cap.role != 2, .busy),
    (d.skim.chans.any (fun e => e.2.now.kind != 0), .range)]
  eff := fun d => ((d.onSkim (fun k => { k with phase := if k.phase = .held then .rearm else k.phase })).await h.stamp
    (.arm h), some (.ok, []))

/-- A capture is cut short: what was taken in is stored, and its last record says CUT (R359, R371). -/
def Dev.cutCapture (d : Dev) (t : Nat) : Dev :=
  let d1 := Dev.skimDrainAll t 512 d
  if d1.skim.phase = .post then
    let last := (d1.skim.wi + skimSize - 1) % skimSize
    (d1.onSkim (fun k => { k with store := upd k.store last (fun r => { r with flags := r.flags ||| 0x40 }) })).holdCapture t
  else d1

/-- DISARM: from ARMED to IDLE; a capture in POST ends at once; a MASTER releases the ARM line. -/
def semDisarm (h : Hdr) : Sem where
  op := 0x0A11
  lenOk := h.length = 0
  link := .write 820 true true
  cond := fun d => firstFail [(!d.isArbiter, .retired)]
  eff := fun d =>
    let d1 := if d.skim.phase = .armed then d.onSkim (fun k => { k with phase := .idle, queue := [], armOut := false })
      else if d.skim.phase = .post then d.cutCapture h.stamp else d
    (d1, some (.ok, []))

/-- FORCE_TRIGGER: replies with what became of it; one that joins a trigger of its F300 cycle is accepted with it (R362). -/
def semForceTrigger (h : Hdr) : Sem where
  op := 0x0A12
  lenOk := h.length = 0
  link := .write 820 true true
  cond := fun d => firstFail [(!d.isArbiter, .retired)]
  eff := fun d =>
    let out : Nat := match d.skim.phase with
      | .armed => 0 | .idle => 1 | .post => if d.joins then 0 else 3 | _ => 2
    (d.skimTrigger h.stamp 64, some (.ok, leBytes 1 out))

/-- The code of a capture state (R360). -/
def CapPhase.code : CapPhase → Nat
  | .idle => 0 | .armed => 1 | .post => 2 | .held => 3 | .rearm => 4

/-- GET_CAPTURE_STATE. -/
def semGetCaptureState (h : Hdr) : Sem where
  op := 0x0A20
  lenOk := h.length = 0
  link := .both
  cond := fun d => firstFail [(!d.isArbiter, .retired)]
  eff := fun d =>
    let k := d.skim
    (d, some (.ok, leBytes 1 k.phase.code ++ wordBytes k.mask ++ [0, 0] ++ wordBytes k.first ++ wordBytes k.trigIdx
      ++ wordBytes k.lastIdx ++ wordBytes k.preAct ++ wordBytes k.lost ++ wordBytes k.missed ++ leBytes 8 k.trigAt
      ++ leBytes 8 k.doneAt))

def execConfigChannel (h : Hdr) (p : ConfigChannel) (s : State) : Host.Outcome State Fault Refusal :=
  s.act (runCmd (semConfigChannel h p) h)

def execConfigCapture (h : Hdr) (p : ConfigCapture) (s : State) : Host.Outcome State Fault Refusal :=
  s.act (runCmd (semConfigCapture h p) h)

def execSetTriggers (h : Hdr) (p : SetTriggers) (s : State) : Host.Outcome State Fault Refusal :=
  s.act (runCmd (semSetTriggers h p) h)

def execArm (h : Hdr) (s : State) : Host.Outcome State Fault Refusal := s.act (runCmd (semArm h) h)

def execDisarm (h : Hdr) (s : State) : Host.Outcome State Fault Refusal := s.act (runCmd (semDisarm h) h)

def execForceTrigger (h : Hdr) (s : State) : Host.Outcome State Fault Refusal := s.act (runCmd (semForceTrigger h) h)

def execGetCaptureState (h : Hdr) (s : State) : Host.Outcome State Fault Refusal :=
  s.act (runCmd (semGetCaptureState h) h)

/-! ### Events -/

/-- The pin of a PIN channel has been at a level since an instant: a record where the filter accepts the level and it is not the
filtered one already (R352). A level of an XTRG line also says whether something outside pulls the line (R41). -/
def Dev.pinChange (d : Dev) (t ch : Nat) (x : PinEdge) : Dev :=
  let c := look d.skim.chans ch
  let src := c.now.source.toNat
  let since := min x.since t
  if c.now.kind ≠ 1 then d
  else
    let d1 := if 0x88 ≤ src ∧ src < 0x8C ∧ !d.skim.pulls (BitVec.ofNat 8 (src - 0x88))
      then d.onSkim (fun k => k.pull (BitVec.ofNat 8 (src - 0x88)) !x.level) else d
    if c.level = some x.level ∨ f300Cycle t - f300Cycle since < c.now.glitch.toNat then d1
    else (d1.onSkim (fun k => { k with chans := upd k.chans ch (fun c =>
      { c with level := some x.level, raw := some x.level, rawAt := since }) })).skimData since ch (BitVec.ofNat 32 (bit x.level)) 0

/-- PIN_CHANNEL_CHANGE (R352). -/
def execPinChannelChange (t : Nat) (ch : Fin 256) (level : PinEdge) (s : State) : Host.Outcome State Fault Refusal :=
  s.act (fun d => (d.advance t).pinChange t ch.val level)

/-- A filter word of an ANALOG channel: a record where the threshold state changes, and at the first word after arming
(R354). -/
def Dev.analogWord (d : Dev) (t ch : Nat) (word : BitVec 32) : Dev :=
  let c := look d.skim.chans ch
  if c.now.kind ≠ 2 then d
  else
    let above := if c.now.hi.toInt < word.toInt then true else if word.toInt < c.now.lo.toInt then false else c.above
    let d1 := d.onSkim (fun k => { k with chans := upd k.chans ch (fun x => { x with above := above }) })
    if c.first ∨ above ≠ c.above then d1.skimData t ch word (8 * bit above) else d1

/-- ANALOG_THRESHOLD_CHANGE (R354). -/
def execAnalogThresholdChange (t : Nat) (ch : Fin 256) (word : BitVec 32) (s : State) : Host.Outcome State Fault Refusal :=
  s.act (fun d => (d.advance t).analogWord t ch.val word)

/-- SKIM_RECORD_STORE (R357). -/
def execSkimRecordStore (t : Nat) (s : State) : Host.Outcome State Fault Refusal :=
  s.act (fun d => (d.advance t).skimDrain t)

/-- POST ends when the post time has passed since the trigger stamp (R361). -/
def Dev.postExpiry (d : Dev) (t : Nat) : Dev :=
  let p := d.skim.cap.postTime.toNat
  if d.skim.phase = .post ∧ p ≠ 0 ∧ d.skim.trigAt + p ≤ t then
    let d1 := Dev.skimDrainAll t 512 d
    if d1.skim.phase = .post then d1.holdCapture t else d1
  else d

/-- POST_TIME_EXPIRY (R361). -/
def execPostTimeExpiry (t : Nat) (s : State) : Host.Outcome State Fault Refusal :=
  s.act (fun d => (d.advance t).postExpiry t)

/-- The ARM line falls: a MEMBER in IDLE or HELD arms (R365). The row is the edge: whatever pulled the line before has let it go
since; while the device itself pulls it low there is none. -/
def Dev.armFall (d : Dev) : Dev :=
  let k := d.skim
  let d1 := d.onSkim (fun k => k.pull k.cap.armLine true)
  if !k.pulls k.cap.armLine ∧ k.cap.role = 2 ∧ (k.phase = .idle ∨ k.phase = .held) ∧ d.skimOn then d1.armSkim else d1

/-- ARM_LINE_FALL (R365). -/
def execArmLineFall (t : Nat) (s : State) : Host.Outcome State Fault Refusal := s.act (fun d => (d.advance t).armFall)

/-- The ARM line rises: an armed MEMBER returns to IDLE (R365, R370). -/
def Dev.armRise (d : Dev) (t : Nat) : Dev :=
  let k := d.skim
  let d1 := d.onSkim (fun k => k.pull k.cap.armLine false)
  if !k.pulls k.cap.armLine ∧ k.cap.role = 2 ∧ k.phase = .armed then
    (d1.onSkim (fun k => { k with phase := .idle, queue := [] })).notice 10 0 t 0x0A05 0 false
  else d1

/-- ARM_LINE_RISE (R365). -/
def execArmLineRise (t : Nat) (s : State) : Host.Outcome State Fault Refusal := s.act (fun d => (d.advance t).armRise t)

/-- The fire line falls: a trigger of a MASTER or MEMBER where it is enabled (R362, R365). While the device itself holds the line
low, a further pulse makes no edge (R366). -/
def Dev.fireFall (d : Dev) (t : Nat) : Dev :=
  let d1 := d.onSkim (fun k => k.pull k.cap.fireLine true)
  if d.skim.cap.role ≠ 0 ∧ !d.skim.pulls d.skim.cap.fireLine ∧ d.skim.trig.enable.getLsbD 4 then d1.skimTrigger t 16 else d1

/-- FIRE_LINE_FALL (R362). -/
def execFireLineFall (t : Nat) (s : State) : Host.Outcome State Fault Refusal := s.act (fun d => (d.advance t).fireFall t)

/-- The device releases the fire line 1 µs after it pulled it low (R366). No row tells the end of an outside pull
of the fire line; PIN_CHANNEL_CHANGE of the line's code shows it (DESIGN CHOICE, log entry 182). -/
def Dev.firePulseEnd (d : Dev) (t : Nat) : Dev :=
  if d.skim.fireOut ∧ d.skim.fireAt + 1024 ≤ t then d.onSkim (fun k => { k with fireOut := false }) else d

/-- FIRE_PULSE_END (R366). -/
def execFirePulseEnd (t : Nat) (s : State) : Host.Outcome State Fault Refusal :=
  s.act (fun d => (d.advance t).firePulseEnd t)

end Sys2Proof.Machine
end

