-- ==== Sys2Proof/Machine/SafetySet.lean ====
section
/-! DEFINITION. The safety parameter set (spec/21_safety_functions.md, R486, R489, R493; spec/12_pans_separation.md, R258 to
R267, R274, R282, R283): its items, the canonical image and check value, the content checks, and the commands that change
the candidate set. -/

namespace Sys2Proof.Machine

/-! ### Items (R486) -/

/-- The key of an item in the tables of the set. -/
def itemKey (op key : Nat) : Nat := op * 65536 + key

/-- The bytes of an item of a set; none where the item is absent. -/
def SafetySet.get (s : SafetySet) (op key : Nat) : List Byte := look s (itemKey op key)

/-- The items of an opcode, as keys and bytes, in ascending order. -/
def SafetySet.of (s : SafetySet) (op : Nat) : List (Nat × List Byte) :=
  (s.filter (fun e => decide (e.1 / 65536 = op))).map (fun e => (e.1 % 65536, e.2))

/-- The island's own check value of its copy. -/
def SafetySet.islandValue (s : SafetySet) : BitVec 32 := Config.islandCheck (s.flatMap (fun e => leBytes 4 e.1 ++ e.2))

/-- The island's copy passes its check (R274). -/
def Dev.islandCopyOk (d : Dev) : Bool := decide (d.sep.islCheck = d.sep.isl.islandValue)

/-- The island's own copy of a committed set: safety kinematics and protective parameter sets, with its own check value (R274). -/
def Dev.copyToIsland (d : Dev) : Dev :=
  let own : SafetySet := d.safety.committed.filter (fun e => decide (e.1 / 65536 = 0x0602 ∨ e.1 / 65536 = 0x0603))
  { d with sep := { d.sep with isl := own, islCheck := own.islandValue } }

/-- The candidate set with an item replaced whole, or absent where there are no bytes. -/
def Dev.putItem (d : Dev) (op key : Nat) (b : List Byte) : Dev :=
  d.onSafety (fun s => { s with candidate := put s.candidate (itemKey op key) b })

/-- The check value of a set. -/
def SafetySet.check (s : SafetySet) : BitVec 32 := safetyCrc s.image

/-- How many items differ between two sets. -/
def SafetySet.changed (a b : SafetySet) : Nat :=
  (a.filter (fun e => decide (look b e.1 ≠ e.2))).length + (b.filter (fun e => decide (look a e.1 = []))).length

/-! ### Parameter bytes -/

/-- Bytes of words. -/
def wordsBytes {w : Nat} (l : List (BitVec w)) : List Byte := l.flatMap wordBytes

/-- The parameters of CONFIG_SEPARATION in a payload (R283). -/
def bytesConfigSeparation (p : ConfigSeparation) : List Byte := wordBytes p.inCut ++ wordBytes p.zDisc

def bytesDefinePan (p : DefinePan) : List Byte := [p.pan, p.reserved] ++ wordBytes p.arms

def bytesSetParamSet (p : SetParamSet) : List Byte :=
  [p.set] ++ wordBytes p.reserved0 ++ wordsBytes [p.tLat, p.tS, p.c, p.zD, p.zR, p.zIsl, p.vHMin, p.reserved1]

def bytesSetObjectSource (p : SetObjectSource) : List Byte :=
  [p.object, p.source, p.connection, p.entry] ++ wordBytes p.age ++ wordBytes p.reserved

def bytesSetExport (p : SetExport) : List Byte :=
  [p.conn, p.count] ++ wordBytes p.reserved ++ p.capsules ++ wordsBytes p.pose

def bytesConfigSinPair (p : ConfigSinPair) : List Byte :=
  [p.pair, p.function, p.polarity, p.nF] ++ wordBytes p.tDisc ++ [p.reaction, p.reserved]

def bytesConfigStops (p : ConfigStops) : List Byte :=
  [p.ss1Mode] ++ wordBytes p.reserved ++ wordsBytes [p.tSs1, p.tStopMax, p.vTol, p.sosVel, p.sosPos]

def bytesConfigSls (p : ConfigSls) : List Byte :=
  [p.always, p.reaction] ++ wordBytes p.reserved ++ wordsBytes p.vSls ++ wordsBytes p.cSls

def bytesConfigStoEdm (p : ConfigStoEdm) : List Byte :=
  wordBytes p.tStofb ++ wordBytes p.tTp ++ [p.edmMask, p.edmChan] ++ wordBytes p.tEdm ++ wordBytes p.reserved

def bytesConfigSbc (p : ConfigSbc) : List Byte :=
  wordBytes p.brakes ++ wordBytes p.reserved ++ wordBytes p.tBt ++ wordBytes p.tGrace

def bytesConfigSafetyConn (p : ConfigSafetyConn) : List Byte :=
  [p.conn, p.dir, p.set, p.slot] ++ wordBytes p.connId ++ [p.kind, p.loss] ++ wordBytes p.reserved ++ wordBytes p.tWd
    ++ wordBytes p.tValid

def bytesConfigSsmReaction (p : ConfigSsmReaction) : List Byte := [p.pan, p.reaction, p.restart, p.reserved]

/-! ### Ranges of the separation items (R259 to R263, R274, R283) -/

/-- Member arms of a mask. -/
def maskArms (m : BitVec 16) : List Nat := (List.range 16).filter (fun a => m.getLsbD a)

def rangeConfigSeparation (tc : Nat) (p : ConfigSeparation) : Bool := within 1024 (tc / 2) p.inCut

def rangeDefinePan (p : DefinePan) : Bool :=
  within 0 63 p.pan && p.reserved == 0 && decide ((maskArms p.arms).length ≤ 12)

def rangeSetParamSet (p : SetParamSet) : Bool :=
  within 0 31 p.set && p.reserved0 == 0 && p.reserved1 == 0 && within 1 0x7FFFFFFF p.tS
    && [p.tLat, p.c, p.zD, p.zR, p.zIsl, p.vHMin].all (within 0 0x7FFFFFFF)

/-- A record of safety kinematics is in range (R261): `b` is the record with or without its padding. -/
def kinRecordOk (b : List Byte) : Bool :=
  let j := (rd 8 b 1).toNat
  within 0 15 (rd 8 b 0) && decide (1 ≤ j) && decide (j ≤ 12) && decide ((rd 16 b 2).toNat < 2 ^ j)
    && quatOk (rdSs b 16 4) && decide (32 + 40 * j ≤ b.length)
    && (List.range j).all (fun i => let r := b.drop (32 + 40 * i)
        quatOk (rdSs r 12 4) && decide (-(2 ^ 47) ≤ (rd 64 r 28).toInt) && decide ((rd 64 r 28).toInt < 2 ^ 47)
          && rd 32 r 36 == 0)

/-- The joints of an arm by its safety kinematics; 0 where there is none. -/
def SafetySet.kinJoints (s : SafetySet) (arm : Nat) : Nat := (rd 8 (s.get 0x0603 arm) 1).toNat

/-- A link of an arm: a joint of its safety kinematics, or the base. -/
def SafetySet.link (s : SafetySet) (arm joint : Byte) : Bool :=
  within 0 15 arm && decide (0 < s.kinJoints arm.toNat) && (joint == 0xFF || decide (joint.toNat < s.kinJoints arm.toNat))

/-- A capsule record is in range (R262). -/
def SafetySet.capsuleOk (s : SafetySet) (b : List Byte) : Bool :=
  s.link (rd 8 b 1) (rd 8 b 2) && rd 8 b 3 == 0 && within 1 0x7FFFFFFF (rd 32 b 28)

/-- A sphere record of the island is in range (R274). -/
def SafetySet.sphereOk (s : SafetySet) (b : List Byte) : Bool :=
  s.link (rd 8 b 1) (rd 8 b 2) && rd 8 b 3 == 0 && rd 32 b 20 == 0

/-! ### Pair entries (R266, R267, R274) -/

def pairA (w : BitVec 64) : Nat := w.toNat % 256
def pairB (w : BitVec 64) : Nat := w.toNat / 256 % 256
def pairRobot (w : BitVec 64) : Bool := w.getLsbD 16
def pairMonitor (w : BitVec 64) : Bool := w.getLsbD 17
def pairPlan (w : BitVec 64) : Bool := w.getLsbD 18
def pairPan (w : BitVec 64) : Nat := w.toNat / 2 ^ 24 % 64
def pairPset (w : BitVec 64) : Nat := w.toNat / 2 ^ 32 % 32

/-- The reserved bits of an entry are 0. -/
def pairReserved (w : BitVec 64) : Bool :=
  w.toNat / 2 ^ 19 % 32 == 0 && w.toNat / 2 ^ 30 % 4 == 0 && w.toNat / 2 ^ 37 == 0

/-- An entry takes part. -/
def pairEnabled (w : BitVec 64) : Bool := pairMonitor w || pairPlan w

/-- The member arms of a pan of a set; none where it is undefined. -/
def SafetySet.panArms (s : SafetySet) (pan : Nat) : List Nat := maskArms (parseDefinePan (s.get 0x0601 pan)).arms

/-- The arm of a robot capsule of a set. -/
def SafetySet.capArm (s : SafetySet) (c : Nat) : Option Nat :=
  let b := s.get 0x0604 c
  if b.isEmpty then none else some (rd 8 b 1).toNat

/-- The arm of an island sphere of a set. -/
def SafetySet.sphereArm (s : SafetySet) (i : Nat) : Option Nat :=
  let b := s.get 0x0606 0
  let n := (rd 16 b 0).toNat
  ((chunks 24 n (b.drop 4)).find? (fun r => decide ((rd 8 r 0).toNat = i))).map (fun r => (rd 8 r 1).toNat)

/-- What R267 asks of an entry, by the arms of its members. -/
def SafetySet.pairOk (s : SafetySet) (hints : Nat → Bool) (armOf : Nat → Option Nat) (w : BitVec 64) : Bool :=
  let arms := s.panArms (pairPan w)
  let safe := !(s.get 0x0607 (pairB w)).isEmpty
  let a := armOf (pairA w)
  (match a with
    | some x => arms.contains x
    | none => false)
  && (if pairRobot w then (match armOf (pairB w) with
        | some y => arms.contains y && some y != a
        | none => false)
      else safe || (!pairMonitor w && hints (pairB w)))
  && !(s.get 0x0602 (pairPset w)).isEmpty

/-- An entry of the pair filter table is valid against a set (R267). -/
def SafetySet.entryOk (s : SafetySet) (hints : Nat → Bool) (w : BitVec 64) : Bool :=
  !pairEnabled w || s.pairOk hints s.capArm w

/-- A pair of the island is valid against a set (R274). -/
def SafetySet.islandPairOk (s : SafetySet) (w : BitVec 64) : Bool :=
  pairReserved w && pairMonitor w && !pairPlan w && s.pairOk (fun _ => false) s.sphereArm w

/-- The island's sphere records and pairs of a set. -/
def SafetySet.spheres (s : SafetySet) : List (List Byte) :=
  let b := s.get 0x0606 0
  chunks 24 (rd 16 b 0).toNat (b.drop 4)

def SafetySet.islandPairs (s : SafetySet) : List (BitVec 64) :=
  let b := s.get 0x0606 0
  (chunks 8 (rd 16 b 2).toNat (b.drop (4 + 24 * (rd 16 b 0).toNat))).map (fun r => rd 64 r 0)

/-- The entries of the pair filter table of a set, by index. -/
def SafetySet.pairs (s : SafetySet) : List (Nat × BitVec 64) := (s.of 0x0605).map (fun e => (e.1, rd 64 e.2 0))

/-! ### Ranges of the safety commands (R485, R493) -/

def rangeConfigSinPair (p : ConfigSinPair) : Bool :=
  let r := p.reaction.toNat
  within 0 7 p.pair && within 0 1 p.polarity && within 1 16 p.nF && within 1 500 p.tDisc && p.reserved == 0
    && (match p.function.toNat with
      | 0 => r == 0
      | 1 => r == 1 || r == 2
      | 2 => r == 2 || r == 3
      | 3 => r == 3
      | 4 => r == 0
      | _ => false)

def rangeConfigStops (tc : Nat) (p : ConfigStops) : Bool :=
  within 0 1 p.ss1Mode && p.reserved == 0 && decide (2 * tc ≤ p.tSs1.toNat) && decide (2 * tc ≤ p.tStopMax.toNat)
    && within 0 0x7FFFFFFF p.vTol && within 0 0x7FFFFFFF p.sosVel

def rangeConfigSls (p : ConfigSls) : Bool :=
  within 0 1 p.always && within 1 2 p.reaction && p.reserved == 0 && p.vSls.all (within 0 0x7FFFFFFF)

def rangeConfigStoEdm (p : ConfigStoEdm) : Bool :=
  within 1 100 p.tStofb && within 100 1000 p.tTp && within 10 500 p.tEdm && p.reserved == 0

def rangeConfigSbc (p : ConfigSbc) : Bool := p.reserved == 0 && within 1 8760 p.tBt && within 0 720 p.tGrace

/-- The loss reactions that a kind permits (R485). -/
def lossOk (kind loss : Nat) : Bool :=
  match kind with
  | 1 => loss == 1 || loss == 2
  | 2 => loss == 0 || loss == 2 || loss == 3
  | 3 => loss == 0
  | 4 => loss == 1 || loss == 2 || loss == 3
  | _ => false

/-- CONFIG_SAFETY_CONN is in range, whatever its dir. A slot is a SAFETY slot of its set by the schedule in force (R413,
R493). -/
def Dev.rangeConn (d : Dev) (p : ConfigSafetyConn) : Bool :=
  within 0 63 p.conn && within 0 2 p.dir && within 0 4 p.set && within 0 127 p.slot && p.connId != 0 && p.reserved == 0
    && lossOk p.kind.toNat p.loss.toNat && within d.time.tc 0x7FFFFFFF p.tWd && decide (d.time.tc ≤ p.tValid.toNat)
    && decide ((look (d.bus.sets.getD p.set.toNat default).entries p.slot.toNat).toNat / 2 ^ 32 % 256 = 5)

def rangeConfigSsmReaction (p : ConfigSsmReaction) : Bool :=
  within 0 63 p.pan && within 2 3 p.reaction && within 0 1 p.restart && (p.reaction == 3 || p.restart == 0) && p.reserved == 0

/-- SET_OBJECT_SOURCE is in range (R283). -/
def rangeSetObjectSource (p : SetObjectSource) : Bool :=
  within 0 2 p.source && within 0 63 p.connection && within 0 15 p.entry && p.reserved == 0
    && within 1 0x7FFFFFFF p.age

/-! ### What a commit checks (R267, R271, R275) -/

/-- Separation pipelines in service (R271). -/
def Dev.pipes (d : Dev) : List Nat := (List.range 4).filter (fun i => !d.isRetired 4 i)

/-- F600 cycles of a pass after its inputs: kinematics, pairs, and reduction with the monitor decision (R271). -/
def passCycles (joints enabled pipes : Nat) : Nat :=
  let n := (enabled + pipes - 1) / pipes
  50 * joints + (n + 40) + (2 * n + 80)

/-- The worst case of a set is within N_sep * Tc - in_cut, in both channels. A cycle of F600 is 128/75 LSB, one of XCLK
40.96 LSB. -/
def Dev.timingOk (d : Dev) (s : SafetySet) : Bool :=
  let room : Int := (d.time.nSep * d.time.tc : Nat) - ((rd 32 (s.get 0x0600 0) 0).toNat : Int)
  let p := max 1 d.pipes.length
  decide (((passCycles 128 (s.of 0x0605).length p * 128 : Nat) : Int) ≤ room * 75)
    && decide ((((16 * 128 + s.islandPairs.length + 32) * 4096 : Nat) : Int) ≤ room * 100)

/-- Some object is bound to a hint, or will be at commit. -/
def Dev.hinted (d : Dev) (o : Nat) : Bool :=
  d.sep.hintsNext.foldl (fun acc p => if p.object.toNat = o then p.source == 2 else acc)
    (decide ((look d.sep.hints o).source = 2))

/-- The lowest invalid entry of the pair filter table of a set. -/
def Dev.badEntry (d : Dev) (s : SafetySet) : Option Nat := (s.pairs.find? (fun e => !s.entryOk d.hinted e.2)).map Prod.fst

/-! ### Commands of class 0x06 that change the candidate (R282, R283) -/

/-- The conditions of a configuration of the separation model: none in the ARBITER role, and none with SEP switched off but
one that removes something (R280). -/
def Dev.sepCond (d : Dev) (removes : Bool) : List (Bool × Status) :=
  [(!d.isArbiter, .retired), (removes || !d.domOff 6, .range)]

/-- CONFIG_SEPARATION. -/
def semConfigSeparation (h : Hdr) (p : ConfigSeparation) : Sem where
  op := 0x0600
  lenOk := h.length = 8
  modes := [.commission]
  range := fun d => rangeConfigSeparation d.time.tc p
  cond := fun d => firstFail (d.sepCond false)
  eff := fun d => (d.putItem 0x0600 0 (bytesConfigSeparation p), some (.ok, []))

/-- DEFINE_PAN; arms 0 removes the pan. -/
def semDefinePan (h : Hdr) (p : DefinePan) : Sem where
  op := 0x0601
  lenOk := h.length = 4
  modes := [.commission]
  range := fun _ => rangeDefinePan p
  cond := fun d => firstFail (d.sepCond (p.arms == 0))
  eff := fun d => (d.putItem 0x0601 p.pan.toNat (if p.arms = 0 then [] else bytesDefinePan p), some (.ok, []))

/-- SET_PARAM_SET. -/
def semSetParamSet (h : Hdr) (p : SetParamSet) : Sem where
  op := 0x0602
  lenOk := h.length = 36
  modes := [.commission]
  range := fun _ => rangeSetParamSet p
  cond := fun d => firstFail (d.sepCond false)
  eff := fun d => (d.putItem 0x0602 p.set.toNat (bytesSetParamSet p), some (.ok, []))

/-- LOAD_SAFETY_KINEMATICS. -/
def semLoadSafetyKinematics (h : Hdr) (p : LoadSafetyKinematics) : Sem where
  op := 0x0603
  lenOk := h.length = 16
  modes := [.commission]
  range := fun _ => within 1 16 p.count && p.reserved == 0
  cond := fun d => d.blockCond p.offset p.length p.crc (decide (p.length.toNat = 512 * p.count.toNat))
    (firstFail (d.sepCond false)) (fun b => (chunks 512 p.count.toNat b).all kinRecordOk)
  eff := fun d => ((chunks 512 p.count.toNat (d.blockBytes p.offset p.length)).foldl (fun d r =>
    d.putItem 0x0603 (rd 8 r 0).toNat (r.take (32 + 40 * (rd 8 r 1).toNat))) d, some (.ok, []))

/-- LOAD_CAPSULES. -/
def semLoadCapsules (h : Hdr) (p : LoadCapsules) : Sem where
  op := 0x0604
  lenOk := h.length = 16
  modes := [.commission]
  range := fun _ => within 1 256 p.count && p.reserved == 0
  cond := fun d => d.blockCond p.offset p.length p.crc (decide (p.length.toNat = 32 * p.count.toNat))
    (firstFail (d.sepCond false)) (fun b => (chunks 32 p.count.toNat b).all d.safety.candidate.capsuleOk)
  eff := fun d => ((chunks 32 p.count.toNat (d.blockBytes p.offset p.length)).foldl (fun d r =>
    d.putItem 0x0604 (rd 8 r 0).toNat r) d, some (.ok, []))

/-- LOAD_PAIRS: each entry is checked against the definitions of the candidate. -/
def semLoadPairs (h : Hdr) (p : LoadPairs) : Sem where
  op := 0x0605
  lenOk := h.length = 16
  modes := [.commission]
  range := fun _ => within 1 8192 p.count && decide (p.first.toNat + p.count.toNat ≤ 8192)
  cond := fun d => d.blockCond p.offset p.length p.crc (decide (p.length.toNat = 8 * p.count.toNat))
    (firstFail (d.sepCond false)) (fun b => (rdWords 64 b).all (fun w => pairReserved w
      && d.safety.candidate.entryOk d.hinted w))
  eff := fun d => (((rdWords 64 (d.blockBytes p.offset p.length)).zipIdx).foldl (fun d e =>
    d.putItem 0x0605 (p.first.toNat + e.2) (if e.1 = 0 then [] else wordBytes e.1)) d, some (.ok, []))

/-- LOAD_ISLAND replaces the whole island model. A block of no records is below the shortest length (R108). -/
def semLoadIsland (h : Hdr) (p : LoadIsland) : Sem where
  op := 0x0606
  lenOk := h.length = 16
  modes := [.commission]
  range := fun _ => within 0 256 p.spheres && within 0 2048 p.pairs
  cond := fun d => d.blockCond p.offset p.length p.crc
      (decide (p.length.toNat = 24 * p.spheres.toNat + 8 * p.pairs.toNat)) (firstFail (d.sepCond false))
      (fun b =>
        let s : SafetySet := put d.safety.candidate (itemKey 0x0606 0) (wordBytes p.spheres ++ wordBytes p.pairs ++ b)
        s.spheres.all s.sphereOk && s.islandPairs.all s.islandPairOk)
  eff := fun d => (d.putItem 0x0606 0 (wordBytes p.spheres ++ wordBytes p.pairs ++ d.blockBytes p.offset p.length), some (.ok, []))

/-- The binding of an object to a hint, or to none, comes into force (R283). -/
def Dev.bindHint (d : Dev) (p : SetObjectSource) : Dev :=
  d.onSep (fun x => { x with
    hints := put x.hints p.object.toNat (if p.source = 2 then p else {})
    objs := put x.objs p.object.toNat {} })

/-- SET_OBJECT_SOURCE: an item of the set where it names a connection; in READY it may bind to a hint or unbind, and never
touch an object bound to a connection (R282, R283, R486). -/
def semSetObjectSource (h : Hdr) (p : SetObjectSource) : Sem where
  op := 0x0607
  lenOk := h.length = 12
  modes := [.commission, .ready]
  range := fun _ => rangeSetObjectSource p
  cond := fun d => firstFail
    ((!d.isArbiter, .retired)
      :: (decide (d.power.mode ≠ .ready) || (p.source != 1 && (d.item 0x0607 p.object.toNat).isEmpty), .mode)
      :: (p.source != 2 || !d.domOff 7, .range) :: d.sepCond (p.source == 0))
  eff := fun d =>
    if d.power.mode = .ready then (d.await h.stamp (.setObjectSource h p), some (.ok, []))
    else ((d.putItem 0x0607 p.object.toNat (if p.source = 1 then bytesSetObjectSource p else [])).onSep (fun x =>
      { x with hintsNext := x.hintsNext ++ [p] }), some (.ok, []))

/-- SET_PAN_PLANNER: a weight for each member arm of the pan, the others 0. -/
def semSetPanPlanner (h : Hdr) (p : SetPanPlanner) : Sem where
  op := 0x0608
  lenOk := h.length = 32
  modes := [.ready]
  range := fun d =>
    let n := (d.safety.committed.panArms p.pan.toNat).length
    within 0 63 p.pan && within 0 1 p.enable && p.reserved == 0 && (p.enable == 0 || decide (n ≠ 0))
      && (p.weights.take n).all (within 1 0x8000) && (p.weights.drop n).all (· == 0)
  cond := fun d => firstFail (d.sepCond (p.enable == 0) ++
    [(p.enable == 0 || !d.solverOff, .range), (d.mirrorRoom h.stamp (.setPanPlanner h p), .range)])
  eff := fun d => (d.await h.stamp (.setPanPlanner h p), some (.ok, []))

def execConfigSeparation (h : Hdr) (p : ConfigSeparation) (s : State) : Host.Outcome State Fault Refusal :=
  s.act (runCmd (semConfigSeparation h p) h)

def execDefinePan (h : Hdr) (p : DefinePan) (s : State) : Host.Outcome State Fault Refusal :=
  s.act (runCmd (semDefinePan h p) h)

def execSetParamSet (h : Hdr) (p : SetParamSet) (s : State) : Host.Outcome State Fault Refusal :=
  s.act (runCmd (semSetParamSet h p) h)

def execLoadSafetyKinematics (h : Hdr) (p : LoadSafetyKinematics) (s : State) : Host.Outcome State Fault Refusal :=
  s.act (runCmd (semLoadSafetyKinematics h p) h)

def execLoadCapsules (h : Hdr) (p : LoadCapsules) (s : State) : Host.Outcome State Fault Refusal :=
  s.act (runCmd (semLoadCapsules h p) h)

def execLoadPairs (h : Hdr) (p : LoadPairs) (s : State) : Host.Outcome State Fault Refusal :=
  s.act (runCmd (semLoadPairs h p) h)

def execLoadIsland (h : Hdr) (p : LoadIsland) (s : State) : Host.Outcome State Fault Refusal :=
  s.act (runCmd (semLoadIsland h p) h)

def execSetObjectSource (h : Hdr) (p : SetObjectSource) (s : State) : Host.Outcome State Fault Refusal :=
  s.act (runCmd (semSetObjectSource h p) h)

def execSetPanPlanner (h : Hdr) (p : SetPanPlanner) (s : State) : Host.Outcome State Fault Refusal :=
  s.act (runCmd (semSetPanPlanner h p) h)

/-! ### Commands of class 0x0E that change the candidate (R493) -/

/-- A configuration command of the safety functions: an item of the candidate set, in COMMISSION; none in the ARBITER
role. -/
def semSafetyItem (h : Hdr) (op len key : Nat) (ok : Dev → Bool) (b : List Byte) : Sem where
  op := op
  lenOk := h.length = len
  modes := [.commission]
  range := ok
  cond := fun d => firstFail [(!d.isArbiter, .retired)]
  eff := fun d => (d.putItem op key b, some (.ok, []))

def execConfigSinPair (h : Hdr) (p : ConfigSinPair) (s : State) : Host.Outcome State Fault Refusal :=
  s.act (runCmd (semSafetyItem h 0x0E00 8 p.pair.toNat (fun _ => rangeConfigSinPair p) (bytesConfigSinPair p)) h)

def execConfigStops (h : Hdr) (p : ConfigStops) (s : State) : Host.Outcome State Fault Refusal :=
  s.act (runCmd (semSafetyItem h 0x0E01 24 0 (fun d => rangeConfigStops d.time.tc p) (bytesConfigStops p)) h)

def execConfigSls (h : Hdr) (p : ConfigSls) (s : State) : Host.Outcome State Fault Refusal :=
  s.act (runCmd (semSafetyItem h 0x0E02 580 0 (fun _ => rangeConfigSls p) (bytesConfigSls p)) h)

def execConfigStoEdm (h : Hdr) (p : ConfigStoEdm) (s : State) : Host.Outcome State Fault Refusal :=
  s.act (runCmd (semSafetyItem h 0x0E03 16 0 (fun _ => rangeConfigStoEdm p) (bytesConfigStoEdm p)) h)

def execConfigSbc (h : Hdr) (p : ConfigSbc) (s : State) : Host.Outcome State Fault Refusal :=
  s.act (runCmd (semSafetyItem h 0x0E04 8 0 (fun _ => rangeConfigSbc p) (bytesConfigSbc p)) h)

def execConfigSsmReaction (h : Hdr) (p : ConfigSsmReaction) (s : State) : Host.Outcome State Fault Refusal :=
  s.act (runCmd (semSafetyItem h 0x0E06 4 p.pan.toNat (fun _ => rangeConfigSsmReaction p) (bytesConfigSsmReaction p)) h)

/-! ### LOAD_SET_IMAGE (R494) -/

/-- SET_EXPORT: an item of the safety parameter set (R438, R486). -/
def rangeSetExport (p : SetExport) : Bool :=
  within 0 63 p.conn && within 0 16 p.count && p.reserved == 0 && (p.capsules.drop p.count.toNat).all (· == 0)
    && quatOk ((p.pose.drop 3).map (fun w => w.toInt))

/-- An item of an image is one that its command could have given: its length, key and ranges (R486). -/
def Dev.imageItemOk (d : Dev) (op key : Nat) (b : List Byte) : Bool :=
  let k0 := (rd 8 b 0).toNat
  let n := b.length
  match op with
  | 0x0600 => n == 8 && key == 0 && rangeConfigSeparation d.time.tc (parseConfigSeparation b)
  | 0x0601 => let p := parseDefinePan b
    n == 4 && key == k0 && rangeDefinePan p && p.arms != 0
  | 0x0602 => n == 36 && key == k0 && rangeSetParamSet (parseSetParamSet b)
  | 0x0603 => key == k0 && kinRecordOk b && decide (n = 32 + 40 * (rd 8 b 1).toNat)
  | 0x0604 => n == 32 && key == k0
  | 0x0605 => n == 8 && decide (key < 8192) && rd 64 b 0 != 0 && pairReserved (rd 64 b 0)
  | 0x0606 => key == 0 && within 0 256 (rd 16 b 0) && within 0 2048 (rd 16 b 2)
      && decide (n = 4 + 24 * (rd 16 b 0).toNat + 8 * (rd 16 b 2).toNat) && decide (4 < n)
  | 0x0607 => let p := parseSetObjectSource b
    n == 12 && key == k0 && rangeSetObjectSource p && p.source == 1
  | 0x0D05 => n == 48 && key == 0 && rangeSetExport (parseSetExport b)
  | 0x0E00 => n == 8 && key == k0 && rangeConfigSinPair (parseConfigSinPair b)
  | 0x0E01 => n == 24 && key == 0 && rangeConfigStops d.time.tc (parseConfigStops b)
  | 0x0E02 => n == 580 && key == 0 && rangeConfigSls (parseConfigSls b)
  | 0x0E03 => n == 16 && key == 0 && rangeConfigStoEdm (parseConfigStoEdm b)
  | 0x0E04 => n == 8 && key == 0 && rangeConfigSbc (parseConfigSbc b)
  | 0x0E05 => let p := parseConfigSafetyConn b
    n == 20 && key == k0 && d.rangeConn p && p.dir != 0
  | 0x0E06 => n == 4 && key == k0 && rangeConfigSsmReaction (parseConfigSsmReaction b)
  | _ => false

/-- The items of a canonical image, in ascending order; fewer than 8 zero bytes after the last item are the padding of the
block. `n` bounds the items. -/
def Dev.parseImage (d : Dev) : Nat → Nat → List Byte → Option SafetySet
  | 0, _, _ => none
  | n + 1, least, b =>
    if b.length < 8 then (if b.all (· == 0) then some [] else none)
    else
      let op := (rd 16 b 0).toNat
      let key := (rd 16 b 2).toNat
      let len := (rd 16 b 4).toNat
      let item := (b.drop 8).take len
      let whole := 8 + (len + 3) / 4 * 4
      if rd 16 b 6 ≠ 0 ∨ b.length < whole ∨ ((b.take whole).drop (8 + len)).any (· != 0) ∨ itemKey op key < least
          ∨ !d.imageItemOk op key item then none
      else (d.parseImage n (itemKey op key + 1) (b.drop whole)).map (fun t => (itemKey op key, item) :: t)

/-- A whole image: every item, and the capsules and the island against the kinematics of the same image. -/
def Dev.imageSet (d : Dev) (b : List Byte) : Option SafetySet :=
  match d.parseImage (b.length / 8 + 1) 0 b with
  | some s => if (s.of 0x0604).all (fun e => s.capsuleOk e.2) && s.spheres.all s.sphereOk then some s else none
  | none => none

/-- LOAD_SET_IMAGE: the candidate is replaced whole. -/
def semLoadSetImage (h : Hdr) (p : LoadSetImage) : Sem where
  op := 0x0E13
  lenOk := h.length = 12
  modes := [.commission]
  cond := fun d => d.blockCond p.offset p.length p.crc true (firstFail [(!d.isArbiter, .retired)])
    (fun b => (d.imageSet b).isSome)
  eff := fun d => (d.onSafety (fun s => { s with
    candidate := (d.imageSet (d.blockBytes p.offset p.length)).getD s.candidate }), some (.ok, []))

def execLoadSetImage (h : Hdr) (p : LoadSetImage) (s : State) : Host.Outcome State Fault Refusal :=
  s.act (runCmd (semLoadSetImage h p) h)

end Sys2Proof.Machine
end

