-- ==== Sys2Proof/Machine/Geometry.lean ====
section
/-! DEFINITION. The exact geometry of the separation monitor (spec/12_pans_separation.md, R270, R272, R275): closest points of
two segments, distances rounded down, and speeds rounded up. Vectors are lists of three integers. -/

namespace Sys2Proof.Machine

/-- The difference of two vectors. -/
def vsub (a b : List Int) : List Int := List.zipWith (· - ·) a b

/-- The sum of two vectors. -/
def vadd (a b : List Int) : List Int := List.zipWith (· + ·) a b

/-- A vector times a number. -/
def vscale (k : Int) (a : List Int) : List Int := a.map (k * ·)

/-- A fraction clamped to [0, 1]; 0 where its denominator is 0. -/
def unitFrac (n d : Int) : Int × Int := if d ≤ 0 ∨ n ≤ 0 then (0, 1) else if d ≤ n then (1, 1) else (n, d)

/-- Parameters on two segments, each as a fraction with a positive denominator. -/
structure Params where
  s : Int × Int := (0, 1)
  t : Int × Int := (0, 1)
deriving DecidableEq, Repr, Inhabited

/-- P_B - P_A at parameters, times both denominators. -/
def gapVec (a0 a1 b0 b1 : List Int) (p : Params) : List Int :=
  let k := p.s.2 * p.t.2
  vadd (vscale k (vsub b0 a0)) (vsub (vscale (p.s.2 * p.t.1) (vsub b1 b0)) (vscale (p.t.2 * p.s.1) (vsub a1 a0)))

/-- The candidates for the closest points of two segments: the best point on the other segment for each end, and the common
perpendicular where it falls inside both. -/
def candidates (a0 a1 b0 b1 : List Int) : List Params :=
  let u := vsub a1 a0
  let v := vsub b1 b0
  let w := vsub a0 b0
  let (a, b, c, d, e) := (dot u u, dot u v, dot v v, dot u w, dot v w)
  let forS := fun (s : Int × Int) => ({ s := s, t := unitFrac (s.2 * e + s.1 * b) (s.2 * c) } : Params)
  let forT := fun (t : Int × Int) => ({ s := unitFrac (t.1 * b - t.2 * d) (t.2 * a), t := t } : Params)
  let den := a * c - b * b
  let (sn, tn) := (b * e - c * d, a * e - b * d)
  let inner := if 0 < den ∧ 0 ≤ sn ∧ sn ≤ den ∧ 0 ≤ tn ∧ tn ≤ den then [({ s := (sn, den), t := (tn, den) } : Params)] else []
  [forS (0, 1), forT (0, 1), forT (1, 1), forS (1, 1)] ++ inner

/-- A fraction is less than another. -/
def fracLt (x y : Int × Int) : Bool := decide (x.1 * y.2 < y.1 * x.2)

/-- The order of R270 among candidates: the smaller distance, then the smaller parameter on A, then on B. -/
def better (a0 a1 b0 b1 : List Int) (x y : Params) : Bool :=
  let f := fun (p : Params) => (normSq (gapVec a0 a1 b0 b1 p), (p.s.2 * p.t.2) ^ 2)
  if fracLt (f x) (f y) then true else if fracLt (f y) (f x) then false
  else if fracLt x.s y.s then true else if fracLt y.s x.s then false else fracLt x.t y.t

/-- The closest points of two segments (R270 step 1). -/
def closest (a0 a1 b0 b1 : List Int) : Params :=
  (candidates a0 a1 b0 b1).foldl (fun acc p => if better a0 a1 b0 b1 p acc then p else acc)
    ((candidates a0 a1 b0 b1).headD {})

/-- A point of a segment at a parameter, times the denominator. -/
def pointAt (p0 p1 : List Int) (s : Int × Int) : List Int := vadd (vscale s.2 p0) (vscale s.1 (vsub p1 p0))

/-- The closest points are not unique: another candidate is as close with other points. -/
def tied (a0 a1 b0 b1 : List Int) : Bool :=
  let best := closest a0 a1 b0 b1
  let same := fun (p0 p1 : List Int) (x y : Int × Int) => vscale y.2 (pointAt p0 p1 x) == vscale x.2 (pointAt p0 p1 y)
  let f := fun (p : Params) => (normSq (gapVec a0 a1 b0 b1 p), (p.s.2 * p.t.2) ^ 2)
  (candidates a0 a1 b0 b1).any (fun p => !fracLt (f best) (f p) && !fracLt (f p) (f best)
    && (!same a0 a1 best.s p.s || !same b0 b1 best.t p.t))

/-- floor(√n / d) - r, at least 0 (R270 step 2). -/
def gapFloor (n : Int) (d : Int) (r : Int) : Int := max 0 ((isqrt n.toNat : Int) / d - r)

/-- The least k with num / (den √n) ≤ k, for a num that is not negative. -/
def ceilOver (num den n : Int) : Nat :=
  if num ≤ 0 then 0
  else
    let q := (den * den * n).toNat
    ceilSqrt (((num * num).toNat + q - 1) / q)

/-- The least k with √n num / den ≤ k. -/
def ceilNorm (n num den : Int) : Nat :=
  let q := (den * den).toNat
  ceilSqrt (((n * num * num).toNat + q - 1) / q)

/-- The ceiling of a fraction with a positive denominator. -/
def ceilFrac (n : Int) (d : Nat) : Int := -((-n) / (d : Int))

/-- c √b ≤ m. -/
def leRoot (c b m : Int) : Bool :=
  if 0 ≤ c then decide (0 ≤ m) && decide (c * c * b ≤ m * m) else decide (0 ≤ m) || decide (m * m ≤ c * c * b)

/-- 2 k + √b ≤ √a. -/
def leRoots (k a b : Int) : Bool :=
  (decide (k < 0) && decide (b < 4 * k * k)) || leRoot (4 * k) b (a - b - 4 * k * k)

/-- floor((√a - √b) / 2). -/
def halfRoots (a b : Int) : Int :=
  let g : Int := ((isqrt a.toNat : Int) - isqrt b.toNat) / 2 + 2
  ((List.range 6).map (fun i => g - i)).find? (fun k => leRoots k a b) |>.getD (g - 5)

end Sys2Proof.Machine
end

