-- ==== Sys2Proof/Machine/Separation.lean ====
section
/-! DEFINITION. Pans and speed-and-separation (spec/12_pans_separation.md, R258 to R284; spec/21_safety_functions.md, R473): the
pass, both channels of the monitor, the rows of the time-scaling programme, and the GET commands. -/

namespace Sys2Proof.Machine

/-! ### Stop requests of pans (R273, R275, R473) -/

/-- arg of the notices of class 0x06 (R281). -/
def sepArg (pan : Nat) (island : Bool) (index : Nat) : BitVec 32 :=
  BitVec.ofNat 32 (pan % 256 + 256 * bit island + index % 65536 * 65536)

/-- A notice of class 0x06. -/
def Dev.sepNotice (d : Dev) (t code pan : Nat) (island : Bool) (index : Nat) (journalled : Bool)
    (items : List Byte := [0, 0, 0, 0]) : Dev :=
  d.notice 6 0 t (BitVec.ofNat 16 (0x0600 + code)) (sepArg pan island index) journalled items

/-- The member arms of a pan of the committed set. -/
def Dev.panArms (d : Dev) (pan : Nat) : List Nat := d.safety.committed.panArms pan

/-- The pans of the committed set. -/
def Dev.panList (d : Dev) : List Nat := (d.safety.committed.of 0x0601).map Prod.fst

/-- The member arms of a pan stop on their ramps from E(t), and are watched from there (R471, R473). -/
def Dev.stopPanArms (d : Dev) (t pan : Nat) : Dev :=
  let e := d.effectAt t
  (d.panArms pan).foldl (fun d a =>
    if (look d.arms a).cfg.isNone then d
    else
      let halt := fun (x : Arm) =>
        if x.phase = .stopping ∨ x.phase = .stopped ∨ x.stopNext.isSome then x.stopNext else some (e, 3, t)
      let d1 := d.onArm a (fun y => { y with byHold := false, stopNext := halt y })
      d1.onSafety (fun s => { s with watch := upd s.watch a (fun w => if w.e.isSome then w else { w with e := some e }) })) d

/-- The reaction of a pan to a stop request, as set for it or as a container demands it: 2 stops the device, 3 the arms. -/
def Dev.panReact (d : Dev) (t pan reaction : Nat) (chanS : Bool) : Dev :=
  match reaction with
  | 2 => d.react t 2 0x16 pan chanS
  | 3 => d.stopPanArms t pan
  | _ => d

/-- A pan's request of one source rises: bit 0 SEP, 1 the island, 2 a STOP container. -/
def Dev.panRequest (d : Dev) (t pan src reaction : Nat) : Dev :=
  let x := look d.safety.pans pan
  let d1 := d.onSafety (fun s => { s with pans := put s.pans pan { x with req := setBit x.req src true } })
  if x.req = 0 ∨ src = 2 then d1.panReact t pan reaction (src == 0) else d1

/-- A pan's request of one source is withdrawn; with automatic restart the arms that no other stop holds resume from E(t)
(R473). -/
def Dev.panWithdraw (d : Dev) (t pan src : Nat) : Dev :=
  let x := look d.safety.pans pan
  let y : PanStop := { x with req := setBit x.req src false }
  let d1 := d.onSafety (fun s => { s with pans := put s.pans pan y })
  let c := d1.ssm pan
  if x.req ≠ 0 ∧ y.req = 0 ∧ c.reaction = 3 ∧ c.restart = 1 ∧ d1.power.mode = .run then
    let free := (d1.panArms pan).filter (fun a =>
      let m := look d1.arms a
      let stops := decide ((m.phase = .stopping ∨ m.phase = .stopped) ∧ m.reason = 3) ||
        (match m.stopNext with
          | some (_, r, _) => r == 3
          | none => false)
      stops && !m.byHold && !d1.ssmHolds (BitVec.ofNat 16 (2 ^ a)))
    if free.isEmpty then d1
    else d1.await t (.resumeArms {} { arms := BitVec.ofNat 16 (free.foldl (fun m a => m + 2 ^ a) 0) })
  else d1

/-- What a decision of a channel says about a pan: its request rises, with SSM_REQUEST and the nearest violated pair, or is
withdrawn, with SSM_CLEAR. It rises only in the modes of R280; one that is active is withdrawn by the first later pass without a
violated pair, in whatever mode that runs (R273). -/
def Dev.panDecision (d : Dev) (t pan src : Nat) (violated : Option Nat) : Dev :=
  let on := (look d.safety.pans pan).req.getLsbD src
  match violated, on with
  | some i, false =>
    if d.power.mode.torque then (d.sepNotice t 1 pan (src == 1) i true).panRequest t pan src (d.ssm pan).reaction.toNat else d
  | none, true => (d.sepNotice t 2 pan (src == 1) 0 true).panWithdraw t pan src
  | _, _ => d

/-! ### The start of a pass (R268, R271, R280) -/

/-- Some item of the separation model is committed. -/
def Dev.sepSet (d : Dev) : Bool := d.safety.committed.any (fun e => decide (e.1 / 65536 / 256 = 6))

/-- Passes run in the present mode. -/
def Dev.sepRuns (d : Dev) : Bool :=
  d.sepSet && !d.isArbiter && !d.power.offMask.getLsbD 6
    && (match d.power.mode with
      | .boot => false | .dormant => false | .shadow => false | _ => true)

/-- in_cut. -/
def Dev.inCut (d : Dev) : Nat := (rd 32 (d.item 0x0600 0) 0).toNat

/-- A pass without its monitor decision after N_sep periods is abandoned: an event on each pipeline in service, the notice,
and a stop request for every pan (R271). -/
def Dev.passOverrun (d : Dev) (t : Nat) : Dev :=
  let p := d.sep.pass
  if p.running ∧ !p.sepDone ∧ p.stamp + d.time.nSep * d.time.tc ≤ t then
    let d1 := d.onSep (fun s => { s with pass := { s.pass with running := false } })
    let d2 := d1.pipes.foldl (fun d i => d.faultEvent 4 i t) d1
    let d3 := d2.sepNotice t 6 0 false 0 true
    d3.panList.foldl (fun d pan => d.panDecision t pan 0 (some 0xFFFF)) d3
  else d

/-- PASS_OVERRUN (R271). -/
def execPassOverrun (t : Nat) (s : State) : Host.Outcome State Fault Refusal :=
  s.act (fun d => (d.advance t).passOverrun t)

/-- A pass begins for a boundary; the setpoints S_k and the path velocities stand as they are there. -/
def Dev.beginPass (d : Dev) (b : Nat) : Dev :=
  (d.passOverrun b).onSep (fun s => { s with
    pass := { stamp := b, running := true,
              path := (List.range 128).foldl (fun m j =>
                put m j ((look d.joints j).cmd, (look d.joints j).path)) [] }
    pans := d.panList.foldl (fun m pan => upd m pan (fun x => { x with
      sHat := (d.panArms pan).map (fun a => min (look d.arms a).sHost (look d.arms a).sDeck) })) s.pans })

/-- A pass starts at B_k where k mod N_sep is 0 (R268). -/
def Dev.startPass (d : Dev) (b : Nat) : Dev :=
  if d.time.k % d.time.nSep = 0 ∧ d.sepRuns then d.beginPass b else d

/-! ### Inputs (R263 to R265, R268) -/

/-- An object record of 48 bytes with its stamp (R263). -/
def parseObject (b : List Byte) (stamp : Nat) : ObjRec :=
  let flags := rd 8 b 1
  { kind := rd 8 b 0, flags := flags
    resv := decide (4 < (rd 8 b 0).toNat) || flags &&& 0xFE != 0 || rd 16 b 2 != 0 || rd 32 b 44 != 0
    p0 := rdSs b 4 3, p1 := if flags.getLsbD 0 then rdSs b 4 3 else rdSs b 16 3
    radius := (rd 32 b 28).toNat, v := rdSs b 32 3, stamp := stamp }

/-- The binding of an object: in the set to a connection, else to a hint, else none. -/
def Dev.objSource (d : Dev) (o : Nat) : SetObjectSource :=
  let b := d.item 0x0607 o
  if b.isEmpty then look d.sep.hints o else parseSetObjectSource b

/-- A coordinate extrapolated to B_k, rounded half to even (R264 step 1). -/
def extrapolate (p v : Int) (dt : Int) : Int := rneDiv (p * lsbPerSecond + v * 16 * dt) lsbPerSecond

/-- A record as it stands at B_k. -/
def ObjRec.moved (r : ObjRec) (b : Nat) : ObjRec :=
  let f := fun (l : List Int) => List.zipWith (fun p v => extrapolate p v ((b : Int) - r.stamp)) l r.v
  { r with p0 := f r.p0, p1 := f r.p1 }

/-- The state of an object for the pass at B_k (R264); a hint that TRACK_SMOOTH has smoothed is taken smoothed (R322). -/
def Dev.objAt (d : Dev) (b o : Nat) : Obj :=
  let c := d.objSource o
  let x := look d.sep.objs o
  if c.source = 0 then { x with phase := .unbound, now := {} }
  else
    let found := if c.source = 1 then x.recs.find? (fun r => decide (r.stamp ≤ b))
      else
        let h := memRead d.host.hints (64 * o) 64
        let r := parseObject (h.take 48) (rd 64 h 48).toNat
        if b < r.stamp then none
        else match x.recs.find? (fun y => decide (y.stamp = r.stamp)) with
          | some y => some y
          | none => some r
    let recs := match found with
      | some r => x.recs.filter (fun y => decide (r.stamp ≤ y.stamp))
      | none => x.recs
    let dead := decide (c.source = 1) && decide ((look d.safety.conns c.connection.toNat).state = .failed)
    let gone : ObjPhase := if c.source = 1 then .lost else .stale
    match found with
    | some r =>
      if r.resv ∨ dead ∨ c.age.toNat < b - r.stamp then { x with recs := recs, phase := gone, now := r.moved b }
      else { x with recs := recs, phase := if r.kind = 0 then .empty else .valid, now := r.moved b }
    | none => { x with recs := recs, phase := gone, now := {} }

/-- The arms with safety kinematics, with their records. -/
def Dev.kinArms (d : Dev) : List (Nat × List Byte) := d.safety.committed.of 0x0603

/-- The global joints that the kinematics of an arm describes. -/
def Dev.kinJointsOf (d : Dev) (a : Nat) : List Nat :=
  match (look d.arms a).cfg with
  | some c => (List.range (d.safety.committed.kinJoints a)).map (fun j => c.first.toNat + j)
  | none => []

/-- The safe position of a joint for B_k: valid data of a container sampled there. -/
def Dev.safeAt (d : Dev) (b j : Nat) : Option Int :=
  let s := look d.safety.joints j
  if s.known ∧ s.valid ∧ s.tSrc = b then some s.pos else none

/-- The containers expected for B_k have arrived (R268): every arm with safety kinematics has its safe positions for B_k, and every
connection that an object is bound to, where it is not failed, has brought a container since B_k, with whatever stamp (DEDUCED, log
entry 148). -/
def Dev.positionsIn (d : Dev) (b : Nat) : Bool :=
  d.kinArms.all (fun e => (look d.arms e.1).cfg.isNone || (d.kinJointsOf e.1).all (fun j => (d.safeAt b j).isSome))
    && (List.range 256).all (fun o =>
      let c := d.objSource o
      decide (c.source ≠ 1) || decide ((look d.safety.conns c.connection.toNat).state = .failed)
        || decide (b ≤ (look d.safety.conns c.connection.toNat).lastRx))

/-- The inputs of the pass are complete: at the last container, or at the cut-off. What has come is captured; objects that
became LOST are said (R268, R281). -/
def Dev.inputsComplete (d : Dev) (t : Nat) : Dev :=
  let p := d.sep.pass
  if p.running ∧ p.inputs.isNone ∧ (p.stamp + d.inCut ≤ t ∨ d.positionsIn p.stamp) then
    let old := d.sep.objs
    let pos := (List.range 128).foldl (fun m j => put m j (d.safeAt p.stamp j)) []
    let d1 := d.onSep (fun s => { s with
      pass := { s.pass with inputs := some t, safePos := pos, islPos := pos }
      objs := (List.range 256).foldl (fun m o => put m o (d.objAt p.stamp o)) s.objs })
    (List.range 256).foldl (fun d o =>
      if (look d.sep.objs o).phase = .lost ∧ (look old o).phase ≠ .lost then d.sepNotice t 3 0 false o true else d) d1
  else d

/-- SEPARATION_INPUTS_COMPLETE (R268). -/
def execSeparationInputsComplete (t : Nat) (s : State) : Host.Outcome State Fault Refusal :=
  s.act (fun d => (d.advance t).inputsComplete t)

/-! ### Capsules (R269) -/

/-- One side of a pair: its ends, what they moved since the last pass, what they move in a period along the path, and the
radius. An object has its velocity words in `v`. -/
structure Side where
  p0 : List Int := [0, 0, 0]
  p1 : List Int := [0, 0, 0]
  v0 : List Int := [0, 0, 0]
  v1 : List Int := [0, 0, 0]
  u0 : List Int := [0, 0, 0]
  u1 : List Int := [0, 0, 0]
  v  : List Int := [0, 0, 0]
  r  : Int := 0
deriving DecidableEq, Repr, Inhabited

/-- Captured positions of an arm; none where one is missing. -/
def Dev.armPositions (d : Dev) (captured : Tab (Option Int)) (a : Nat) : Option (List Int) :=
  let js := d.kinJointsOf a
  if js.isEmpty ∨ js.any (fun j => (look captured j).isNone) then none
  else some (js.map (fun j => (look captured j).getD 0))

/-- The positions S_k of an arm, and S_k + q̇_1 Tc, as fractions of LSB 2^-24. -/
def Dev.pathPositions (d : Dev) (a : Nat) : List (Int × Nat) × List (Int × Nat) :=
  let l := (d.kinJointsOf a).map (fun j => look d.sep.pass.path j)
  (l.map (fun e => (e.1, 1)), l.map (fun e =>
    let q := max 1 e.2.2 * lsbPerSecond
    (e.1 * q + e.2.1 * d.time.tc * 256, q)))

/-- A link frame of a safety channel: its origin in LSB 2^-20 m, and its orientation as a matrix. -/
structure SafeFrame where
  p : List Int := [0, 0, 0]
  r : List (List Rat) := [[1, 0, 0], [0, 1, 0], [0, 0, 1]]
deriving DecidableEq, Repr, Inhabited

/-- The arithmetic of a channel: cosine and sine of a turn, and the rounding of a coordinate. -/
structure SafeArith where
  trig  : Rat → Rat × Rat
  round : Rat → Int

/-- SEP (R269): cosine and sine to Q2.30, every coordinate to 2^-20 m, half to even. -/
def sepArith : SafeArith := { trig := fun x => (ofWord 30 (trigQ30 x).1, ofWord 30 (trigQ30 x).2), round := rneRat }

/-- The island (R274): 16-bit CORDIC angles. -/
def islandArith : SafeArith :=
  { trig := fun x => Config.cordic (BitVec.ofInt 16 (Config.rounds 2 (x * 2 ^ 16))), round := Config.rounds 3 }

/-- A point of a frame given in LSB 2^-20 m, its rotated coordinates rounded. -/
def SafeFrame.at_ (f : SafeFrame) (m : SafeArith) (v : List Rat) : List Int := vadd f.p ((matVec f.r v).map m.round)

/-- The frame of the next joint: the entry's origin, then the joint's motion (R244, R261). An orientation is formed exactly: it is
no coordinate (log entry 149). -/
def SafeFrame.next (f : SafeFrame) (m : SafeArith) (linear : Bool) (entry : List Byte) (pos : Rat) : SafeFrame :=
  let p := f.at_ m ((rdSs entry 0 3).map (fun x => (x : Rat)))
  let r := matMul 3 f.r (qMat ((rdSs entry 12 4).map (ofWord 30)))
  let x := (pos + (rd 64 entry 28).toInt) / 2 ^ 24
  if linear then { p := ({ p := p, r := r } : SafeFrame).at_ m [0, 0, x * 2 ^ 20], r := r }
  else
    let (c, s) := m.trig x
    { p := p, r := matMul 3 r [[c, -s, 0], [s, c, 0], [0, 0, 1]] }

/-- The frames of an arm's safety kinematics, the base first, at joint positions in LSB 2^-24. -/
def safeFrames (m : SafeArith) (kin : List Byte) (pos : List Rat) : List SafeFrame :=
  let base : SafeFrame := { p := rdSs kin 4 3, r := qMat ((rdSs kin 16 4).map (ofWord 30)) }
  let kinds := rd 16 kin 2
  ((pos.zipIdx).foldl (fun (acc : SafeFrame × List SafeFrame) e =>
    let f := acc.1.next m (kinds.getLsbD e.2) (kin.drop (32 + 40 * e.2)) e.1
    (f, acc.2 ++ [f])) (base, [base])).2

/-- A point of a link, 0xFF for the base, in the deck frame. -/
def safePoint (m : SafeArith) (kin : List Byte) (pos : List Rat) (link : Nat) (v : List Int) : List Int :=
  ((safeFrames m kin pos).getD (if link = 0xFF then 0 else link + 1) {}).at_ m (v.map (fun x => (x : Rat)))

/-- Both ends of a capsule record at joint positions. -/
def capEnds (kin rec_ : List Byte) (pos : List (Int × Nat)) : List Int :=
  let link := (rd 8 rec_ 2).toNat
  let q := pos.map (fun e => frac e.1 e.2)
  safePoint sepArith kin q link (rdSs rec_ 4 3) ++ safePoint sepArith kin q link (rdSs rec_ 16 3)

/-- A capsule of the set at this pass; none where its arm is LOST. Where the last pass had no end of it, the end's velocity is
0 at the first pass, and free after that. -/
def Dev.capsule (d : Dev) (c : Nat) : Option Side :=
  let b := d.item 0x0604 c
  if b.isEmpty then none
  else
    let arm := (rd 8 b 1).toNat
    let kin := d.item 0x0603 arm
    match d.armPositions d.sep.pass.safePos arm with
    | none => none
    | some q =>
      let now := capEnds kin b (q.map (fun x => (x, 1)))
      let before := look d.sep.prevEnds c
      let dv := if d.sep.first then [0, 0, 0, 0, 0, 0]
        else if before.isEmpty then (List.range 6).map (fun i => Config.freeInt (d.fresh + 6 * c + i))
        else vsub now before
      let (s0, s1) := d.pathPositions arm
      let du := vsub (capEnds kin b s1) (capEnds kin b s0)
      some { p0 := now.take 3, p1 := now.drop 3, v0 := dv.take 3, v1 := dv.drop 3, u0 := du.take 3, u1 := du.drop 3
             r := (rd 32 b 28).toNat }

/-- An object at this pass, as a side. -/
def Obj.side (o : Obj) : Side := { p0 := o.now.p0, p1 := o.now.p1, v := o.now.v, r := o.now.radius }

/-! ### A pair (R270, R272, R277) -/

/-- A number that is not negative. -/
def pos0 (x : Int) : Int := max 0 x

/-- The closing speeds of a pair, robot and object, and the path closing speeds of A and B, in LSB 2^-16 m/s; `T` is the time
between passes. `free` gives the path speeds where the closest points coincide: the spec states no direction there. -/
def closing (A B : Side) (robot : Bool) (T tc : Nat) (free : Nat → Nat) : Nat × Nat × Nat × Nat :=
  let p := closest A.p0 A.p1 B.p0 B.p1
  let W := gapVec A.p0 A.p1 B.p0 B.p1 p
  let n := normSq W
  let f : Int := lsbPerSecond
  let va := pointAt A.v0 A.v1 p.s
  let vb := pointAt B.v0 B.v1 p.t
  if n = 0 then
    if robot then
      (ceilNorm (normSq (vsub (vscale p.t.2 va) (vscale p.s.2 vb))) f (p.s.2 * p.t.2 * 16 * T), 0, free 0, free 1)
    else
      (ceilNorm (normSq (vsub (vscale f va) (vscale (p.s.2 * 16 * T) B.v))) 1 (p.s.2 * 16 * T), ceilNorm (normSq B.v) 1 1,
        free 0, 0)
  else
    let cA := ceilOver (pos0 (dot (pointAt A.u0 A.u1 p.s) W) * f) (p.s.2 * 16 * tc) n
    if robot then
      (ceilOver ((pos0 (dot va W) * p.t.2 + pos0 (-(dot vb W)) * p.s.2) * f) (p.s.2 * p.t.2 * 16 * T) n, 0, cA,
        ceilOver (pos0 (-(dot (pointAt B.u0 B.u1 p.t) W)) * f) (p.t.2 * 16 * tc) n)
    else (ceilOver (pos0 (dot va W) * f) (p.s.2 * 16 * T) n, ceilOver (pos0 (-(dot B.v W))) 1 n, cA, 0)

/-- The distance of a pair in LSB 2^-20 m, rounded down (R270 step 2). -/
def gap (A B : Side) : Int :=
  let p := closest A.p0 A.p1 B.p0 B.p1
  gapFloor (normSq (gapVec A.p0 A.p1 B.p0 B.p1 p)) (p.s.2 * p.t.2) (A.r + B.r)

/-- T_r of a parameter set. -/
def Dev.reactTime (d : Dev) (s : SetParamSet) : Nat := d.time.nSep * d.time.tc + s.tLat.toNat

/-- v_h of a pair. -/
def humanSpeed (s : SetParamSet) (robot : Bool) (vo : Nat) : Nat := if robot then 0 else max vo s.vHMin.toNat

/-- S_p: the terms exact, the sum rounded up once (R272). -/
def Dev.protective (d : Dev) (s : SetParamSet) (vh vr : Nat) : Int :=
  let tr := d.reactTime s
  let ts := s.tS.toNat
  ceilFrac ((16 * (2 * vh * (tr + ts) + vr * (2 * tr + ts)) : Nat) : Int) (2 * lsbPerSecond)
    + s.c.toNat + s.zD.toNat + s.zR.toNat

/-- g of an arm with path closing speed c (R277). -/
def Dev.rowG (d : Dev) (s : SetParamSet) (c : Nat) : Int :=
  ceilFrac ((16 * (c * (2 * d.reactTime s + s.tS.toNat)) : Nat) : Int) (2 * lsbPerSecond)

/-- h of a row, with the planner's margin (R277). -/
def Dev.rowH (d : Dev) (s : SetParamSet) (dist : Int) (m vh : Nat) : Int :=
  dist - m - s.c.toNat - s.zD.toNat - s.zR.toNat
    - ceilFrac ((16 * (vh * (d.reactTime s + s.tS.toNat)) : Nat) : Int) lsbPerSecond

/-- The parameter set of an entry in the committed set. -/
def Dev.pset (d : Dev) (w : BitVec 64) : SetParamSet := parseSetParamSet (d.item 0x0602 (pairPset w))

/-- The result of an entry at a pass. A LOST member lies at distance 0; the closing speeds of such a pair are free. -/
def Dev.pairResult (d : Dev) (e : Nat × BitVec 64) : PairRes :=
  let (i, w) := e
  let robot := pairRobot w
  let s := d.pset w
  let pipe := d.pipes.getD (i % max 1 d.pipes.length) 0
  let base : PairRes := { pipe := BitVec.ofNat 8 pipe, stamp := d.sep.pass.stamp }
  let m := (look d.sep.planners (pairPan w)).m.toNat
  let free := fun k => Config.freeNat (d.fresh + 2048 + 8 * i + k) % 2147483648
  let make := fun (dist : Int) (vr vo cA cB : Nat) (lost tie : Bool) =>
    let vh := humanSpeed s robot vo
    let sp := d.protective s vh vr
    let bad := pairMonitor w && (lost || decide (dist < sp))
    ({ base with
      d := dist, sp := sp, h := d.rowH s dist m vh, vr := vr, vo := vo, cA := cA, cB := cB, gA := d.rowG s cA, gB := d.rowG s cB
      flags := BitVec.ofNat 16 (bit bad + 2 * bit lost + 8 * bit tie) } : PairRes)
  let lostRes := make 0 (free 2) (free 3) (free 4) (free 5) true false
  let meet := fun (A B : Side) =>
    let (vr, vo, cA, cB) := closing A B robot (d.time.nSep * d.time.tc) d.time.tc free
    make (gap A B) vr vo cA cB false (tied A.p0 A.p1 B.p0 B.p1)
  if robot then
    match d.capsule (pairA w), d.capsule (pairB w) with
    | some A, some B => meet A B
    | _, _ => lostRes
  else
    let o := look d.sep.objs (pairB w)
    match o.phase with
    | .lost => lostRes
    | .stale => { base with flags := 4 }
    | .valid => match d.capsule (pairA w) with
      | some A => meet A o.side
      | none => lostRes
    | _ => base

/-- An entry takes part in the monitor at this pass: VALID or LOST. -/
def Dev.takesPart (d : Dev) (w : BitVec 64) : Bool :=
  pairRobot w || (match (look d.sep.objs (pairB w)).phase with
    | .valid => true | .lost => true | _ => false)

/-- The nearest of entries with their distances: the smallest distance, then the lowest index. -/
def nearest (l : List (Nat × Int)) : Option (Nat × Int) :=
  l.foldl (fun acc e => match acc with
    | some a => if e.2 < a.2 then some e else acc
    | none => some e) none

/-! ### DISCREPANCY (R276) -/

/-- The two channels' smallest distances of a pan are compared once both have decided. -/
def Dev.compare (d : Dev) (t : Nat) : Dev :=
  let p := d.sep.pass
  if p.sepDone ∧ p.islDone then
    let z : Int := (rd 32 (d.item 0x0600 0) 4).toNat
    d.panList.foldl (fun d pan =>
      let x := look d.sep.pans pan
      if x.dSet ∧ x.dIslSet ∧ x.d + z < x.dIsl then
        let d1 := d.onSep (fun s => { s with pans := upd s.pans pan (fun y => { y with flags := y.flags ||| 8 }) })
        (d1.faultEvent 4 x.nearPipe t).sepNotice t 4 pan true x.nearPipe true (intBytes 4 x.d ++ intBytes 4 x.dIsl)
      else d) d
  else d

/-! ### The monitor decision of SEP (R273) -/

/-- What a pass gives for a pan: the nearest MONITOR entry with its results. -/
def Dev.panSep (d : Dev) (pan : Nat) : Dev :=
  let l := d.safety.committed.pairs.filterMap (fun e =>
    if pairPan e.2 = pan ∧ pairMonitor e.2 ∧ d.takesPart e.2 then some (e.1, (look d.sep.pairs e.1).d) else none)
  d.onSep (fun s => { s with pans := upd s.pans pan (fun x => match nearest l with
    | some (i, dist) => { x with stamp := d.sep.pass.stamp, nearest := BitVec.ofNat 16 i, d := dist, dSet := true
                                 sp := (look d.sep.pairs i).sp, nearPipe := (look d.sep.pairs i).pipe.toNat
                                 flags := x.flags &&& 4 }
    | none => { x with stamp := d.sep.pass.stamp, nearest := 0xFFFF, d := 0, sp := 0, dSet := false, flags := x.flags &&& 4 }) })

/-- The nearest violated MONITOR pair of a pan. -/
def Dev.violatedSep (d : Dev) (pan : Nat) : Option Nat :=
  (nearest (d.safety.committed.pairs.filterMap (fun e =>
    let r := look d.sep.pairs e.1
    if pairPan e.2 = pan ∧ r.flags.getLsbD 0 then some (e.1, r.d) else none))).map Prod.fst

/-- SLS is active (R463, R472), in the modes that evaluate it (R491). -/
def Dev.slsOn (d : Dev) : Bool :=
  match d.sls with
  | some c => (d.power.mode.torque || decide (d.power.mode = .commission) || decide (d.power.mode = .shadow))
      && (decide (d.power.mode = .tune) || c.always == 1 || d.functionDemand 4)
  | none => false

/-- The speeds of capsule ends, or of sphere centres, against c_sls of their arm (R472); `moves` are what they moved since the
last pass. -/
def Dev.slsEnds (d : Dev) (t : Nat) (chanS : Bool) (moves : List (Nat × List Int)) : Dev :=
  match d.sls with
  | some c =>
    if d.slsOn then
      moves.foldl (fun d e =>
        let lim := (c.cSls.getD e.1 0).toNat * 16 * d.time.nSep * d.time.tc
        if ((lim ^ 2 : Nat) : Int) < normSq e.2 * lsbPerSecond ^ 2 then d.violation t c.reaction.toNat 0x13 e.1 chanS else d) d
    else d
  | none => d

/-- A point in the receiving cell's deck frame, each coordinate rounded half to even (R438). -/
def exportPoint (pose : List (BitVec 32)) (v : List Int) : List Int :=
  let f := poseOf (pose.map BitVec.toInt)
  (rAdd f.p (qRot f.q (v.map (ofWord 20)))).map (fun x => rneRat (x * 2 ^ 20))

/-- The payload of the export container for a pass (R438, R484): each capsule of the list as an object record of kind OTHER with
its measured ends in the receiving cell's frame. The record holds one velocity and a capsule has two ends: which stands there
is free. A capsule of a LOST arm has no record. -/
def Dev.exportPayload (d : Dev) : Option (List Byte) :=
  let b := d.item 0x0D05 0
  if b.isEmpty then none
  else
    let p := parseSetExport b
    let recs := ((p.capsules.take p.count.toNat).zipIdx).filterMap (fun e =>
      (d.capsule e.1.toNat).map (fun x =>
        [BitVec.ofNat 8 e.2, 0, 0, 0] ++ [4, 0, 0, 0]
          ++ (exportPoint p.pose x.p0 ++ exportPoint p.pose x.p1).flatMap (intBytes 4) ++ intBytes 4 x.r
          ++ (List.range 3).flatMap (fun k => intBytes 4 (Config.freeInt (d.fresh + 67584 + 3 * e.2 + k))) ++ [0, 0, 0, 0]))
    some ([BitVec.ofNat 8 recs.length, 0, 0, 0] ++ recs.flatten)

/-- SEP completes its pair evaluation: every enabled entry has its result, each pan its request, and the time-scaling
problems become ready (R270, R273, R277). -/
def Dev.sepDecision (d : Dev) (t : Nat) : Dev :=
  let p := d.sep.pass
  if p.running ∧ p.inputs.isSome ∧ !p.sepDone ∧ !d.pipes.isEmpty then
    let results := (d.safety.committed.pairs.filter (fun e => pairEnabled e.2)).foldl (fun m e => put m e.1 (d.pairResult e)) []
    let ends := (List.range 256).foldl (fun m c => match d.capsule c with
      | some x => put m c (x.p0 ++ x.p1)
      | none => m) []
    let d1 := (d.onSep (fun s => { s with
      pairs := results, prevEnds := ends, first := false, pass := { s.pass with sepDone := true }
      exported := d.exportPayload.map (fun x => (p.stamp, x)) })).draw 67632
    let d2 := d1.panList.foldl Dev.panSep d1
    let d3 := d2.panList.foldl (fun d pan => d.panDecision t pan 0 (d.violatedSep pan)) d2
    let moves := (List.range 256).flatMap (fun c => match d.capsule c with
      | some x => let arm := (rd 8 (d.item 0x0604 c) 1).toNat; [(arm, x.v0), (arm, x.v1)]
      | none => [])
    ((d3.compare t).slsEnds t true moves).evalReady t
  else d

/-- SEP_MONITOR_DECISION (R273). -/
def execSepMonitorDecision (t : Nat) (s : State) : Host.Outcome State Fault Refusal :=
  s.act (fun d => (d.advance t).sepDecision t)

/-! ### The island's decision (R274, R275) -/

/-- A protective parameter set as the island holds it. -/
def Dev.islPset (d : Dev) (w : BitVec 64) : SetParamSet := parseSetParamSet (d.sep.isl.get 0x0602 (pairPset w))

/-- A sphere of the island at this pass, by its own copy of the kinematics: its centre, what it moved since the last pass, and its radius. -/
def Dev.sphere (d : Dev) (i : Nat) : Option (List Int × List Int × Int) :=
  match d.safety.committed.spheres.find? (fun r => decide ((rd 8 r 0).toNat = i)) with
  | none => none
  | some r =>
    let arm := (rd 8 r 1).toNat
    match d.armPositions d.sep.pass.islPos arm with
    | none => none
    | some q =>
      let c := safePoint islandArith (d.sep.isl.get 0x0603 arm) (q.map (fun (x : Int) => (x : Rat))) (rd 8 r 2).toNat (rdSs r 4 3)
      let before := look d.sep.prevSph i
      let dv := if d.sep.firstIsl then [0, 0, 0]
        else if before.isEmpty then (List.range 3).map (fun k => Config.freeInt (d.fresh + 3 * i + k))
        else vsub c before
      some (c, dv, (rd 32 r 16).toNat)

/-- The speed of a sphere centre since the last pass, in LSB 2^-16 m/s, rounded up. -/
def Dev.sphereSpeed (d : Dev) (dv : List Int) : Nat :=
  ceilNorm (normSq dv) lsbPerSecond (16 * d.time.nSep * d.time.tc)

/-- The island's distance and protective distance of a pair, and whether it is violated; none where it takes no part. A copy that
fails its check is not used: every pair then counts as one of a LOST member (DESIGN CHOICE, log entry 193). -/
def Dev.islandPair (d : Dev) (w : BitVec 64) : Option (Int × Bool) :=
  let s := d.islPset w
  let judge := fun (dist : Int) (vh vr : Nat) => some (dist, decide (dist < d.protective s vh vr + s.zIsl.toNat))
  if !d.islandCopyOk then some (0, true)
  else if pairRobot w then
    match d.sphere (pairA w), d.sphere (pairB w) with
    | some (ca, va, ra), some (cb, vb, rb) =>
      judge ((isqrt (normSq (vsub ca cb)).toNat : Int) - ra - rb) 0 (d.sphereSpeed va + d.sphereSpeed vb)
    | _, _ => some (0, true)
  else
    let o := look d.sep.objs (pairB w)
    match o.phase with
    | .lost => some (0, true)
    | .valid =>
      match d.sphere (pairA w) with
      | some (ca, va, ra) =>
        let far := normSq (vsub (vscale 2 ca) (vadd o.now.p0 o.now.p1))
        let span := normSq (vsub o.now.p1 o.now.p0)
        judge (halfRoots far span - ra - o.now.radius) (humanSpeed s false (ceilNorm (normSq o.now.v) 1 1)) (d.sphereSpeed va)
      | none => some (0, true)
    | _ => none

/-- The island completes its evaluation: each pan its request, and the comparison of R276. -/
def Dev.islandDecision (d : Dev) (t : Nat) : Dev :=
  let p := d.sep.pass
  if p.running ∧ p.inputs.isSome ∧ !p.islDone then
    let l := (d.safety.committed.islandPairs.zipIdx).filterMap (fun e => (d.islandPair e.1).map (fun r => (e.2, pairPan e.1, r)))
    let cents := (List.range 256).foldl (fun m i => match d.sphere i with
      | some x => put m i x.1
      | none => m) []
    let d1 := (d.onSep (fun s => { s with
      prevSph := cents, firstIsl := false, pass := { s.pass with islDone := true } })).draw 768
    let d2 := d1.panList.foldl (fun d pan =>
      let mine := (l.filter (fun e => decide (e.2.1 = pan))).map (fun e => (e.1, e.2.2.1))
      d.onSep (fun s => { s with pans := upd s.pans pan (fun x => match nearest mine with
        | some (_, dist) => { x with dIsl := dist, dIslSet := true }
        | none => { x with dIsl := 0, dIslSet := false }) })) d1
    let d3 := d2.panList.foldl (fun d pan =>
      let bad := (l.filter (fun e => decide (e.2.1 = pan) && e.2.2.2)).map (fun e => (e.1, e.2.2.1))
      d.panDecision t pan 1 ((nearest bad).map Prod.fst)) d2
    let moves := (List.range 256).filterMap (fun i => (d.sphere i).map (fun x => ((d.safety.committed.sphereArm i).getD 0, x.2.1)))
    (d3.compare t).slsEnds t false moves
  else d

/-- ISLAND_DECISION (R275). -/
def execIslandDecision (t : Nat) (s : State) : Host.Outcome State Fault Refusal :=
  s.act (fun d => (d.advance t).islandDecision t)

/-! ### The time-scaling programme (R277 to R279) -/

/-- A row: its entry, g by member arm, and h. -/
structure PanRow where
  g : List (Nat × Int) := []
  h : Int := 0
deriving DecidableEq, Repr, Inhabited

/-- The arms of an entry with their g, those above 0. -/
def Dev.rowArms (d : Dev) (i : Nat) (w : BitVec 64) : List (Nat × Int) :=
  let r := look d.sep.pairs i
  let arm := fun c => (d.safety.committed.capArm c).getD 0
  ((arm (pairA w), r.gA) :: (if pairRobot w then [(arm (pairB w), r.gB)] else [])).filter (fun e => decide (0 < e.2))

/-- The arms that a pair involves. -/
def Dev.entryArms (d : Dev) (w : BitVec 64) : List Nat :=
  let arm := fun c => (d.safety.committed.capArm c).getD 0
  arm (pairA w) :: (if pairRobot w then [arm (pairB w)] else [])

/-- The PLAN entries of a pan that take part. -/
def Dev.planEntries (d : Dev) (pan : Nat) : List (Nat × BitVec 64) :=
  d.safety.committed.pairs.filter (fun e => decide (pairPan e.2 = pan) && pairPlan e.2 && d.takesPart e.2)

/-- The arms whose s is fixed at 0: of a LOST pair, and of a row with h < 0 and g > 0 (R278). -/
def Dev.fixedArms (d : Dev) (pan : Nat) : List Nat :=
  (d.planEntries pan).flatMap (fun e =>
    let r := look d.sep.pairs e.1
    if r.flags.getLsbD 1 then d.entryArms e.2 else if r.h < 0 then (d.rowArms e.1 e.2).map Prod.fst else [])

/-- The rows that are left: h is not negative, and some free arm has g > 0. -/
def Dev.panRows (d : Dev) (pan : Nat) : List PanRow :=
  let fixed := d.fixedArms pan
  (d.planEntries pan).filterMap (fun e =>
    let r := look d.sep.pairs e.1
    let g := (d.rowArms e.1 e.2).filter (fun x => decide (x.1 ∉ fixed))
    if r.flags.getLsbD 1 ∨ r.h < 0 ∨ g.isEmpty then none else some { g := g, h := r.h })

/-- floor(s_unif 2^15) of the members of a pan (R278, R279). -/
def Dev.panFallback (d : Dev) (pan : Nat) : List Nat :=
  let fixed := d.fixedArms pan
  let rows := d.panRows pan
  (List.zip (d.panArms pan) (look d.sep.pans pan).sHat).map (fun e =>
    if e.1 ∈ fixed then 0
    else rows.foldl (fun s r =>
      if r.g.any (fun (x : Nat × Int) => decide (x.1 = e.1)) then
        min s (r.h.toNat * 32768 / (r.g.foldl (fun (a : Int) (x : Nat × Int) => a + x.2) 0).toNat)
      else s) e.2)

/-- g · s of a row, with s as fractions. -/
def PanRow.sum (r : PanRow) (s : List (Nat × Int × Int)) : Int × Int :=
  r.g.foldl (fun acc x => match s.find? (fun y => decide (y.1 = x.1)) with
    | some (_, n, m) => (acc.1 * m + x.2 * n * acc.2, acc.2 * m)
    | none => acc) (0, 1)

/-- The trim of R279: in entry order, a row that the result breaks scales each of its arms. -/
def trimRows (rows : List PanRow) (s : List (Nat × Int × Int)) : List (Nat × Int × Int) :=
  rows.foldl (fun s r =>
    let (n, m) := r.sum s
    if r.h * m < n then s.map (fun y => if r.g.any (fun x => decide (x.1 = y.1)) then (y.1, y.2.1 * r.h * m, y.2.2 * n) else y)
    else s) s

/-- s_p,a of a usable run: the solution words in format q_x, within [0, ŝ], fixed arms at 0, trimmed, rounded down. -/
def Dev.panSolution (d : Dev) (pan qx : Nat) (x : List Int) : List Nat :=
  let fixed := d.fixedArms pan
  let start := ((List.zip (d.panArms pan) (look d.sep.pans pan).sHat).zipIdx).map (fun e =>
    let v := clampInt 0 ((e.1.2 * 2 ^ qx / 32768 : Nat) : Int) (x.getD e.2 0)
    (e.1.1, if e.1.1 ∈ fixed then 0 else v, (2 ^ qx : Int)))
  (trimRows (d.panRows pan) start).map (fun y => (y.2.1 * 32768 / y.2.2).toNat)

/-- s_sep is staged for every configured arm: the least s_p,a over its pans with enabled planners, for B_{k+1} (R279). -/
def Dev.stageSep (d : Dev) : Dev :=
  let pans := d.panList.filter (fun pan => decide ((look d.sep.planners pan).enable = 1))
  d.mapArms (fun a x =>
    let v := pans.foldl (fun m pan => match (List.zip (d.panArms pan) (look d.sep.pans pan).sPan).find?
        (fun e => decide (e.1 = a)) with
      | some e => min m e.2
      | none => m) 0x8000
    { x with sSepNext := some (d.bNext, v) })

/-- The outcome of a pan's time-scaling problem (R279): a usable solution, the fallback where it was written, else 0. -/
def Dev.applyPan (d : Dev) (t pan : Nat) (sol : Option (Nat × List Int)) (written : Bool) : Dev :=
  let v := match sol with
    | some (qx, x) => d.panSolution pan qx x
    | none => if written then d.panFallback pan else (d.panArms pan).map (fun _ => 0)
  let d1 := d.onSep (fun s => { s with pans := upd s.pans pan (fun x => { x with
    sPan := v, flags := if sol.isNone then x.flags ||| 4 else x.flags &&& 0xFB }) })
  let d2 := if sol.isNone then d1.sepNotice t 5 pan false (32 + pan) false else d1
  d2.stageSep

/-- SET_PAN_PLANNER at its boundary: the firmware creates the pan's problem, or removes it, and arms in no pan with an enabled
planner get 0x8000 (R222, R279). -/
def Dev.applyPanPlanner (d : Dev) (p : SetPanPlanner) : Dev :=
  let i := p.pan.toNat
  let d1 := d.onSep (fun x => { x with planners := put x.planners i p })
  if p.enable = 1 then d1.makeProblem (32 + i) else (d1.dropProblem (32 + i)).stageSep

/-! ### GET commands (R282, R284) -/

/-- GET_PAN_STATE. -/
def semGetPanState (h : Hdr) (p : GetPanState) : Sem where
  op := 0x0610
  lenOk := h.length = 4
  link := .both
  range := fun _ => within 0 63 p.pan && p.reserved == 0
  cond := fun d => firstFail [(!d.isArbiter, .retired)]
  eff := fun d =>
    let i := p.pan.toNat
    let x := look d.sep.pans i
    let st := match look d.solver.problems (32 + i) with
      | some q => q.res.status
      | none => 0
    (d, some (.ok, leBytes 8 x.stamp ++ leBytes 1 (((look d.safety.pans i).req.toNat % 4) + (x.flags.toNat / 4 % 4) * 4) ++ [0]
      ++ wordBytes x.nearest ++ intBytes 4 x.d ++ intBytes 4 x.sp ++ intBytes 4 x.dIsl ++ wordBytes st ++ [0, 0]
      ++ (List.range 12).flatMap (fun k => leBytes 2 (x.sPan.getD k 0))))

/-- GET_PAIR_RESULT. -/
def semGetPairResult (h : Hdr) (p : GetPairResult) : Sem where
  op := 0x0611
  lenOk := h.length = 4
  link := .both
  range := fun _ => within 0 8191 p.entry && p.reserved == 0
  cond := fun d => firstFail [(!d.isArbiter, .retired)]
  eff := fun d =>
    let x := look d.sep.pairs p.entry.toNat
    (d, some (.ok, [x.d, x.sp, x.h, x.vr, x.vo, x.gA, x.gB].flatMap (intBytes 4) ++ wordBytes x.flags ++ [x.pipe, 0]
      ++ leBytes 8 x.stamp))

/-- The code of an object's state (R284). -/
def ObjPhase.code : ObjPhase → Nat
  | .unbound => 0 | .empty => 1 | .valid => 2 | .lost => 3 | .stale => 4

/-- An object record as bytes (R263). -/
def ObjRec.bytes (r : ObjRec) : List Byte :=
  [r.kind, r.flags, 0, 0] ++ r.p0.flatMap (intBytes 4) ++ r.p1.flatMap (intBytes 4) ++ intBytes 4 r.radius
    ++ r.v.flatMap (intBytes 4) ++ [0, 0, 0, 0]

/-- GET_OBJECT_STATE. -/
def semGetObjectState (h : Hdr) (p : GetObjectState) : Sem where
  op := 0x0612
  lenOk := h.length = 4
  link := .both
  range := fun _ => p.reserved == 0
  cond := fun d => firstFail [(!d.isArbiter, .retired)]
  eff := fun d =>
    let o := p.object.toNat
    let x := look d.sep.objs o
    (d, some (.ok, [(d.objSource o).source, BitVec.ofNat 8 x.phase.code, 0, 0] ++ leBytes 8 x.now.stamp ++ x.now.bytes))

def execGetPanState (h : Hdr) (p : GetPanState) (s : State) : Host.Outcome State Fault Refusal :=
  s.act (runCmd (semGetPanState h p) h)

def execGetPairResult (h : Hdr) (p : GetPairResult) (s : State) : Host.Outcome State Fault Refusal :=
  s.act (runCmd (semGetPairResult h p) h)

def execGetObjectState (h : Hdr) (p : GetObjectState) (s : State) : Host.Outcome State Fault Refusal :=
  s.act (runCmd (semGetObjectState h p) h)

end Sys2Proof.Machine
end

