-- ==== Sys2Proof/Machine/DeckMotion.lean ====
section
/-! DEFINITION. Deck motion and ballast coupling (spec/13_deck_motion_ballast.md): motion-sensor ports, fusion, prediction, the deck
term of time scaling, lifts, ballast, and the commands of class 0x07. Formulas are exact on rationals; words are rounded as
Config.rounds says where the spec states no rounding (log entry 144). -/

namespace Sys2Proof.Machine

/-- 10 ms in LSB. -/
def ms10 : Nat := 10240000

/-- One second in LSB. -/
def second : Nat := 1024000000

/-- A notice of class 0x07, with arm and req_id (R304). -/
def Dev.deckNotice (d : Dev) (t code arm : Nat) (req : BitVec 16) (journalled : Bool) (items : List Byte := [0, 0, 0, 0]) :
    Dev :=
  d.notice 3 0 t (BitVec.ofNat 16 (0x0700 + code)) (BitVec.ofNat 32 (arm % 256 + req.toNat * 65536)) journalled items

/-! ### Motion-sensor ports (R285, R286) -/

/-- A port changed by a function. -/
def Dev.onPort (d : Dev) (i : Nat) (f : MotionPort → MotionPort) : Dev :=
  d.onDeck (fun k => { k with ports := k.ports.modify i f })

/-- A port of the device. -/
def Dev.port (d : Dev) (i : Nat) : MotionPort := d.deck.ports.getD i default

/-- The enabled configuration of a port in service. -/
def Dev.portCfg (d : Dev) (i : Nat) : Option ConfigMotionPort :=
  match (d.port i).cfg with
  | some c => if c.enable = 1 ∧ !d.isRetired 8 i then some c else none
  | none => none

/-- An edge of DRDY: a read starts at it, or it is an overrun (R285). -/
def Dev.drdyEdge (d : Dev) (t i : Nat) : Dev :=
  match d.portCfg i with
  | none => d
  | some _ =>
    if d.power.mode = .dormant ∨ d.power.mode = .boot then d
    else if (d.port i).reading then (d.wakeDisp t).faultEvent 8 i t
    else ((d.wakeDisp t).startDomain t 8).onPort i (fun p => { p with reading := true, edge := t })

/-- MSN_DRDY_EDGE (R285). -/
def execMsnDrdyEdge (t : Nat) (port : Fin 2) (s : State) : Host.Outcome State Fault Refusal :=
  s.act (fun d => (d.advance t).drdyEdge t port.val)

/-- One bit step of a CRC of `w` bits, most significant bit first. -/
def crcMsbStep {w : Nat} (poly c : BitVec w) : BitVec w := if c.getLsbD (w - 1) then (c <<< 1) ^^^ poly else c <<< 1

/-- A CRC of `w` bits, not reflected. -/
def crcMsb {w : Nat} (poly init : BitVec w) (bs : List Byte) : BitVec w :=
  bs.foldl (fun c b => (List.range 8).foldl (fun c _ => crcMsbStep poly c) (c ^^^ (BitVec.ofNat w (b.toNat * 2 ^ (w - 8))))) init

/-- The check of a sample (R286). -/
def sampleOk (check : BitVec 8) (data copy : List Byte) : Bool :=
  let n := data.length
  if check = 1 then crcMsb (0x07 : BitVec 8) 0 (data.take (n - 1)) == rd 8 data (n - 1)
  else if check = 2 then
    (crcMsb (0x1021 : BitVec 16) 0xFFFF (data.take (n - 2))).toNat == (rd 8 data (n - 2)).toNat * 256 + (rd 8 data (n - 1)).toNat
  else data == copy

/-- A field of a sample: 16 or 32 bits, signed, in the port's byte order. -/
def sampleField (c : ConfigMotionPort) (data : List Byte) (i : Nat) : Int :=
  let n := if c.width.getLsbD 0 then 4 else 2
  let raw := (data.drop (c.offsets.getD i 0).toNat).take n
  let bs := if c.width.getLsbD 1 then raw.reverse else raw
  (BitVec.ofNat (8 * n) (leNat bs)).toInt

/-- The rates and forces of a sample are within their limits: rate_scale is in 2^-16 mrad/s and force_scale in 2^-16 mm/s² per
count. -/
def sampleInRange (c : ConfigMotionPort) (v : List Int) : Bool :=
  (v.take 3).all (fun x => decide (x.natAbs * c.rateScale.toNat * 256 ≤ c.rateMax.toNat * 1000))
    && (v.drop 3).all (fun x => decide (x.natAbs * c.forceScale.toNat ≤ c.fMax.toNat * 1000))

/-- The rates in rad/s and forces in m/s² of a sample, rotated into the deck frame (R287 step 1). -/
def portVectors (c : ConfigMotionPort) (v : List Int) : List Rat × List Rat :=
  let q := c.mount.map (deckWord 30)
  (qRot q ((v.take 3).map (fun x => ofWord 16 (x * c.rateScale.toNat) / 1000)),
    qRot q ((v.drop 3).map (fun x => ofWord 16 (x * c.forceScale.toNat) / 1000)))

/-- A good sample of a port at the deck reference point: the lever arm is taken out with the angular acceleration that follows from
the port's sample before it, which is 0 at the first (R287 step 2). -/
def MotionPort.take (p : MotionPort) (c : ConfigMotionPort) (lever : List Rat) (v : List Int) : MotionPort :=
  let (w, f) := portVectors c v
  let dt := match p.lastGood with
    | some g => secs ((p.edge : Int) - g)
    | none => 0
  let alpha := if p.rate.isEmpty ∨ dt = 0 then [0, 0, 0] else rScale (1 / dt) (rSub w p.rate)
  { p with lastGood := some p.edge, silence := p.edge, sample := v, rate := w, alpha := alpha, used := false
           force := rSub f (rAdd (rCross alpha lever) (rCross w (rCross w lever))) }

/-- r_m of a port in m. -/
def Dev.lever (d : Dev) (i : Nat) : List Rat :=
  match d.deck.cfg with
  | some c => (List.range 3).map (fun k => deckWord 20 (c.lever.getD (3 * i + k) 0))
  | none => [0, 0, 0]

/-- A read ends: the sample, with the stamp of its edge, is good or discarded (R286); the first good one starts fusion. -/
def Dev.readDone (d : Dev) (t i : Nat) (data copy : List Byte) : Dev :=
  let p := d.port i
  match p.cfg with
  | none => d
  | some c =>
    if !p.reading then d
    else
      let v := (List.range 6).map (sampleField c data)
      let d1 := d.onPort i (fun q => { q with reading := false })
      if decide (data.length = c.nBytes.toNat) && sampleOk c.check data copy && sampleInRange c v then
        ((d1.onPort i (fun q => q.take c (d.lever i) v)).onDeck (fun k =>
          { k with started := if k.cfg.isSome ∧ k.started.isNone then some p.edge else k.started })).fire t p.edge (1 + i)
      else d1.faultEvent 8 i t

/-- MOTION_READ_DONE (R286). -/
def execMotionReadDone (t : Nat) (port : Fin 2) (data copy : List Byte) (s : State) : Host.Outcome State Fault Refusal :=
  s.act (fun d => (d.advance t).readDone t port.val data copy)

/-- 10 ms without a good sample count one event, and every further 10 ms another (R286). -/
def Dev.portSilence (d : Dev) (t i : Nat) : Dev :=
  match d.portCfg i with
  | none => d
  | some _ =>
    if (d.port i).silence + ms10 ≤ t then (d.faultEvent 8 i t).onPort i (fun p => { p with silence := p.silence + ms10 }) else d

/-- MOTION_PORT_SILENCE (R286). -/
def execMotionPortSilence (t : Nat) (port : Fin 2) (s : State) : Host.Outcome State Fault Refusal :=
  s.act (fun d => (d.advance t).portSilence t port.val)

/-! ### The deck state (R287 to R290) -/

/-- A port in service has delivered a good sample within a time before an instant. -/
def Dev.portGood (d : Dev) (i t within_ : Nat) : Bool :=
  (d.portCfg i).isSome && (match (d.port i).lastGood with
    | some g => decide (g ≤ t) && decide (t ≤ g + within_)
    | none => false)

/-- A span has passed since fusion started. -/
def Dev.fusedFor (d : Dev) (b span : Nat) : Bool :=
  match d.deck.started with
  | some s => decide (s + span ≤ b)
  | none => false

/-- VALID of R288 at an instant. -/
def Dev.deckValid (d : Dev) (b : Nat) : Bool :=
  match d.deck.cfg with
  | some c => (d.portGood 0 b ms10 || d.portGood 1 b ms10) && d.fusedFor b (c.tauC.toNat * second)
  | none => false

/-- The notices of a fall of VALID or PRED_VALID (R304). -/
def Dev.deckFalls (old d : Dev) (t : Nat) : Dev :=
  let d1 := if old.deck.est.valid ∧ !d.deck.est.valid then d.deckNotice t 1 0 0 true else d
  if old.deck.est.pred ∧ !d.deck.est.pred then d1.deckNotice t 2 0 0 false else d1

/-- The mean of vectors of three. -/
def meanOf (l : List (List Rat)) : List Rat := rScale (1 / (l.length : Rat)) (l.foldl rAdd [0, 0, 0])

/-- One update of the estimate by what the ports gave (R287 step 4): the attitude is integrated from the rates and corrected
towards the one that the force implies, by Δt / τ_c; the heave is the vertical force less g, integrated twice through the
high-pass. The first sample gives the attitude that its force implies (log entry 150). -/
def Fused.next (prev : Option Fused) (c : ConfigDeck) (stamp : Nat) (w a f : List Rat) : Fused :=
  let g := fun (v : List Rat) i => v.getD i 0
  let phi0 := Config.atan2 (-(g f 1)) (g f 2)
  let theta0 := Config.atan2 (-(g f 0)) (Config.root (g f 1 * g f 1 + g f 2 * g f 2))
  match prev with
  | none => { stamp := stamp, phi := phi0, theta := theta0, omega := w, alpha := a, force := f }
  | some p =>
    let dt := secs ((stamp : Int) - p.stamp)
    let k := dt / (c.tauC.toNat : Rat)
    let phi1 := p.phi - g w 0 * dt
    let theta1 := p.theta + g w 1 * dt
    let phi := phi1 + k * (phi0 - phi1)
    let theta := theta1 + k * (theta0 - theta1)
    let (k1, k2) := Config.heaveFilter c.tH.toNat
    let vz := p.vz + (rDot f (upFrom (gravityAt phi theta)) - gravity - k1 * p.vz - k2 * p.z) * dt
    { stamp := stamp, phi := phi, theta := theta, z := p.z + vz * dt, vz := vz, omega := w, alpha := a, force := f }

/-- FUSION on a good sample of port `i` (R287, R322): the ports in service with a good sample within the last 2 ms are averaged. -/
def Dev.fuseSample (d : Dev) (i : Nat) : Dev :=
  match d.deck.cfg, (d.port i).lastGood with
  | some c, some stamp =>
    if (d.port i).used then d
    else
      let near := (List.range 2).filter (fun j => (d.portCfg j).isSome && !(d.port j).rate.isEmpty && (match (d.port j).lastGood with
        | some g => decide (stamp ≤ g + 2048000)
        | none => false))
      let m := fun (f : MotionPort → List Rat) => meanOf (near.map (fun j => f (d.port j)))
      let new := Fused.next d.deck.fused.head? c stamp (m (·.rate)) (m (·.alpha)) (m (·.force))
      let old := d.deck.fused.span (fun f => decide (d.bk < f.stamp))
      (d.onPort i (fun p => { p with used := true })).onDeck (fun k =>
        { k with fused := if near.isEmpty then k.fused else new :: old.1 ++ old.2.take 1 })
  | _, _ => d

/-- A record word of a number, with `q` fraction bits. -/
def deckBits (place q : Nat) (x : Rat) : BitVec 32 := BitVec.ofInt 32 (Config.rounds place (x * 2 ^ q))

/-- The numbers of the record at B_k: the last sample's estimate stamped at or before B_k, propagated there at constant angular and
linear acceleration, with the heave speed there (R288). -/
def Fused.at_ (f : Fused) (b : Nat) : DeckMotion × Rat :=
  let g := gravityAt f.phi f.theta
  let m : DeckMotion := { phi := f.phi, theta := f.theta, z := f.z, omega := f.omega, alpha := f.alpha
                          aRef := rAdd f.force g, gD := g }
  let dt := secs ((b : Int) - f.stamp)
  (m.after f.vz dt, f.vz + rDot m.aRef (upFrom g) * dt)

/-- The mean of what was kept since an instant, in both components. -/
def meanSince (l : List (Nat × Rat × Rat)) : Rat × Rat :=
  (rSum (l.map (·.2.1)) / (l.length : Rat), rSum (l.map (·.2.2)) / (l.length : Rat))

/-- A window of T_avg seconds with a new value. -/
def window (l : List (Nat × Rat × Rat)) (b tAvg : Nat) (v : Rat × Rat) : List (Nat × Rat × Rat) :=
  (b, v) :: l.filter (fun e => decide (b < e.1 + tAvg * second) && decide (e.1 < b))

/-! ### Prediction (R289, R290) -/

/-- The Hann window over 1,024 values. -/
def hann (n : Nat) : Rat := (1 - cosTurn (frac n 1024)) / 2

/-- The spectrum of 1,024 windowed values, oldest first, less their mean, at bin `b` of 1/64 Hz. -/
def spectrum (x : List Rat) (mean : Rat) (b : Nat) : Rat × Rat :=
  let term := fun (f : Rat → Rat) => rSum (x.mapIdx (fun n v => hann n * (v - mean) * f (frac (b * n) 1024)))
  (term cosTurn, -term sinTurn)

/-- The mean and the 4 largest spectral peaks between 0.02 Hz and 1 Hz, refined (R289 step 2). -/
def fitPart (x : List Rat) : Rat × List Wave :=
  let mean := rSum x / (x.length : Rat)
  let s := (List.range 66).map (spectrum x mean)
  let at_ := fun b => s.getD b (0, 0)
  let pow := fun b => (at_ b).1 * (at_ b).1 + (at_ b).2 * (at_ b).2
  let peaks := ((List.range 65).drop 2).filter (fun b => decide (pow (b - 1) ≤ pow b) && decide (pow (b + 1) < pow b))
  let top := (peaks.mergeSort (fun a b => decide (pow b ≤ pow a))).take 4
  (mean, top.map (fun b =>
    let r := Config.refinePeak ([b - 1, b, b + 1].flatMap (fun i => [(at_ i).1, (at_ i).2]))
    { amp := r.1, freq := ((b : Rat) + r.2.1) / 64, phase := r.2.2 }))

/-- The 16 Hz values of one quantity, newest first, as numbers. -/
def Deck.series (k : Deck) (i : Nat) : List Rat :=
  k.vals.map (fun v => if i = 0 then ofWord 24 v.1 else if i = 1 then ofWord 24 v.2.1 else ofWord 20 v.2.2)

/-- PREDICT at 16 Hz (R289, R290): the deck state joins the window, and the model's prediction for 2 s later is kept. -/
def Dev.predictValue (d : Dev) : Dev :=
  d.onDeck (fun k =>
    let e := k.est
    let k1 := { k with vals := (((e.angles.getD 0 0).toInt, (e.angles.getD 1 0).toInt, e.z.toInt) :: k.vals).take 1024, valAt := e.stamp }
    match k.model with
    | some m => { k1 with preds := (((m.at_ 0 (e.stamp + 2 * second : Nat)).1, (m.at_ 1 (e.stamp + 2 * second : Nat)).1) :: k.preds).take 160 }
    | none => k1)

/-- PREDICT refits its model (R289), once the window is full. -/
def Dev.predictFit (d : Dev) : Dev :=
  if d.deck.vals.length < 1024 then d
  else d.onDeck (fun k => { k with
    model := some { since := k.valAt - 1023 * 64000000, parts := (List.range 3).map (fun i => fitPart (k.series i).reverse) } })

/-- q over the last 8 s, in Q1.15 (R290): 0 until 8 s of values have predictions; free where the values do not move, for which the
rule states none. -/
def Deck.quality (k : Deck) (free : Nat) : Nat :=
  if k.preds.length < 160 then 0
  else
    let part := fun (i : Nat) (p : List Rat) =>
      let v := (k.series i).take 128
      let mean := rSum v / 128
      (rSum (List.zipWith (fun x y => (x - y) * (x - y)) v p), rSum (v.map (fun x => (x - mean) * (x - mean))))
    let p := k.preds.drop 32
    let a := part 0 (p.map Prod.fst)
    let b := part 1 (p.map Prod.snd)
    if a.2 + b.2 = 0 then free % 0x8001
    else (clampInt 0 0x8000 (Config.rounds 4 (2 ^ 15 * max 0 (1 - (a.1 + b.1) / (a.2 + b.2))))).toNat

/-- A vendor kernel has a core in service (R324). -/
def Dev.vendorRuns (d : Dev) (kernel : Nat) : Bool :=
  match d.sig.vendor.getD (kernel - 1) none with
  | some c => !d.isRetired 5 c
  | none => false

/-- The estimate at B_k (R288, R290). Before the first sample its numbers stand as they are. -/
def Dev.deckEstimate (d : Dev) (t : Nat) : Dev :=
  match d.deck.cfg with
  | none => d
  | some c =>
    if d.power.mode = .shadow ∨ d.power.mode = .dormant ∨ d.power.mode = .boot then d
    else
      let b := d.bk
      let v := d.deckValid b
      let q := d.deck.quality (Config.freeNat d.fresh)
      let pv := v && decide (c.qMin.toNat * 128 ≤ q) && decide (1024 ≤ d.deck.vals.length) && d.vendorRuns 2
      let two := d.portGood 0 b 2048000 && d.portGood 1 b 2048000
      let flags := BitVec.ofNat 16 (bit v + 2 * bit pv + 4 * bit (!two) + 8 * bit (!d.fusedFor b (c.tAvg.toNat * second)))
      let old := { d.deck.est with stamp := b, flags := flags, quality := BitVec.ofNat 16 q }
      let d1 := d.draw 1
      Dev.deckFalls d (match d.deck.fused.find? (fun f => decide (f.stamp ≤ b)) with
        | none => d1.onDeck (fun k => { k with est := old })
        | some f =>
          let (m, vz) := f.at_ b
          let means := window d.deck.means b c.tAvg.toNat (m.phi, m.theta)
          let s := meanSince means
          d1.onDeck (fun k => { k with
            heaveV := vz, means := means
            est := { old with
              angles := [deckBits 5 24 m.phi, deckBits 5 24 m.theta, deckBits 5 24 (m.omega.getD 2 0)], z := deckBits 5 20 m.z
              omega := m.omega.map (deckBits 5 24), alpha := m.alpha.map (deckBits 5 24), aRef := m.aRef.map (deckBits 5 16)
              gD := m.gD.map (deckBits 5 16), phiS := deckBits 5 24 s.1, thetaS := deckBits 5 24 s.2 } })) t

/-- A kernel that no core runs leaves its outputs invalid (R324): FUSION's VALID, PREDICT's PRED_VALID. -/
def Dev.deckMissing (d : Dev) (t : Nat) : Dev :=
  if d.power.mode = .shadow then d
  else
    let keep : BitVec 16 := if !d.vendorRuns 1 then 0xFFFC else if !d.vendorRuns 2 then 0xFFFD else 0xFFFF
    Dev.deckFalls d (d.onDeck (fun k => { k with est := { k.est with flags := k.est.flags &&& keep } })) t

/-- VALID falls when no port has delivered a good sample for 10 ms (R288); in SHADOW fusion follows the mirror (R303). -/
def Dev.deckTimeout (d : Dev) (t : Nat) : Dev :=
  if d.deck.est.valid ∧ !d.deckValid t ∧ d.power.mode ≠ .shadow then
    Dev.deckFalls d (d.onDeck (fun k => { k with est := { k.est with flags := k.est.flags &&& 0xFFFC } })) t
  else d

/-- DECK_INVALID_TIMEOUT (R288). -/
def execDeckInvalidTimeout (t : Nat) (s : State) : Host.Outcome State Fault Refusal :=
  s.act (fun d => (d.advance t).deckTimeout t)

/-! ### The load frame (R292) -/

/-- The load frame is fresh at an instant. -/
def Dev.loadFresh (d : Dev) (t : Nat) : Bool :=
  match d.deck.loadDef, d.deck.load with
  | some c, some p => decide (t ≤ p.stamp + c.loadAge.toNat)
  | _, _ => false

/-- The tracker's pose arrives: the body of an APP frame of app 3. -/
def Dev.loadPose (d : Dev) (b : List Byte) : Dev :=
  d.onDeck (fun k => { k with load := some { stamp := (rd 64 b 0).toNat, pose := rdSs b 8 13 }, loadSaid := false })

/-- The latest t_e for which the load frame is used: B_{k+1} and the longest t_lead of an arm (R291, log entry 151). -/
def Dev.latestUse (d : Dev) : Nat := d.bNext + d.armList.foldl (fun m a => max m (d.tLead a)) 0

/-- The load frame became stale: it is judged at the latest t_e, and at the present instant. -/
def Dev.loadStale (d : Dev) (t : Nat) : Dev :=
  if d.deck.loadDef.isSome ∧ d.deck.load.isSome ∧ !d.deck.loadSaid ∧ !d.loadFresh (max t d.latestUse) then
    (d.onDeck (fun k => { k with loadSaid := true })).deckNotice t 3 0 0 false
  else d

/-- LOAD_FRAME_STALE (R292). -/
def execLoadFrameStale (t : Nat) (s : State) : Host.Outcome State Fault Refusal := s.act (fun d => (d.advance t).loadStale t)

/-! ### Lifts (R297, R298) -/

/-- ΔM_h,L and ΔM_t,L of a lift, in LSB 2^-20 kg m. -/
def Lift.moments (l : Lift) : Int × Int :=
  let c := l.p.centres.map BitVec.toInt
  (l.p.mass.toNat * (c.getD 4 0 - c.getD 1 0), l.p.mass.toNat * (c.getD 3 0 - c.getD 0 0))

/-- ΔM_b from the reported tank masses, heel and trim. -/
def Dev.ballastMoments (d : Dev) (l : Lift) : Int × Int :=
  match d.deck.ballast, d.deck.status with
  | some c, some st =>
    (List.range c.count.toNat).foldl (fun a i =>
      let dm := st.tanks.getD i 0 - l.tankRef.getD i 0
      (a.1 + dm * (c.tanks.getD (4 * i + 1) 0).toInt, a.2 + dm * (c.tanks.getD (4 * i) 0).toInt)) (0, 0)
  | _, _ => (0, 0)

/-- An end angle, times Δ GM, in LSB 2^-24 rad, with Δ GM: both exact (R298 step 2). -/
def endAngle (ref moment : Int) (disp gm : BitVec 32) : Int × Int :=
  let den : Int := 1000 * disp.toNat * gm.toNat
  (ref * den + moment * 2 ^ 24, den)

/-- The ballast status is fresh at an instant (R301). -/
def Dev.ballastFresh (d : Dev) (b : Nat) : Bool :=
  match d.deck.ballast, d.deck.status with
  | some c, some st => decide (b ≤ st.stamp + c.ballastAge.toNat)
  | _, _ => false

/-- |x / den| lies above, or not above, a limit in LSB 2^-16 rad. -/
def exceeds (x : Int × Int) (lim : Int) : Bool := decide (lim * 256 * x.2 < x.1.natAbs)

/-- The running move of an arm. -/
def Arm.running (a : Arm) : Option QMove := (a.runs.head?).map (·.move)

/-- The lift has started: its first move runs or has run, also as the second of a blend; or the first is gone while the last is
still to come or is retired, where the lift was declared during one of its later moves. -/
def Dev.liftStarted (d : Dev) (a : Nat) (l : Lift) : Bool :=
  let arm := look d.arms a
  let first := fun (m : QMove) => m.id == l.p.firstId
  let last := fun (m : QMove) => m.id == l.p.lastId
  l.started || arm.runs.any (fun r => first r.move) || arm.done.any first
    || (!arm.queue.any first && arm.runs.any (fun r => last r.move))
    || (!arm.queue.any first && !arm.runs.isEmpty && arm.queue.any last)
    || (!arm.queue.any first && arm.done.any last)

/-- The arm's one running move has just started: it stands at τ = 0. -/
def Arm.atStart (a : Arm) : Bool :=
  match a.runs with
  | [r] => decide (r.tau = 0)
  | _ => false

/-- The interlock of an arm's lift at a boundary, and the heel stop (R298 steps 2 to 6). A first move that starts under a holding
interlock stands at τ = 0 at once; in every other case s_deck goes through R131 (R295, log entry 97). A displacement of 0 leaves
the end angles free. -/
def Dev.evalLift (d : Dev) (b a : Nat) : Dev :=
  match look d.deck.lifts a, d.deck.vessel with
  | some l, some v =>
    let (mh, mt) := l.moments
    let (bh, bt) := d.ballastMoments l
    let phi := endAngle l.phiRef (mh + bh) v.displacement v.gmT
    let theta := endAngle l.thetaRef (mt + bt) v.displacement v.gmL
    let none_ := decide (v.displacement = 0)
    let phi' := if none_ then (Config.freeInt d.fresh, 1) else phi
    let theta' := if none_ then (Config.freeInt (d.fresh + 1), 1) else theta
    let late := l.p.flags.getLsbD 0 && !d.ballastFresh b
    let margin : Int := if l.holding then v.hyst.toNat else 0
    let hold := late || exceeds phi' (v.heelMax.toNat - margin) || exceeds theta' (v.trimMax.toNat - margin)
    let started := d.liftStarted a l
    let heel := decide ((v.heelStop.toNat : Int) * 256 < d.deck.est.phiS.toInt.natAbs)
    let l' : Lift := { l with phiEnd := rneDiv phi'.1 phi'.2.toNat, thetaEnd := rneDiv theta'.1 theta'.2.toNat, holding := hold
                              started := started, heelStop := heel && started }
    let d1 := (d.onDeck (fun k => { k with lifts := put k.lifts a (some l') })).draw (if none_ then 2 else 0)
    let d2 := if hold ∧ started ∧ !l.started ∧ (look d.arms a).atStart
      then d1.onArm a (fun x => x.standing true) else d1
    let d3 := if hold ∧ !l.holding then d2.deckNotice b 4 a 0 true
      else if !hold ∧ l.holding then d2.deckNotice b 5 a 0 true else d2
    if heel ∧ started ∧ !l.heelStop then d3.deckNotice b 6 a 0 true else d3
  | _, _ => d

/-- The arms with an open lift. -/
def Dev.liftArms (d : Dev) : List Nat := (d.deck.lifts.filter (fun e => e.2.isSome)).map Prod.fst

/-- Every open lift at a boundary; none is judged in SHADOW (R303). -/
def Dev.evalLifts (d : Dev) (b : Nat) : Dev :=
  if d.power.mode = .shadow then d else d.liftArms.foldl (fun d a => d.evalLift b a) d

/-- A lift closes. -/
def Dev.closeLift (d : Dev) (a : Nat) : Dev := d.onDeck (fun k => { k with lifts := put k.lifts a none })

/-- The lifts that close at a boundary: their last move is retired there, or FLUSH_QUEUE of their arm takes effect (R298 step
7); none in SHADOW (R303). -/
def Dev.closeLifts (d : Dev) (b : Nat) : Dev :=
  let flushed := fun a => (d.queueActs b).any (fun e => match e.2 with
    | .flush m _ => m.getLsbD a
    | _ => false)
  if d.power.mode = .shadow then d else d.liftArms.foldl (fun e a => match look d.deck.lifts a with
    | some l =>
      if flushed a ∨ (d.liftStarted a l ∧ (look d.arms a).done.any (fun m => m.id == l.p.lastId)) then e.closeLift a
      else e.onDeck (fun k => { k with lifts := upd k.lifts a (fun o => o.map (fun x =>
        { x with started := x.started || (look d.arms a).done.any (fun m => m.id == l.p.firstId) })) })
    | none => e) d

/-- BALLAST_STATUS_STALE (R301): the interlocks are judged anew where the status is stale. -/
def execBallastStatusStale (t : Nat) (s : State) : Host.Outcome State Fault Refusal :=
  s.act (fun d => let d1 := d.advance t
    if d1.ballastFresh t then d1 else d1.evalLifts t)

/-! ### The deck term (R293, R294) -/

/-- What forces s_deck of an arm to 0 (R294). -/
def Dev.deckForced (d : Dev) (a : Nat) : Bool :=
  let lim := look d.deck.limits a
  let lead := match lim with
    | some c => c.tLead.toNat
    | none => 0
  let frame := match (look d.arms a).running with
    | some m => match m.goal with
      | .cart f _ _ => f.toNat
      | .joint _ => 0
    | none => 0
  let est := d.deck.est
  (!est.valid && (decide (frame ≠ 0) || lim.isSome))
    || (decide (frame ≠ 0) && decide (0 < lead) && !est.pred)
    || (decide (frame = 2) && !d.loadFresh (d.bNext + lead))
    || (match look d.deck.lifts a with
      | some l => (l.holding && l.started && (look d.arms a).running.isSome) || l.heelStop
      | none => false)

/-- s_deck by f_pred in LSB 2^-16 m/s². -/
def deckScale (c : SetDeckLimits) (f : Nat) : Nat :=
  (clampInt 0 0x8000 ((32768 * ((c.fLim.toNat : Int) - f)) / ((c.fLim.toNat : Int) - c.fQuiet.toNat))).toNat

/-- |f|: the component in the deck plane of a_base - g_d at a point (R293). -/
def DeckMotion.planeForce (m : DeckMotion) (r : List Rat) : Rat :=
  let f := rSub (bodyAcc m.aRef m.omega m.alpha r) m.gD
  rNorm (f.take 2)

/-- The greatest |f| at a point over a horizon from a boundary, sampled at 16 Hz. -/
def PredModel.maxForce (p : PredModel) (yaw : Rat) (b horizon : Nat) (r : List Rat) : Rat :=
  (List.range (horizon / 64000000 + 1)).foldl (fun m i => max m ((p.motion yaw (b + 64000000 * i : Nat)).planeForce r)) 0

/-- |f| at a boundary joins those of the last 64 s; a smaller one before it can be the largest no more. -/
def joinForce (l : List (Nat × Rat)) (b : Nat) (v : Rat) : List (Nat × Rat) :=
  (b, v) :: l.filter (fun e => decide (v < e.2) && decide (b < e.1 + 64 * second))

/-- f_pred of an arm with deck limits in LSB 2^-16 m/s² (R293): by the predictor, or the largest |f| of the last 64 s. -/
def Dev.forceAhead (d : Dev) (a : Nat) (c : SetDeckLimits) : Nat :=
  let r := (d.chain a).base.p
  let f := match d.deck.est.pred, d.deck.model with
    | true, some m => m.maxForce (d.deck.est.motion.omega.getD 2 0) d.bk c.hS.toNat r
    | _, _ => maxAbs ((look d.deck.fHist a).map Prod.snd)
  (Config.rounds 6 (f * 2 ^ 16)).toNat

/-- The base moment of an arm about the centre of flotation, in the deck frame (R252, R297). -/
def Dev.baseMoment (d : Dev) (a : Nat) : List Rat :=
  let k := look d.kin a
  let c := match d.deck.vessel with
    | some v => [deckWord 20 v.xCf, deckWord 20 v.yCf, 0]
    | none => [0, 0, 0]
  let w := k.wrench.map (ofWord 10)
  rAdd (w.drop 3) (rCross (rSub (d.chain a).base.p c) (w.take 3))

/-- The mass moments of a period joined to their averages over T_avg (R297). -/
def Dev.massMoments (d : Dev) : Dev :=
  let w := (d.armList.filter (fun a => (look d.kin a).hasInertia)).foldl (fun s a => rAdd s (d.baseMoment a)) [0, 0, 0]
  d.onDeck (fun k =>
    let tAvg := match k.cfg with
      | some c => c.tAvg.toNat
      | none => 0
    let l := window k.moments d.bk tAvg (w.getD 0 0 / gravity, -(w.getD 1 0) / gravity)
    let m := meanSince l
    { k with moments := l, mH := Config.rounds 7 m.1, mT := Config.rounds 7 m.2 })

/-- s_deck is staged for every configured arm (R293, R294, R303), and the mass moments are averaged (R297). The base of an arm
without a model stands nowhere in the spec: its f is free. -/
def Dev.deckScales (d0 : Dev) : Dev :=
  if d0.power.mode = .shadow ∨ d0.power.mode = .dormant ∨ d0.power.mode = .boot then d0
  else
    let m := d0.deck.est.motion
    let d := d0.onDeck (fun k => { k with fHist := d0.armList.foldl (fun h a =>
      if (look k.limits a).isSome then upd h a (fun l => joinForce l d0.bk (m.planeForce (d0.chain a).base.p)) else h) k.fHist })
    let f := fun a c => if (look d.kin a).model.isSome then d.forceAhead a c else Config.freeNat (d.fresh + a) % 2147483648
    let d1 := d.mapArms (fun a x =>
      let v := if d.deckForced a then 0 else match look d.deck.limits a with
        | some c => deckScale c (f a c)
        | none => 0x8000
      { x with sDeckNext := some (d.bNext, v) })
    ((d1.onDeck (fun k => { k with
      fPred := d.armList.foldl (fun m a => match look k.limits a with
        | some c => put m a (f a c : Int)
        | none => m) k.fPred })).draw 16).massMoments

/-! ### Ballast (R299 to R302) -/

/-- A request is staged for the first cycle from then on; req_id counts from 1 and skips 0. -/
def Dev.stageBallast (d : Dev) (t arm until_ : Nat) (dm : List (BitVec 32)) : Dev :=
  let cycle := if t ≤ d.bk then d.bk else d.bNext
  d.onDeck (fun k => { k with
    toSend := some { reqId := k.nextReq, arm := arm, from_ := cycle, until_ := until_, dm := dm }
    reqArms := put k.reqArms k.nextReq.toNat arm
    nextReq := if k.nextReq = 0xFFFF then 1 else k.nextReq + 1 })

/-- The allocation is within the bounds of an automatic request (R302). -/
def Dev.ballastInBounds (d : Dev) (dm : List (BitVec 32)) : Bool :=
  match d.deck.bounds with
  | some c => dm.all (fun x => decide (x.toInt.natAbs ≤ c.dmTankMax.toNat))
      && decide (dm.foldl (fun a x => a + (max 0 x.toInt)) 0 ≤ (c.dmTotalMax.toNat : Int))
  | none => false

/-- Problem 96 ends (R299, R302) with the allocation `dm` of an arm's lift: a usable one is reported; the host's request waits for it, or at
AUTONOMOUS in RUN and HOLD the device sends its own within the bounds. Without bounds it behaves as at MECHANISM (R28). -/
def Dev.ballastEnd (d : Dev) (t arm : Nat) (usable : Bool) (status : BitVec 16) (dm : List (BitVec 32)) : Dev :=
  let host := d.deck.hostSend
  let d1 := d.onDeck (fun k => { k with allocStat := status, hostSend := none })
  if !usable then d1.deckNotice t 9 arm 0 false
  else
    let d2 := d1.onDeck (fun k => { k with alloc := dm })
    match host with
    | some v => d2.stageBallast t arm v dm
    | none =>
      if d2.time.policyForce = .autonomous ∧ d2.deck.bounds.isSome ∧ (d2.power.mode = .run ∨ d2.power.mode = .hold) then
        if d2.ballastInBounds dm then (d2.stageBallast t arm (Config.freeNat d2.fresh % 2 ^ 64) dm).draw 1
        else d2.deckNotice t 0x0A arm 0 true
      else d2

/-- The ballast status arrives: the body of an APP frame of app 2 (R301). -/
def Dev.ballastStatus (d : Dev) (t : Nat) (b : List Byte) : Dev :=
  let st : BallastStat := { reqId := rd 16 b 0, state := rd 8 b 2, stamp := (rd 64 b 4).toNat
                            tanks := (List.range 12).map (fun i => ((rd 32 b (12 + 4 * i)).toNat : Int)) }
  let bad := (st.state == 2 || st.state == 5) && (match d.deck.status with
    | some o => o.reqId != st.reqId || o.state != st.state
    | none => true)
  let d1 := d.onDeck (fun k => { k with status := some st })
  if bad then d1.deckNotice t 8 (look d.deck.reqArms st.reqId.toNat) st.reqId true else d1

/-! ### Commands (R305, R306) -/

/-- The condition of every command of class 0x07: none in the ARBITER role. -/
def Dev.deckCond (d : Dev) (l : List (Bool × Status)) : Option Status := firstFail ((!d.isArbiter, .retired) :: l)

/-- CONFIG_MOTION_PORT. -/
def semConfigMotionPort (h : Hdr) (p : ConfigMotionPort) : Sem where
  op := 0x0700
  lenOk := h.length = 52
  modes := [.ready]
  range := fun _ =>
    let w := if p.width.getLsbD 0 then 4 else 2
    within 0 1 p.port && within 0 1 p.enable && (p.spiMode == 0 || p.spiMode == 3) && within 1 3 p.check
      && within 1000 20000 p.clkKhz && within 8 32 p.nBytes && within 1 4 p.nCmd && p.width &&& 0xFC == 0 && p.reserved == 0
      && p.offsets.all (fun o => decide (o.toNat + w ≤ p.nBytes.toNat)) && quatOk (p.mount.map BitVec.toInt)
  cond := fun d => d.deckCond [(p.enable == 0 || !(d.domOff 7 || d.domOff 8), .range), (!d.isRetired 8 p.port.toNat, .retired)]
  eff := fun d => (d.await h.stamp (.configMotionPort h p), some (.ok, []))

/-- CONFIG_MOTION_PORT at its boundary. -/
def Dev.applyMotionPort (d : Dev) (b : Nat) (p : ConfigMotionPort) : Dev :=
  d.onPort p.port.toNat (fun _ => { cfg := some p, silence := b })

/-- CONFIG_DECK. -/
def semConfigDeck (h : Hdr) (p : ConfigDeck) : Sem where
  op := 0x0701
  lenOk := h.length = 32
  modes := [.ready]
  range := fun _ => within 10 600 p.tauC && within 5 100 p.tH && within 8 300 p.tAvg && p.reserved == 0
  cond := fun d => d.deckCond [(!d.domOff 7, .range)]
  eff := fun d => (d.await h.stamp (.configDeck h p), some (.ok, []))

/-- SET_VESSEL. -/
def semSetVessel (h : Hdr) (p : SetVessel) : Sem where
  op := 0x0702
  lenOk := h.length = 32
  modes := [.ready, .run, .hold]
  range := fun _ => p.gmT != 0 && p.gmL != 0 && decide (p.hyst.toNat < p.heelMax.toNat)
    && decide (p.heelMax.toNat ≤ p.heelStop.toNat) && p.reserved == 0
  cond := fun d => d.deckCond []
  eff := fun d => (d.await h.stamp (.setVessel h p), some (.ok, []))

/-- DEFINE_LOAD_FRAME. -/
def semDefineLoadFrame (h : Hdr) (p : DefineLoadFrame) : Sem where
  op := 0x0703
  lenOk := h.length = 12
  modes := [.ready]
  range := fun _ => within 0 7 p.channel && within 0 127 p.slot && within 0 1 p.enable && p.reserved == 0
  cond := fun d => d.deckCond []
  eff := fun d => (d.await h.stamp (.defineLoadFrame h p), some (.ok, []))

/-- DEFINE_LOAD_FRAME at its boundary. -/
def Dev.applyLoadFrame (d : Dev) (p : DefineLoadFrame) : Dev :=
  d.onDeck (fun k => { k with loadDef := if p.enable = 1 then some p else none, load := none, loadSaid := false })

/-- SET_DECK_LIMITS. -/
def semSetDeckLimits (h : Hdr) (p : SetDeckLimits) : Sem where
  op := 0x0704
  lenOk := h.length = 20
  modes := [.ready]
  range := fun _ => within 0 15 p.arm && p.reserved == 0 && decide (p.fQuiet.toNat < p.fLim.toNat)
    && within 256000000 2048000000 p.hS && within 0 102400000 p.tLead
  cond := fun d => d.deckCond []
  eff := fun d => (d.await h.stamp (.setDeckLimits h p), some (.ok, []))

/-- CONFIG_BALLAST. -/
def semConfigBallast (h : Hdr) (p : ConfigBallast) : Sem where
  op := 0x0710
  lenOk := h.length = 8 + 16 * p.count.toNat
  modes := [.ready]
  range := fun _ => within 1 12 p.count && p.reserved == 0
    && (List.range p.count.toNat).all (fun i => p.tanks.getD (4 * i + 3) 0 != 0)
  cond := fun d => d.deckCond [(!d.solverOff, .range), (d.mirrorRoom h.stamp (.configBallast h p), .range)]
  eff := fun d => (d.await h.stamp (.configBallast h p), some (.ok, []))

/-- CONFIG_BALLAST at its boundary: the firmware creates problem 96. -/
def Dev.applyBallast (d : Dev) (p : ConfigBallast) : Dev := (d.onDeck (fun k => { k with ballast := some p })).makeProblem 96

/-- SET_BALLAST_BOUNDS. -/
def semSetBallastBounds (h : Hdr) (p : SetBallastBounds) : Sem where
  op := 0x0711
  lenOk := h.length = 8
  modes := [.ready]
  cond := fun d => d.deckCond []
  eff := fun d => (d.await h.stamp (.setBallastBounds h p), some (.ok, []))

/-- An arm has an open lift, or one that opens at the next boundary. -/
def Dev.liftOpen (d : Dev) (a : Nat) : Bool :=
  (look d.deck.lifts a).isSome || d.waiting.any (fun w => match w.cmd with
    | .declareLift _ p => decide (p.arm.toNat = a)
    | _ => false)

/-- DECLARE_LIFT. -/
def semDeclareLift (h : Hdr) (p : DeclareLift) : Sem where
  op := 0x0712
  lenOk := h.length = 40
  modes := [.ready, .run, .hold]
  range := fun d => within 0 15 p.arm && (look d.arms p.arm.toNat).cfg.isSome && p.flags &&& 0xFE == 0 && p.mass != 0
    && p.reserved0 == 0 && p.reserved1 == 0
  cond := fun d => d.deckCond [(!p.flags.getLsbD 0 || d.deck.ballast.isSome, .range), (d.deck.vessel.isSome, .range),
    (!d.liftOpen p.arm.toNat, .busy)]
  eff := fun d => (d.await h.stamp (.declareLift h p), some (.ok, []))

/-- A lift opens at its boundary (R298 step 1); with BALLAST problem 96 is released (R299). -/
def Dev.openLift (d : Dev) (b : Nat) (p : DeclareLift) : Dev :=
  let l : Lift := { p := p, phiRef := d.deck.est.phiS.toInt, thetaRef := d.deck.est.thetaS.toInt
                    tankRef := match d.deck.status with
                      | some st => st.tanks
                      | none => [] }
  let d1 := d.onDeck (fun k => { k with lifts := put k.lifts p.arm.toNat (some l) })
  if d.power.mode ∉ [Mode.ready, .run, .hold] then d
  else if p.flags.getLsbD 0 then (d1.onDeck (fun k => { k with allocArm := p.arm.toNat })).fire b b 0x660 else d1

/-- CLOSE_LIFT. -/
def semCloseLift (h : Hdr) (p : CloseLift) : Sem where
  op := 0x0713
  lenOk := h.length = 4
  modes := [.ready, .run, .hold]
  range := fun d => within 0 15 p.arm && p.reserved == 0 && d.liftOpen p.arm.toNat
  cond := fun d => d.deckCond []
  eff := fun d => (d.await h.stamp (.closeLift h p), some (.ok, []))

/-- SEND_BALLAST_REQUEST. -/
def semSendBallastRequest (h : Hdr) (p : SendBallastRequest) : Sem where
  op := 0x0714
  lenOk := h.length = 8 + 4 * p.count.toNat
  modes := [.ready, .run, .hold]
  range := fun d => within 0 1 p.recompute && p.reserved == 0 && within 0 12 p.count && (match d.deck.ballast with
    | some c => if p.recompute = 1 then within 0 15 p.arm && d.liftOpen p.arm.toNat else p.count == c.count
    | none => false)
  cond := fun d => d.deckCond []
  eff := fun d => (d.await h.stamp (.sendBallastRequest h p), some (.ok, []))

/-- SEND_BALLAST_REQUEST at its boundary: the request is staged, or problem 96 is released first (R299, R302). -/
def Dev.applySendBallast (d : Dev) (b : Nat) (p : SendBallastRequest) : Dev :=
  if d.power.mode ∉ [Mode.ready, .run, .hold] then d
  else if p.recompute = 1 then
    (d.onDeck (fun k => { k with hostSend := some (b + p.validFor.toNat), allocArm := p.arm.toNat })).fire b b 0x660
  else d.stageBallast b p.arm.toNat (b + p.validFor.toNat) p.dm

/-- The deck state record as bytes (R288). -/
def DeckRec.bytes (r : DeckRec) : List Byte :=
  leBytes 8 r.stamp ++ wordsBytes (r.angles ++ [r.z] ++ r.omega ++ r.alpha ++ r.aRef ++ r.gD ++ [r.phiS, r.thetaS])
    ++ wordBytes r.flags ++ wordBytes r.quality

/-- GET_DECK_STATE: the record, then f_pred and s_deck of each arm. -/
def semGetDeckState (h : Hdr) : Sem where
  op := 0x0720
  lenOk := h.length = 0
  link := .both
  cond := fun d => d.deckCond []
  eff := fun d => (d, some (.ok, d.deck.est.bytes ++ (List.range 16).flatMap (fun a =>
    intBytes 4 (look d.deck.fPred a) ++ leBytes 4 (look d.arms a).sDeck)))

/-- The ballast status payload as bytes (R301). -/
def BallastStat.bytes (s : BallastStat) : List Byte :=
  wordBytes s.reqId ++ [s.state, 0] ++ leBytes 8 s.stamp ++ (List.range 12).flatMap (fun i => intBytes 4 (s.tanks.getD i 0))

/-- GET_HEEL_STATE. -/
def semGetHeelState (h : Hdr) (p : GetHeelState) : Sem where
  op := 0x0721
  lenOk := h.length = 4
  link := .both
  range := fun _ => within 0 15 p.arm && p.reserved == 0
  cond := fun d => d.deckCond []
  eff := fun d =>
    let k := d.deck
    let l := (look k.lifts p.arm.toNat).getD {}
    (d, some (.ok, intBytes 4 k.mH ++ intBytes 4 k.mT ++ intBytes 4 l.phiEnd ++ intBytes 4 l.thetaEnd
      ++ leBytes 1 (bit l.holding) ++ [0, 0, 0] ++ (List.range 12).flatMap (fun i => wordBytes (k.alloc.getD i 0))
      ++ wordBytes k.allocStat ++ [0, 0] ++ (k.status.getD {}).bytes))

def execConfigMotionPort (h : Hdr) (p : ConfigMotionPort) (s : State) : Host.Outcome State Fault Refusal :=
  s.act (runCmd (semConfigMotionPort h p) h)

def execConfigDeck (h : Hdr) (p : ConfigDeck) (s : State) : Host.Outcome State Fault Refusal :=
  s.act (runCmd (semConfigDeck h p) h)

def execSetVessel (h : Hdr) (p : SetVessel) (s : State) : Host.Outcome State Fault Refusal :=
  s.act (runCmd (semSetVessel h p) h)

def execDefineLoadFrame (h : Hdr) (p : DefineLoadFrame) (s : State) : Host.Outcome State Fault Refusal :=
  s.act (runCmd (semDefineLoadFrame h p) h)

def execSetDeckLimits (h : Hdr) (p : SetDeckLimits) (s : State) : Host.Outcome State Fault Refusal :=
  s.act (runCmd (semSetDeckLimits h p) h)

def execConfigBallast (h : Hdr) (p : ConfigBallast) (s : State) : Host.Outcome State Fault Refusal :=
  s.act (runCmd (semConfigBallast h p) h)

def execSetBallastBounds (h : Hdr) (p : SetBallastBounds) (s : State) : Host.Outcome State Fault Refusal :=
  s.act (runCmd (semSetBallastBounds h p) h)

def execDeclareLift (h : Hdr) (p : DeclareLift) (s : State) : Host.Outcome State Fault Refusal :=
  s.act (runCmd (semDeclareLift h p) h)

def execCloseLift (h : Hdr) (p : CloseLift) (s : State) : Host.Outcome State Fault Refusal :=
  s.act (runCmd (semCloseLift h p) h)

def execSendBallastRequest (h : Hdr) (p : SendBallastRequest) (s : State) : Host.Outcome State Fault Refusal :=
  s.act (runCmd (semSendBallastRequest h p) h)

def execGetDeckState (h : Hdr) (s : State) : Host.Outcome State Fault Refusal := s.act (runCmd (semGetDeckState h) h)

def execGetHeelState (h : Hdr) (p : GetHeelState) (s : State) : Host.Outcome State Fault Refusal :=
  s.act (runCmd (semGetHeelState h p) h)

end Sys2Proof.Machine
end

