-- ==== Sys2Proof/Machine/Templates.lean ====
section
/-! DEFINITION. The firmware's problems (spec/10_solver_array.md, R225, R227): the outer iterations, and the templates DLS_IK (R248,
R249), RNEA (R250 to R255), TS_QP (R278) and BALLAST (R299). A run is formed when it starts, from the state that it captures then
(R234); what its words, Jacobian and torques come to is its plan. The words of A and b are in the descriptor's formats; what a
template forms before them is exact, but for the stores of DLS_IK and RNEA in formats that the image records (Config.storeFormat) and
those of TS_QP and BALLAST that the spec does not name (Config.buildSat; log entry 152). -/

namespace Sys2Proof.Machine

/-! ### Outer iterations (R221, R225, R227) -/

/-- Exact values stored into format q, in order (R219). -/
def Calc.storeAll (c : Calc) (step q : Nat) (l : List Rat) : List Int × Calc :=
  l.foldl (fun acc x => let (w, c) := acc.2.store step (rneRat (x * 2 ^ q)); (acc.1 ++ [w], c)) ([], c)

/-- A saturated word of a store, or none, met in a step. -/
def Calc.met (c : Calc) (step : Nat) (o : Option Int) : Calc :=
  match o, c.ovf with
  | some w, none => { c with ovf := some (step, w) }
  | _, _ => c

/-- A run that has met this ends. -/
def Calc.over (c : Calc) : Bool := c.stop || c.ovf.isSome

/-- The inner steps of an iteration: factorise, solve, refine k_ref times. -/
def solveSystem (p : DefineProblem) (a b : List Int) (c : Calc) : List Int × Calc :=
  let (f, c1) := factorise p a c
  if c1.over then ([], c1)
  else
    let (x0, c2) := solveWith p f b 2 c1
    if c2.over then ([], c2) else (List.range p.kRef.toNat).foldl (fun y _ => refine p a b f y) (x0, c2)

/-- A template over its iterate σ: the system of an iteration, the step by the solution words in format q_x, the residual in format
q_r, and the words of the iterate as solution, in format q_x. -/
structure Template (σ : Type) where
  build : σ → σ × System
  step  : σ → List Int → Calc → σ × Calc
  norm  : σ → (a b x : List Int) → Calc → Int × Calc
  words : σ → List Int → Calc → List Int × Calc

/-- What the outer iterations came to; `seen` are the iterates at which the systems of the completed ones were built. -/
structure Ran (σ : Type) where
  plan : RunPlan := {}
  seen : List σ := []

/-- The words of a build step. -/
def storeSystem (p : DefineProblem) (m : System) (c : Calc) : List Int × List Int × Calc :=
  let (a, c1) := (c.met 0 m.sat).storeAll 0 p.qA.toNat m.a
  let (b, c2) := c1.storeAll 0 p.qB.toNat m.b
  (a, b, c2)

/-- At most `n` outer iterations. -/
def Template.loop {σ : Type} (t : Template σ) (p : DefineProblem) : Nat → σ → Calc → Ran σ → Ran σ
  | 0, _, c, r => { r with plan := { r.plan with arith := c } }
  | n + 1, s, c, r =>
    let stop := fun (c : Calc) => ({ r with plan := { r.plan with arith := c } } : Ran σ)
    let (s1, m) := t.build s
    let (a, b, c1) := storeSystem p m c
    if c1.over then stop c1
    else
      let (x, c2) := solveSystem p a b c1
      if c2.over then stop c2
      else
        let (s2, c3) := t.step s1 x c2
        let (v, c4) := t.norm s2 a b x c3
        let (w, c5) := t.words s2 x c4
        if c5.over then stop c5
        else
          let r1 : Ran σ := { plan := { r.plan with factors := (factorise p a c1).1.words, arith := c5, iters := r.plan.iters ++ [{ r := v, x := w, arith := c5 }] }
                              seen := r.seen ++ [s1] }
          if v ≤ p.tol.toInt then r1 else t.loop p n s2 c5 r1

/-- A run from its seed. The words of its first system are its input words, checked against their bounds (R221, log entry 152);
`c` is what the template has met before it. -/
def Template.run {σ : Type} (t : Template σ) (p : DefineProblem) (s : σ) (c : Calc) : Ran σ :=
  let (a, b, c1) := storeSystem p (t.build s).2 c
  let words := a ++ b
  if a.any (fun w => decide (p.boundA.toNat < w.natAbs)) || b.any (fun w => decide (p.boundB.toNat < w.natAbs))
  then { plan := { inRange := false, words := words, built := false } }
  else t.loop p p.outerCap.toNat s c { plan := { words := words, built := c1.ovf.isNone } }

/-! ### DLS_IK (R248, R249) -/

/-- The iterate is the joint positions; the solution is what they have moved by since the seed. Outside a Cartesian move (`cart`) the
first residual is 0, so that the run ends after one iteration. -/
def ikTemplate (c : ArmChain) (cart : Bool) (p : DefineProblem) (target : Pose) (seed : List Rat) : Template (List Rat) where
  build pos := (pos, c.ikSystem p.id.toNat target pos)
  step pos y k :=
    let (next, o) := c.ikStep p.id.toNat pos (y.map (ofWord p.qX.toNat))
    (next, k.met 2 o)
  norm pos _ _ _ k :=
    if !cart then (0, k)
    else
      let (v, o) := c.poseError p.id.toNat target pos none
      let (e, k1) := (k.met 4 o).storeAll 4 p.qR.toNat v
      (e.foldl (fun m x => max m x.natAbs) 0, k1)
  words pos _ k := k.storeAll 5 p.qX.toNat (rScale (1 / 2 ^ 24) (rSub pos seed))

/-- The Jacobian as words: rows x, y, z, rx, ry, rz, Q8.24. -/
def ArmChain.jacWords (c : ArmChain) (pos : List Rat) : List Int :=
  (matT 6 (c.columns pos)).flatten.map (fun x => sat32 (rneRat (x * 2 ^ 24)))

/-- The run of DLS_IK of an arm. Outside a Cartesian move the target is the pose of the positions for B_{k+1} (R248). -/
def Dev.ikPlan (d : Dev) (t a : Nat) (p : DefineProblem) : RunPlan :=
  let c := d.chain a
  let s := d.startPositions a
  let seed := s.map (fun (x : Int) => (x : Rat))
  let target := match d.poseAhead a with
    | some f => f
    | none => c.fk ((d.jointsAhead t a).map (fun j => (j.cmd : Rat)))
  let m := (ikTemplate c (d.poseAhead a).isSome p target seed).run p seed {}
  { m.plan with ik := { jac := m.seen.map c.jacWords, poseT := target.words, jpos := s } }

/-! ### RNEA (R250 to R255) -/

/-- The motion of an arm's base in the base frame and the payload, with the joints for B_{k+1} (R247, R250). Without a valid deck estimate the deck
stands still and g is along its normal. -/
def Dev.rneaIn (d : Dev) (t a : Nat) (qx : Nat) : RneaIn :=
  let c := d.chain a
  let m : DeckMotion := if d.deck.est.valid then d.deckNext else {}
  let js := List.zip c.links (d.jointsAhead t a)
  let based := qRot (qConj c.base.q)
  { pos := js.map (fun e => (e.2.cmd : Rat)), qd := js.map (fun e => e.1.toSi (e.2.vel * 256 : Int))
    qdd := js.map (fun e => e.1.toSi (e.2.acc * 256 : Int)), omega := based m.omega, alpha := based m.alpha
    acc := based (rSub (bodyAcc m.aRef m.omega m.alpha c.base.p) m.gD), load := (look d.kin a).payload.map (ofWord qx) }

/-- The columns of the Jacobian that DLS_IK staged. -/
def Kin.jacColumns (k : Kin) (n : Nat) : List (List Rat) :=
  (List.range n).map (fun j => (List.range 6).map (fun r => ofWord 24 (k.jac.getD (r * n + j) 0)))

/-- Every joint of an arm has a measured torque for the present boundary (R254): a joint of a rate multiplier has none. -/
def Dev.torquesFresh (d : Dev) (a : Nat) : Bool :=
  (look d.arms a).joints.all (fun j => decide ((look d.joints j).fbStamp = some d.bk) && !d.multJoint j)

/-- A and b after the update of R254, exact: with the pair kept from the run before, where its conditions hold. -/
def Dev.normalEquations (d : Dev) (a : Nat) (p : DefineProblem) : System :=
  let k := look d.kin a
  let s : System := { a := (List.range 10).map (fun i => ofWord p.qA.toNat (k.normA.getD i 0))
                      b := (List.range 4).map (fun i => ofWord p.qB.toNat (k.normB.getD i 0)) }
  if (d.power.mode = .run ∨ d.power.mode = .hold) ∧ d.torquesFresh a ∧ k.prevOk then
    let beta := 1 - 1 / 2 ^ (rd 8 (k.model.getD []) 3).toNat
    let dt := rSub ((look d.arms a).joints.map (fun j => ofWord 10 (look d.joints j).fbTorque)) k.tau0
    let yt := matT 4 k.regY
    { a := rAdd (rScale beta s.a) (lower (matMul 4 yt k.regY)), b := rAdd (rScale beta s.b) (matVec yt dt) }
  else s

/-- The payload solve: its residual passes only a mass within its limits by a matrix that is excited enough (R255). -/
def rneaTemplate (m : List Byte) (p : DefineProblem) (sys : System) : Template Unit where
  build u := (u, sys)
  step u _ c := (u, c)
  norm _ a b x c :=
    let trace := a.getD 0 0 + a.getD 2 0 + a.getD 5 0 + a.getD 9 0
    let mass := x.headD 0
    if rdS m 88 ≤ trace ∧ 0 ≤ mass ∧ mass * 1024 ≤ rdS m 84 * 2 ^ p.qX.toNat then residualNorm p a b x c else (0x7FFFFFFF, c)
  words _ x c := (x, c)

/-- The run of RNEA of an arm: the feedforward of its build step, and the payload solve. -/
def Dev.rneaPlan (d : Dev) (t a : Nat) (p : DefineProblem) : RunPlan :=
  let k := look d.kin a
  let c := d.chain a
  let o := c.rnea p.id.toNat (k.jacColumns c.links.length) (d.rneaIn t a p.qX.toNat)
  let (tau, c1) := (({} : Calc).met 0 o.sat).storeAll 0 10 o.torque
  let (w, c2) := c1.storeAll 0 10 o.wrench
  let m := ((rneaTemplate (k.model.getD []) p (d.normalEquations a p)).run p () c2).plan
  { m with noDeck := !d.deck.est.valid, rnea := { torque := tau, wrench := w, y := o.y, tau0 := o.tau0, normA := m.words.take 10, normB := m.words.drop 10 } }

/-! ### TS_QP (R278) -/

/-- What the time scaling of a pan works on: its free arms with ŝ and weight, and its rows over them, in m. -/
structure PanData where
  arms : List Nat := []
  hat  : List Rat := []
  w    : List Rat := []
  g    : List (List Rat) := []
  h    : List Rat := []
deriving DecidableEq, Repr, Inhabited

/-- The rows and free arms of a pan at a pass. -/
def Dev.panData (d : Dev) (pan : Nat) : PanData :=
  let fixed := d.fixedArms pan
  let weights := (look d.sep.planners pan).weights
  let l := ((List.zip (d.panArms pan) (look d.sep.pans pan).sHat).zipIdx).filter (fun e => decide (e.1.1 ∉ fixed))
  let rows := d.panRows pan
  { arms := l.map (·.1.1), hat := l.map (fun e => ofWord 15 e.1.2), w := l.map (fun e => ofWord 15 (weights.getD e.2 1).toNat)
    g := rows.map (fun r => l.map (fun e => match r.g.find? (fun x => decide (x.1 = e.1.1)) with
      | some x => ofWord 20 x.2
      | none => 0))
    h := rows.map (fun r => ofWord 20 r.h) }

/-- g_i · s - h_i. -/
def PanData.excess (x : PanData) (s : List Rat) (i : Nat) : Rat := rDot (x.g.getD i []) s - x.h.getD i 0

/-- The iterate: the rows of W in the order they joined, with the words of their μ, and the words of s. -/
structure PanIter where
  work : List (Nat × Int) := []
  s    : List Int := []
deriving DecidableEq, Repr, Inhabited

/-- The row with the largest excess over |g|, if one is broken; ties go to the lowest. Magnitudes are compared squared. -/
def PanData.worst (x : PanData) (s : List Rat) : Option Nat :=
  ((List.range x.g.length).foldl (fun (acc : Option (Nat × Rat)) i =>
    let e := x.excess s i
    if e ≤ 0 then acc
    else
      let v := e * e / rDot (x.g.getD i []) (x.g.getD i [])
      match acc with
      | some b => if b.2 < v then some (i, v) else acc
      | none => some (i, v)) none).map Prod.fst

/-- W with the worst row; where W is full, the row of the smallest μ leaves it first. A row already in W joins it no second time. -/
def PanData.join (x : PanData) (room : Nat) (s : List Rat) (work : List (Nat × Int)) : List (Nat × Int) :=
  match x.worst s with
  | none => work
  | some i =>
    if work.any (fun e => decide (e.1 = i)) then work
    else
      let least := work.foldl (fun (acc : Option (Nat × Int)) e => match acc with
        | some b => if e.2 < b.2 then some e else acc
        | none => some e) none
      (match least with
        | some l => if work.length = room then work.filter (fun e => e.1 ≠ l.1) else work
        | none => work) ++ [(i, 0)]

/-- A square matrix padded to order n with a unit diagonal. -/
def padded (n : Nat) (m : List (List Rat)) : List (List Rat) :=
  (List.range n).map (fun i => (List.range n).map (fun j =>
    match m[i]? with
    | some r => r.getD j 0
    | none => if i = j then 1 else 0))

/-- The template of R278. -/
def panTemplate (x : PanData) (all : List Nat) (p : DefineProblem) : Template PanIter where
  build s :=
    let q := p.qX.toNat
    let work := x.join (min 12 p.n.toNat) (s.s.map (ofWord q)) s.work
    let rows := work.map (fun e => x.g.getD e.1 [])
    let inv := fun (g : List Rat) => List.zipWith (· / ·) g x.w
    let a := padded p.n.toNat (rows.map (fun g => rows.map (fun f => rDot g (inv f))))
    let b := (List.range p.n.toNat).map (fun i => match work[i]? with
      | some e => x.excess x.hat e.1
      | none => 0)
    ({ s with work := work }, { a := lower a, b := b, sat := Config.buildSat p.id.toNat (lower a ++ b) })
  step s mu c :=
    let q := p.qX.toNat
    let work := (List.zipWith (fun (e : Nat × Int) m => (e.1, m)) s.work mu).filter (fun e => decide (0 ≤ e.2))
    let pull := work.foldl (fun v e => rAdd v (rScale (ofWord q e.2) (x.g.getD e.1 []))) (x.hat.map (fun _ => 0))
    let v := List.zipWith (fun (h : Rat) (d : Rat) => max 0 (min h (h - d))) x.hat (List.zipWith (· / ·) pull x.w)
    let (w, c1) := c.storeAll 5 q v
    ({ work := work, s := w }, c1)
  norm s _ _ _ c :=
    let v := s.s.map (ofWord p.qX.toNat)
    let r := (List.range x.g.length).foldl (fun m i => max m (x.excess v i)) 0
    c.store 4 (rneRat (r * 2 ^ p.qR.toNat))
  words s _ c := (all.map (fun a => match (List.zip x.arms s.s).find? (fun e => decide (e.1 = a)) with
    | some e => e.2
    | none => 0), c)

/-- The run of a pan's time scaling: it starts at ŝ, or with WARM at the last valid solution within ŝ (R233). -/
def Dev.panPlan (d : Dev) (pan : Nat) (q : Problem) : RunPlan :=
  let p := q.desc
  let x := d.panData pan
  let all := d.panArms pan
  let hat := x.hat.map (fun v => rneRat (v * 2 ^ p.qX.toNat))
  let start := if p.flags.getLsbD 0 ∧ q.res.validAt ≠ 0 then
      List.zipWith (fun a (h : Int) => clampInt 0 h (q.res.sol.getD (all.idxOf a) 0)) x.arms hat
    else hat
  ((panTemplate x all p).run p { s := start } {}).plan

/-! ### BALLAST (R299) -/

/-- A tank: its lever arms in m for heel and trim, its range in kg and its weight. -/
structure Tank where
  y  : Rat := 0
  x  : Rat := 0
  lo : Int := 0
  hi : Int := 0
  w  : Rat := 1
deriving DecidableEq, Repr, Inhabited

/-- The configured tanks with their ranges by the last status. -/
def Dev.ballastTanks (d : Dev) : List Tank :=
  match d.deck.ballast with
  | none => []
  | some c => (List.range c.count.toNat).map (fun i =>
      let e := fun j => c.tanks.getD (4 * i + j) 0
      let m : Int := match d.deck.status with
        | some st => st.tanks.getD i 0
        | none => 0
      { x := ofWord 20 (e 0).toInt, y := ofWord 20 (e 1).toInt, lo := -m, hi := (e 2).toNat - m, w := ofWord 16 (e 3).toNat })

/-- The iterate: which tanks are fixed at a bound, and the words of Δm. -/
structure BallastIter where
  fixed : List (Option Int) := []
  dm    : List Int := []
deriving DecidableEq, Repr, Inhabited

/-- The moments of mass changes, heel and trim. -/
def tankMoments (l : List Tank) (dm : List Rat) : List Rat := [rDot (l.map (·.y)) dm, rDot (l.map (·.x)) dm]

/-- The template of R299: `goal` are -ΔM_h,L and -ΔM_t,L. A row that is dropped is padded with a unit diagonal. -/
def ballastTemplate (l : List Tank) (goal : List Rat) (p : DefineProblem) : Template BallastIter where
  build s :=
    let free := (List.zip l s.fixed).filter (fun e => e.2.isNone)
    let held := s.fixed.map (fun o => (o.getD 0 : Rat))
    let arm := [free.map (·.1.y), free.map (·.1.x)]
    let drop := arm.map (fun r => r.all (· == 0))
    let w := free.map (·.1.w)
    let a := (List.range 2).map (fun i => (List.range 2).map (fun j =>
      if drop.getD i true ∨ drop.getD j true then (if i = j then 1 else 0)
      else rDot (arm.getD i []) (List.zipWith (· * ·) w (arm.getD j []))))
    let b := (rSub goal (tankMoments l held)).mapIdx (fun i v => if drop.getD i true then 0 else v)
    (s, { a := lower a, b := b, sat := Config.buildSat p.id.toNat (lower a ++ b) })
  step s mu c :=
    let m := fun i => ofWord p.qX.toNat (mu.getD i 0)
    let v := List.zipWith (fun (t : Tank) (o : Option Int) => match o with
      | some f => (f : Rat)
      | none => t.w * (t.y * m 0 + t.x * m 1)) l s.fixed
    let fixed := List.zipWith (fun (t : Tank) (e : Option Int × Rat) =>
      if e.1.isSome then e.1 else if e.2 < t.lo then some t.lo else if (t.hi : Rat) < e.2 then some t.hi else none)
      l (List.zip s.fixed v)
    let (w, c1) := c.storeAll 5 p.qX.toNat (List.zipWith (fun (o : Option Int) (x : Rat) => match o with
      | some f => (f : Rat)
      | none => x) fixed v)
    ({ fixed := fixed, dm := w }, c1)
  norm s _ _ _ c :=
    c.store 4 (rneRat (maxAbs (rSub goal (tankMoments l (s.dm.map (ofWord p.qX.toNat)))) * 2 ^ p.qR.toNat))
  words s _ c := (s.dm, c)

/-- The run of the ballast allocation, for the open lift of its arm. -/
def Dev.ballastPlan (d : Dev) (p : DefineProblem) : RunPlan :=
  let l := d.ballastTanks
  let m := match look d.deck.lifts d.deck.allocArm with
    | some x => x.moments
    | none => (0, 0)
  { ((ballastTemplate l [-ofWord 20 m.1, -ofWord 20 m.2] p).run p { fixed := l.map (fun _ => none), dm := l.map (fun _ => 0) } {}).plan with
    arm := some d.deck.allocArm }

/-! ### The plan of a run -/

/-- What a run of a problem makes of the inputs that it captures at its start (R222, R234). -/
def Dev.planOf (d : Dev) (t id : Nat) (q : Problem) (r : SolverRun) : RunPlan :=
  if id < 16 then d.ikPlan t id q.desc
  else if id < 32 then d.rneaPlan t (id - 16) q.desc
  else if id < 96 then d.panPlan (id - 32) q
  else if id = 96 then d.ballastPlan q.desc
  else ldltPlan q.desc r.a r.b

/-- What a lane's local memory holds of a run: descriptor, input words, and the factors and the result as far as there are any
(R214). The spec gives their places to no one, and nothing reads them (log entry 192). -/
def laneImage (p : DefineProblem) (words more : List Int) : List Byte :=
  (descriptorBytes p ++ (words ++ more).flatMap (intBytes 4)).take 16384

/-- The run of a problem that has started captures its inputs: its plan is fixed, and its lane's memory holds its copy of the
descriptor and the inputs (R214, R234). -/
def Dev.captureRun (d : Dev) (t id : Nat) : Dev :=
  match look d.solver.problems id with
  | none => d
  | some q => match q.run with
    | some r => match r.plan, r.lane with
      | none, some lane =>
        let p := d.planOf t id q r
        d.onSolver (fun s => { s with
          problems := put s.problems id (some { q with run := some { r with plan := some { p with began := t, dl := r.dl } } })
          lanes := upd s.lanes lane (fun l => { l with mem := laneImage q.desc p.words [] }) })
      | _, _ => d
    | none => d

/-- Every run that a dispatch cycle has started. -/
def Dev.captureRuns (d : Dev) (t : Nat) : Dev :=
  (d.solver.lanes.filterMap (fun e => e.2.running)).foldl (fun d id => d.captureRun t id) d

end Sys2Proof.Machine
end

