-- ==== Sys2Proof/Machine/Schedule.lean ====
section
/-! DEFINITION. The deck-bus schedule (spec/19_deck_bus_schedule_sluice.md): schedule entries and the checks of a table, the
sluice, clock correction, the states of a channel set, grants of spare slots, and the commands of R434. -/

namespace Sys2Proof.Machine

/-! ### Schedule entries (R413) -/

def eStart (w : BitVec 64) : Nat := w.toNat % 4096

def eLen (w : BitVec 64) : Nat := w.toNat / 4096 % 4096

def eOwner (w : BitVec 64) : Nat := w.toNat / 2 ^ 24 % 64

def eType (w : BitVec 64) : Nat := w.toNat / 2 ^ 32 % 256

def eChan (w : BitVec 64) : Nat := w.toNat / 2 ^ 40 % 4

def eUse (w : BitVec 64) : Nat := w.toNat / 2 ^ 42 % 4

def eRetryOf (w : BitVec 64) : Nat := w.toNat / 2 ^ 44 % 128

def eSyncSrc (w : BitVec 64) : Bool := w.getLsbD 51

def eCold (w : BitVec 64) : Bool := w.getLsbD 52

def eSize4 (w : BitVec 64) : Nat := w.toNat / 2 ^ 53 % 512

/-- The first macrotick after a slot. -/
def eEnd (w : BitVec 64) : Nat := eStart w + eLen w

/-- The frame types of R402. -/
def frameTypes : List Nat := [1, 2, 3, 4, 5, 6, 7, 0x0D]

/-- n_b of a line burst that carries a frame of so many bytes (R398). -/
def blocksOf (size : Nat) : Nat := (8 * size + 6 + 55) / 56

/-- The macroticks of a burst of a frame of `4 * size4` bytes, rounded up (R415); none while the form is open. -/
def burstTicks (form : ChanMode) (size4 : Nat) : Nat :=
  match form with
  | .off => 0
  | .line => ((48 + 64 * blocksOf (4 * size4)) * 5 + 124) / 125
  | .phy => ((38 + max 46 (4 * size4)) * 80 + 124) / 125

/-- A slot is long enough for its largest frame (R415); the check is deferred while the set is OFF. -/
def holdsBurst (form : ChanMode) (guard len size4 : Nat) : Bool :=
  form == .off || decide (burstTicks form size4 + guard ≤ len)

/-- The entry of a table at an index. -/
def entryAt (es : List (BitVec 64)) (i : Nat) : BitVec 64 := es.getD i 0

/-- An entry satisfies every condition of R413 to R415 in its table, for each number of macroticks in `ms`. -/
def entryFits (es : List (BitVec 64)) (form : ChanMode) (guard : Nat) (ms : List Nat) (i : Nat) : Bool :=
  let w := entryAt es i
  let use := eUse w
  let typ := eType w
  let live := fun (j : Nat) => decide (j ≠ i) && decide (eUse (entryAt es j) ≠ 0)
  let idx := List.range 128
  let plain := decide (w.toNat / 2 ^ 30 % 4 = 0) && decide (w.toNat / 2 ^ 62 = 0) && (decide (use = 3) || decide (eRetryOf w = 0))
  let order := idx.all (fun j => !(live j && decide (j < i)) || decide (eStart (entryAt es j) ≤ eStart w))
  let apart := idx.all (fun j => !live j || decide (eChan (entryAt es j) &&& eChan w = 0)
    || decide (eEnd (entryAt es j) ≤ eStart w) || decide (eEnd w ≤ eStart (entryAt es j)))
  let place := decide (1 ≤ eLen w) && ms.all (fun m => decide (eEnd w + 4 ≤ m) && (decide (typ ≠ 1) || decide (m / 2 ≤ eStart w)))
  let syncOk := (!eSyncSrc w || decide (typ = 1)) && (!eCold w || eSyncSrc w)
  let claimOk := if eOwner w = 63 then decide (typ = 7) && decide (use = 1) else decide (typ ≠ 7)
  let carries := decide (typ ∈ frameTypes) && decide (eChan w ≠ 0) && decide (5 ≤ eSize4 w) && decide (eSize4 w ≤ 375)
    && holdsBurst form guard (eLen w) (eSize4 w)
  let oneSync := decide (typ ≠ 1) || decide (use ≠ 1) || idx.all (fun j => let v := entryAt es j
    !live j || decide (eType v ≠ 1) || decide (eUse v ≠ 1) || decide (eOwner v ≠ eOwner w) || decide (eChan v &&& eChan w = 0))
  let retry := decide (use ≠ 3) || (let v := entryAt es (eRetryOf w)
    decide (eUse v = 1) && decide (eOwner v = eOwner w) && decide (eType v = typ) && decide (eEnd v ≤ eStart w))
  if use = 0 then plain && decide (typ = 0) && !eSyncSrc w && !eCold w
  else plain && order && apart && place && syncOk && claimOk
    && (if use = 2 then decide (typ = 0) else carries && oneSync && retry)

/-- The lowest failing index of a table (R415). -/
def badSlot (es : List (BitVec 64)) (form : ChanMode) (guard : Nat) (ms : List Nat) : Option Nat :=
  (List.range 128).find? (fun i => !entryFits es form guard ms i)

/-! ### Channel sets -/

/-- The set of an index. -/
def Dev.busSet (d : Dev) (i : Nat) : BusSet := d.bus.sets.getD i default

/-- A set is changed. -/
def Dev.onSet (d : Dev) (i : Nat) (f : BusSet → BusSet) : Dev := d.onBus (fun b => { b with sets := b.sets.modify i f })

/-- The entry of a slot. -/
def BusSet.entry (s : BusSet) (n : Nat) : BitVec 64 := look s.entries n

/-- The entries of a set as a list. -/
def BusSet.table (s : BusSet) : List (BitVec 64) := (List.range 128).map s.entry

/-- The start of a slot in the present cycle (R411). -/
def Dev.slotStart (d : Dev) (set slot : Nat) : Nat := d.bk + eStart ((d.busSet set).entry slot) * 128

/-- The form of a set's channels (R396). -/
def formOf (chans : Tab Channel) (set : Nat) : ChanMode :=
  let a := (look chans (2 * set)).mode
  if a = .off then (look chans (2 * set + 1)).mode else a

/-- A channel of a set can run: it is configured and not retired. -/
def Dev.chanRuns (d : Dev) (ch : Nat) : Bool := decide ((look d.bus.chans ch).mode ≠ .off) && !d.isRetired 1 ch

/-- The owner index of the device on a set (R414). -/
def Dev.ownerIdx (d : Dev) (set : Nat) : Nat :=
  if d.isArbiter then 32 + d.pair.arb.toNat % 2
  else if set = 4 then 2 * (d.pair.cell.toNat % 16) + d.unitBits
  else d.unitBits

/-- A slot is the device's own (R414, R417): owned or a retry, with its owner index, or ACTIVE while the slots of ACTIVE are
the device's. -/
def Dev.ownSlot (d : Dev) (set : Nat) (w : BitVec 64) : Bool :=
  (decide (eUse w = 1) || decide (eUse w = 3))
    && (decide (eOwner w = d.ownerIdx set) || (decide (eOwner w = 62) && d.active))

/-- The own SYNC slots of a set, lowest first. -/
def Dev.ownSync (d : Dev) (set : Nat) : List Nat :=
  (List.range 128).filter (fun n => let w := (d.busSet set).entry n; decide (eType w = 1) && decide (eUse w = 1) && d.ownSlot set w)

/-- The own COLDSTART slot of a set (R427). -/
def Dev.ownCold (d : Dev) (set : Nat) : Option Nat := (d.ownSync set).find? (fun n => eCold ((d.busSet set).entry n))

/-- The device is itself a SYNC_SRC of a set (R421). -/
def Dev.ownSource (d : Dev) (set : Nat) : Bool := (d.ownSync set).any (fun n => eSyncSrc ((d.busSet set).entry n))

/-- sched_id (R424). -/
def BusSet.schedId (s : BusSet) : BitVec 32 :=
  crc32c (s.table.flatMap wordBytes ++ (List.range 64).flatMap (fun o => wordBytes (look s.dProp o)))

/-- A notice of R433: the channel set, and a slot or owner index. The source is the set's X channel. -/
def Dev.busNotice (d : Dev) (t code set idx : Nat) (journalled : Bool) : Dev :=
  d.notice 8 (2 * set) t (BitVec.ofNat 16 (0x0C00 + code)) (BitVec.ofNat 32 (set + 256 * (idx % 256))) journalled

/-- A set takes a state. -/
def Dev.enterSet (d : Dev) (t set : Nat) (st : SetState) : Dev := d.onSet set (fun s => s.enter t st)

/-- A set that is not PASSIVE goes PASSIVE, with a notice (R423, R428). -/
def Dev.goPassive (d : Dev) (t set idx code : Nat) : Dev :=
  if (d.busSet set).state = .passive then d else (d.enterSet t set .passive).busNotice t code set idx true

/-- A burst was read back wrongly or cut (R416): TRUNCATED. -/
def Dev.truncated (d : Dev) (t set slot : Nat) : Dev :=
  ((d.onSet set (fun s => { s with truncations := s.truncations + 1 })).onBus (fun b => { b with trunc := true })
    ).busNotice t 0x43 set slot false

/-- A collision in COLDSTART (R429): the device stops sending, counts one event, posts COLLISION and backs off. -/
def Dev.collide (d : Dev) (t set ch : Nat) : Dev :=
  let i := (d.ownCold set).getD 0
  let d1 := (d.faultEvent 1 ch t).enterSet t set .listen
  (d1.onSet set (fun s => { s with collisions := s.collisions + 1, collided := true, backoff := some (t + (1 + i) * d.time.tc) })
    ).busNotice t 0x42 set i true

/-- The macroticks of a cycle for the Tc in force and for every accepted one (R415). -/
def Dev.cycleTicks (d : Dev) : List Nat := (d.time.tc :: d.time.pending.map (·.tc)).map (· / 128)

/-- The table that a set will have, counting an accepted LOAD_SCHEDULE; none where none is loaded. -/
def Dev.tableView (d : Dev) (set : Nat) : Option (List (BitVec 64)) :=
  d.waiting.foldl (fun m w => match w.cmd with
    | .loadSchedule _ p => if p.set.toNat = set then some ((rdWords 64 w.block).take 128) else m
    | _ => m) (if (d.busSet set).loaded then some (d.busSet set).table else none)

/-- The guard of a set, counting an accepted CONFIG_SYNC (R415, R435). -/
def Dev.guardView (d : Dev) (set : Nat) : Nat :=
  d.waiting.foldl (fun g w => match w.cmd with
    | .configSync _ p => if p.set.toNat = set then p.guard.toNat else g
    | _ => g) (d.busSet set).cfg.guard.toNat

/-- A set's loaded table passes R415 for a form (R396). -/
def Dev.tableFits (d : Dev) (set : Nat) (form : ChanMode) : Bool :=
  match d.tableView set with
  | some es => (badSlot es form (d.guardView set) d.cycleTicks).isNone
  | none => true

/-! ### The sluice (R417, R418) -/

/-- The set from which the device corrects its time base (R420). -/
def Dev.corrSet (d : Dev) : Option Nat :=
  if (d.busSet 4).state = .synced then some 4
  else if d.inPair then
    (List.range 4).find? (fun i => decide ((d.busSet i).state = .synced)
      && ((look (d.busSet i).sourcesX (1 - d.unitBits)).isSome || (look (d.busSet i).sourcesY (1 - d.unitBits)).isSome))
  else none

/-- e_F as the sluice of a set uses it: 0 where the device applies no correction. -/
def Dev.sluiceErr (d : Dev) (set : Nat) : Int := if d.corrSet = some set then ((d.busSet set).eF).getD 0 else 0

/-- The channels of a slot that send: bit 0 X, bit 1 Y. -/
def Dev.sendChans (d : Dev) (set : Nat) (w : BitVec 64) : BitVec 2 :=
  BitVec.ofNat 2 (bit ((eChan w).testBit 0 && d.chanRuns (2 * set)) + 2 * bit ((eChan w).testBit 1 && d.chanRuns (2 * set + 1)))

/-- The window in which TXEN of an own slot may be high; none where the sluice stays closed. -/
def Dev.sluice (d : Dev) (set slot : Nat) : Option (Nat × Nat) :=
  let s := d.busSet set
  let w := s.entry slot
  let start := d.slotStart set slot
  let e := d.sluiceErr set
  let opens := ((start : Int) + max 0 e).toNat
  let ends := ((start + eLen w * 128 : Nat) - max 0 (-e) : Int).toNat
  let stateOk := (decide (s.state = .synced) && decide (s.since ≤ d.bk)) || (decide (s.state = .coldstart) && decide (eType w = 1))
  let awake := decide (d.power.mode ≠ .dormant) && decide (d.power.mode ≠ .boot)
  if !awake ∨ !stateOk ∨ !d.ownSlot set w ∨ d.sendChans set w = 0 then none
  else if eOwner w = 62 ∧ d.power.mode = .shadow then none
  else if eOwner w = 62 ∧ d.inPair then
    if d.pair.xh ≤ opens then none else some (opens, min ends d.pair.xh)
  else some (opens, ends)

/-- TXEN of a channel (R397, R417): high while the window of a sent frame is open. -/
def Dev.txen (d : Dev) (ch : Nat) : Bool :=
  d.bus.sent.any (fun x => decide (x.set = ch / 2) && x.chans.getLsbD (ch % 2) && decide (x.open_ ≤ d.time.ct)
    && decide (d.time.ct < x.close))

/-! ### Clock correction (R421 to R423) -/

/-- The values of a cycle, doubled: the sum of e on X and Y, or twice the single e; the device's own value 0 (R421). -/
def BusSet.corrValues (s : BusSet) (own : Bool) : List Int :=
  let owners := (List.range 64).filter (fun o => (look s.sourcesX o).isSome || (look s.sourcesY o).isSome)
  let val := fun (o : Nat) => match look s.sourcesX o, look s.sourcesY o with
    | some x, some y => x + y
    | some x, none => 2 * x
    | none, some y => 2 * y
    | none, none => 0
  (owners.map val) ++ (if own then [0] else [])

/-- e_F of doubled values: the kf largest and smallest discarded, then the middle of the rest (R421). -/
def corrTrim (vals : List Int) : Option Int :=
  let l := vals.mergeSort (fun a b => decide (a ≤ b))
  let kf := if l.length ≤ 2 then 0 else if l.length ≤ 7 then 1 else 2
  let m := (l.drop kf).take (l.length - 2 * kf)
  match m.head?, m.getLast? with
  | some a, some b => some (rneDiv (a + b) 4)
  | _, _ => none

/-- The nominal rate word (R422). -/
def nominalRate : Nat := 175921860444

/-- ρ and r_off after a correction value (R422). -/
def rateWords (rho eF : Int) (rateLim tc : Nat) : Int × Int :=
  let lim := rneDiv (rateLim * nominalRate : Nat) 1000000
  let o := -eF
  (clampInt (-lim) lim (rho + rneDiv (o * 2 ^ 32 * 64) (25 * tc)), rneDiv (o * 2 ^ 32) (tc * 25 / 2048))

/-- The first instant after the last SYNC slot of the cycle. -/
def Dev.syncEnd (d : Dev) (set : Nat) : Option Nat :=
  let ends := ((d.busSet set).table.filter (fun w => decide (eType w = 1) && decide (eUse w = 1))).map eEnd
  if ends.isEmpty then none else some (d.bk + (ends.foldl max 0) * 128)

/-- |e_F| lies beyond o_lim. -/
def BusSet.far (s : BusSet) : Bool :=
  match s.eF with
  | some e => decide ((s.cfg.oLim.toNat : Int) < e.natAbs)
  | none => false

/-- A set whose e_F lies beyond o_lim goes PASSIVE (R423). -/
def Dev.settleSet (d : Dev) (t set : Nat) : Dev :=
  let s := d.busSet set
  if s.far ∧ (s.state = .integrate ∨ s.state = .synced) then d.goPassive t set 0 0x41 else d

/-- What a cycle has shown when it ends at a boundary: the second clean cycle of COLDSTART and a full valid cycle of INTEGRATE
lead to SYNCED, and the last of sync_loss cycles without a valid SYNC to PASSIVE (R423, R427, R428). -/
def Dev.cycleEnd (d : Dev) (b set : Nat) : Dev :=
  let s := d.busSet set
  let misses := if s.valid = 0 ∧ !d.ownSource set then s.misses + 1 else 0
  let lost := decide (s.cfg.syncLoss.toNat ≤ misses)
  let d1 := d.onSet set (fun s => { s with misses := misses })
  match s.state with
  | .coldstart =>
    if !d.bus.sent.any (fun x => decide (x.set = set) && x.frame.type == 1) then d1
    else if s.clean + 1 < 2 then d1.onSet set (fun s => { s with clean := s.clean + 1 })
    else (d1.enterSet b set .synced).busNotice b 0x40 set 0 true
  | .integrate =>
    if lost then d1.goPassive b set 0 0x41
    else if 1 ≤ s.cycles ∧ 0 < s.valid ∧ !s.dirty ∧ s.eF.isSome ∧ !s.far
      then (d1.enterSet b set .synced).busNotice b 0x40 set 0 true
    else d1
  | .synced => if lost then d1.goPassive b set 0 0x41 else d1
  | _ => d1

/-- The end of the last SYNC slot of a cycle (R421 to R423). -/
def Dev.correct (d : Dev) (t set : Nat) : Dev :=
  let s := d.busSet set
  match d.syncEnd set with
  | none => d
  | some e =>
    if s.state = .off ∨ t < e ∨ s.corrAt = some d.bk then d
    else
      let own := d.ownSource set
      let vals := s.corrValues own
      let eF := corrTrim vals
      let d1 := d.onSet set (fun s => { s with eF := eF, corrAt := some d.bk, srcCount := vals.length })
      let d2 := match eF with
        | some v =>
          if d.corrSet = some set ∧ v.natAbs ≤ s.cfg.oLim.toNat then
            let r := rateWords d.time.rho v s.cfg.rateLim.toNat d.time.tc
            d1.onTime (fun x => { x with rho := r.1, rOff := r.2 })
          else d1
        | none => d1
      d2.settleSet t set

/-- SYNC_CORRECTION (R421). -/
def execSyncCorrection (t : Nat) (set : Fin 5) (s : State) : Host.Outcome State Fault Refusal :=
  s.act (fun d => (d.advance t).correct t set.val)

/-- The rate word from the first tick of a cycle on, and after half of it (R422). -/
def Dev.rateWord (d : Dev) (firstHalf : Bool) : Dev :=
  d.onTime (fun x => if firstHalf then { x with rate := ((nominalRate : Int) + x.rho + x.rOff).toNat, rOff := 0 }
    else { x with rate := ((nominalRate : Int) + x.rho).toNat })

/-! ### Startup (R427, R429) -/

/-- The time in LISTEN is looked at: after 2 Tc a set with an own COLDSTART slot goes to COLDSTART. -/
def Dev.listenOver (d : Dev) (t set : Nat) : Dev :=
  let s := d.busSet set
  if s.state = .listen ∧ s.backoff = none ∧ s.since + 2 * d.time.tc ≤ t ∧ (d.ownCold set).isSome then d.enterSet t set .coldstart
  else d

/-- LISTEN_TIMEOUT (R427). -/
def execListenTimeout (t : Nat) (set : Fin 5) (s : State) : Host.Outcome State Fault Refusal :=
  s.act (fun d => (d.advance t).listenOver t set.val)

/-- The back-off is over: back to COLDSTART. -/
def Dev.backoffOver (d : Dev) (t set : Nat) : Dev :=
  let s := d.busSet set
  match s.backoff with
  | some b => if s.state = .listen ∧ b ≤ t then d.enterSet t set .coldstart else d
  | none => d

/-- BACKOFF_END (R429). -/
def execBackoffEnd (t : Nat) (set : Fin 5) (s : State) : Host.Outcome State Fault Refusal :=
  s.act (fun d => (d.advance t).backoffOver t set.val)

/-! ### Grants (R430, R431) -/

/-- The modes in which a grant is made. -/
def grantModes : List Mode := [.ready, .run, .hold, .tune, .safeOff]

/-- An owner index from 2 to 61 that no entry and no grant uses. -/
def BusSet.ownerFree (s : BusSet) (o : Nat) : Bool :=
  decide (2 ≤ o) && decide (o ≤ 61) && s.table.all (fun w => decide (eUse w = 0) || decide (eUse w = 2) || decide (eOwner w ≠ o))
    && s.grants.all (fun g => decide (g.owner ≠ o))

/-- The entry of a granted slot. -/
def grantEntry (w : BitVec 64) (g : Grant) : BitVec 64 :=
  BitVec.ofNat 64 (w.toNat % 2 ^ 24 + g.owner % 64 * 2 ^ 24 + g.claim.type.toNat * 2 ^ 32 + g.claim.chan.toNat * 2 ^ 40 + 2 ^ 42
    + g.claim.size4.toNat % 512 * 2 ^ 53)

/-- A spare slot satisfies a claim for an owner: its CHAN covers the claimed channels, its LEN holds the claimed size, and the
entry it would become meets R413 to R415 (log entry 76). -/
def Dev.slotSuits (d : Dev) (set slot owner : Nat) (c : Claim) : Bool :=
  let s := d.busSet set
  let w := s.entry slot
  let v := grantEntry w { claim := c, slot := slot, owner := owner }
  decide (eUse w = 2) && decide (eChan w &&& c.chan.toNat = c.chan.toNat) && within 5 375 c.size4
    && entryFits (s.table.set slot v) (formOf d.bus.chans set) s.cfg.guard.toNat d.cycleTicks slot
    && s.grants.all (fun g => decide (g.slot ≠ slot))

/-- Grants whose cycle has come make their entries owned. -/
def BusSet.applyGrants (s : BusSet) (b : Nat) : BusSet :=
  let due := s.grants.filter (fun g => match g.effB with
    | some e => decide (e ≤ b)
    | none => false)
  let s1 := due.foldl (fun (s : BusSet) g => { s with
    granted := put s.granted g.slot (s.entry g.slot)
    entries := put s.entries g.slot (grantEntry (s.entry g.slot) g), dProp := put s.dProp g.owner g.dProp }) s
  { s1 with grants := s1.grants.filter (fun g => g ∉ due) }

/-- A granted slot reverts to spare, with a journal record. -/
def Dev.revertSlot (d : Dev) (t set slot : Nat) : Dev :=
  let s := d.busSet set
  if s.granted.any (fun e => e.1 = slot) then
    (d.journalRevert t set slot).onSet set (fun s => { s with
      entries := put s.entries slot (look s.granted slot), granted := drop1 s.granted slot })
  else d

/-- A claim is handled by the set's policy (R430). -/
def Dev.handleClaim (d : Dev) (t set : Nat) (c : Claim) : Dev :=
  let s := d.busSet set
  if d.power.mode ∉ grantModes then d
  else if s.cfg.claim = 0 then d.busNotice t 0x49 set 0 false
  else if s.cfg.claim = 1 then
    (d.onSet set (fun s => { s with claims := s.claims.filter (fun x => x.id ≠ c.id) ++ [c] })).busNotice t 0x47 set 0 false
  else
    let owner := (List.range 62).find? s.ownerFree
    match (List.range 128).find? (fun n => d.slotSuits set n (owner.getD 2) c), owner with
    | some n, some o => d.onSet set (fun s => { s with
        grants := s.grants.filter (fun g => g.claim.id ≠ c.id) ++ [{ claim := c, slot := n, owner := o }] })
    | _, _ => d.busNotice t 0x49 set 0 false

/-! ### What a boundary does to the sets -/

/-- A new cycle of every set: the last cycle is judged and its findings end, grants come into force, and a table that the
Tc in force makes invalid closes its set (R411, R415, R431). -/
def Dev.busCycle (d : Dev) (b : Nat) (tcChanged : Bool) : Dev :=
  let d0 := (List.range 5).foldl (fun d i => d.cycleEnd b i) d
  let d1 := d0.onBus (fun x => { x with sent := [], sets := x.sets.map (fun s =>
    BusSet.applyGrants { s with
      sourcesX := [], sourcesY := [], valid := 0, dirty := false, collided := false, seen := []
      cycles := s.cycles + (if s.since = b then 0 else 1) } b) })
  if tcChanged then
    (List.range 5).foldl (fun d i =>
      let s := d.busSet i
      if s.loaded ∧ !s.invalid ∧ (badSlot s.table (formOf d.bus.chans i) s.cfg.guard.toNat [d.time.tc / 128]).isSome
      then ((d.onSet i (fun s => { s with invalid := true })).enterSet b i .off).busNotice b 0x46 i 0 true
      else d) d1
  else d1

/-! ### Commands (R434, R435) -/

/-- LOAD_SCHEDULE: a table that fails R415 is refused with the lowest failing index. -/
def semLoadSchedule (h : Hdr) (p : LoadSchedule) : Sem where
  op := 0x0C40
  lenOk := h.length = 16
  modes := [.ready]
  range := fun _ => within 0 4 p.set && p.reserved == 0
  cond := fun d => d.blockCond p.offset p.length p.crc (p.length == 1152) none (fun _ => true)
  eff := fun d =>
    let b := d.blockBytes p.offset p.length
    match badSlot ((rdWords 64 b).take 128) (formOf d.chansView p.set.toNat) (d.guardView p.set.toNat) d.cycleTicks with
    | some i => (d, some (.range, leBytes 2 i ++ [0, 0]))
    | none => (d.awaitBlock h.stamp (.loadSchedule h p) b, some (.ok, []))

/-- LOAD_SCHEDULE at its boundary: the set restarts in LISTEN. -/
def Dev.applySchedule (d : Dev) (b : Nat) (p : LoadSchedule) (block : List Byte) : Dev :=
  let i := p.set.toNat
  let es := ((rdWords 64 block).take 128).zipIdx.foldl (fun (m : Tab (BitVec 64)) e => put m e.2 e.1) []
  let dp := (rdList 16 block 1024 64).zipIdx.foldl (fun (m : Tab (BitVec 16)) e => put m e.2 e.1) []
  let d1 := d.onSet i (fun s => { s with entries := es, dProp := dp, loaded := true, invalid := false, granted := [], grants := [],
                                         claims := [] })
  if d1.chanRuns (2 * i) ∨ d1.chanRuns (2 * i + 1) then d1.enterSet b i .listen else d1

/-- CONFIG_SYNC. -/
def semConfigSync (h : Hdr) (p : ConfigSync) : Sem where
  op := 0x0C41
  lenOk := h.length = 16
  modes := [.ready]
  range := fun _ => within 0 4 p.set && within 1 16 p.guard && within 1 16 p.syncLoss && within 0 2 p.claim && within 16 512 p.wAcc
    && within p.wAcc.toNat 1024 p.oLim && within 50 1000 p.rateLim && p.reserved0 == 0 && p.reserved1 == 0
  eff := fun d => (d.await h.stamp (.configSync h p), some (.ok, []))

/-- CONFIG_SYNC at its boundary. -/
def Dev.applySync (d : Dev) (p : ConfigSync) : Dev := d.onSet p.set.toNat (fun s => { s with cfg := p })

/-- GRANT_SPARE: the claim must be pending, and slot and owner must satisfy R430. -/
def semGrantSpare (h : Hdr) (p : GrantSpare) : Sem where
  op := 0x0C42
  lenOk := h.length = 12
  modes := grantModes
  range := fun _ => within 0 4 p.set && within 0 127 p.slot && within 2 61 p.owner && p.reserved0 == 0 && p.reserved1 == 0
  cond := fun d =>
    let s := d.busSet p.set.toNat
    match s.claims.find? (fun c => c.id = p.claimId) with
    | none => some .range
    | some c => firstFail [(d.slotSuits p.set.toNat p.slot.toNat p.owner.toNat c, .range), (s.ownerFree p.owner.toNat, .range)]
  eff := fun d =>
    let s := d.busSet p.set.toNat
    match s.claims.find? (fun c => c.id = p.claimId) with
    | none => (d, some (.range, []))
    | some c => (d.onSet p.set.toNat (fun s => { s with
        claims := s.claims.filter (fun x => x.id ≠ p.claimId)
        grants := s.grants ++ [{ claim := c, slot := p.slot.toNat, owner := p.owner.toNat, dProp := p.dProp }] }), some (.ok, []))

/-- RELEASE_SLOT of a granted slot. -/
def semReleaseSlot (h : Hdr) (p : ReleaseSlot) : Sem where
  op := 0x0C43
  lenOk := h.length = 4
  modes := grantModes
  range := fun _ => within 0 4 p.set && within 0 127 p.slot && p.reserved == 0
  cond := fun d => firstFail [((d.busSet p.set.toNat).granted.any (fun e => e.1 = p.slot.toNat), .range)]
  eff := fun d => (d.await h.stamp (.releaseSlot h p), some (.ok, []))

/-- GET_SCHEDULE_ENTRY. -/
def semGetScheduleEntry (h : Hdr) (p : GetScheduleEntry) : Sem where
  op := 0x0C50
  lenOk := h.length = 4
  link := .both
  range := fun _ => within 0 4 p.set && within 0 127 p.slot && p.reserved == 0
  eff := fun d =>
    let s := d.busSet p.set.toNat
    let w := s.entry p.slot.toNat
    (d, some (.ok, wordBytes w ++ wordBytes (look s.dProp (eOwner w))))

/-- The code of a set's state, in the order of R426. -/
def SetState.code : SetState → Nat
  | .off => 0 | .listen => 1 | .coldstart => 2 | .integrate => 3 | .synced => 4 | .passive => 5

/-- GET_SYNC_STATE. -/
def semGetSyncState (h : Hdr) (p : GetSyncState) : Sem where
  op := 0x0C51
  lenOk := h.length = 4
  link := .both
  range := fun _ => within 0 4 p.set && p.reserved == 0
  eff := fun d =>
    let s := d.busSet p.set.toNat
    (d, some (.ok, leBytes 1 s.state.code ++ leBytes 1 s.srcCount ++ [0, 0] ++ intBytes 4 (s.eF.getD 0) ++ intBytes 4 d.time.rho
      ++ wordBytes s.schedId ++ wordBytes s.cycles ++ wordBytes s.collisions ++ wordBytes s.truncations ++ wordBytes s.rejections
      ++ leBytes 8 s.since))

def execLoadSchedule (h : Hdr) (p : LoadSchedule) (s : State) : Host.Outcome State Fault Refusal :=
  s.act (runCmd (semLoadSchedule h p) h)

def execConfigSync (h : Hdr) (p : ConfigSync) (s : State) : Host.Outcome State Fault Refusal :=
  s.act (runCmd (semConfigSync h p) h)

def execGrantSpare (h : Hdr) (p : GrantSpare) (s : State) : Host.Outcome State Fault Refusal :=
  s.act (runCmd (semGrantSpare h p) h)

def execReleaseSlot (h : Hdr) (p : ReleaseSlot) (s : State) : Host.Outcome State Fault Refusal :=
  s.act (runCmd (semReleaseSlot h p) h)

def execGetScheduleEntry (h : Hdr) (p : GetScheduleEntry) (s : State) : Host.Outcome State Fault Refusal :=
  s.act (runCmd (semGetScheduleEntry h p) h)

def execGetSyncState (h : Hdr) (p : GetSyncState) (s : State) : Host.Outcome State Fault Refusal :=
  s.act (runCmd (semGetSyncState h p) h)

end Sys2Proof.Machine
end

