-- ==== Sys2Proof/Machine/SignalCores.lean ====
section
/-! DEFINITION. The signal cores (spec/14_signal_cores.md): the faults of their tasks and the commands of class 0x08
(R317 to R332). -/

namespace Sys2Proof.Machine

/-! ### Faults of a task on a core (R324, R326, R328) -/

/-- The code of a kernel fault (R328). -/
def kernelFaultCode : KernelFault → Nat
  | .illegal => 1 | .access => 2 | .budget => 3

/-- The core of a user kernel slot. -/
def Dev.kernelCore (d : Dev) (slot : Nat) : Nat := ((look d.sig.kernels slot).cfg.map (fun c => c.core.toNat)).getD 0

/-- A user kernel stands FAULTED with its code and the notice (R326, R328). The fault address is that of the instruction where its
core stands (DESIGN CHOICE, log entry 195). -/
def Dev.kernelStops (d : Dev) (t slot code : Nat) : Dev :=
  let core := d.kernelCore slot
  (d.onSig (fun s => { s with kernels := upd s.kernels slot (fun k =>
    { k with running := false, pending := false, faulted := true, fault := BitVec.ofNat 8 code,
             addr := (look d.sig.cores core).pc.setWidth 32 }) })).notice 3 core t 0x0801 (BitVec.ofNat 32 (slot + 256 * code)) false

/-- A user kernel becomes FAULTED (R326): its task ends, one that waits is dropped, and the notice says so. It is no event of the
core's channel. -/
def Dev.kernelFault (d : Dev) (t slot code : Nat) : Dev :=
  let d2 := d.kernelStops t slot code
  let d3 := match d2.taskRunning (0x700 + slot) with
    | some x => d2.completeTask t x
    | none => d2
  d3.cancelTasks t (0x700 + slot)

/-- The running task of a core has run up to an instant. -/
def Dev.runCoreTo (d : Dev) (t core : Nat) : Dev :=
  match d.onCore core with
  | some x => d.runTo t x
  | none => d

/-- KERNEL_BUDGET (R326): the running kernel in a slot offends. -/
def execKernelBudget (t : Nat) (slot : Fin 8) (f : KernelFault) (s : State) : Host.Outcome State Fault Refusal :=
  s.act (fun d =>
    let d := d.advance t
    if (look d.sig.kernels slot.val).running then
      (d.runCoreTo t (d.kernelCore slot.val)).kernelFault t slot.val (kernelFaultCode f) else d)

/-- A vendor task is ended by a fault (R324): one event, the notice, and one run more from its inputs if its deadline
still allows. -/
def Dev.vendorFault (d : Dev) (t core code : Nat) (x : Task) : Dev :=
  let d1 := (d.faultEvent 5 core t).notice 3 core t 0x0802 (BitVec.ofNat 32 ((d.entry x.entry).work % 256 + 256 * code)) true
  if !x.rerun ∧ t ≤ x.dl ∧ !d1.isRetired 5 core then
    d1.onTask x (fun y => { y with phase := .ready, readyAt := t, rerun := true, ran := 0 })
  else d1.completeTask t x

/-- A fault of the task on a core: of a user kernel by ILLEGAL it is the kernel's, else the core's (R324, R326). -/
def Dev.coreFault (d : Dev) (t core : Nat) (memErr : Bool) : Dev :=
  match d.onCore core with
  | none => if memErr then d.faultEvent 5 core t else d
  | some x =>
    match kernelOf x.entry with
    | some k =>
      if memErr then (d.faultEvent 5 core t).kernelFault t k 4 else d.kernelFault t k 1
    | none => d.vendorFault t core (if memErr then 4 else 1) x

/-- A user kernel runs on a core. -/
def Dev.userOn (d : Dev) (core : Nat) : Bool :=
  match d.onCore core with
  | some x => (kernelOf x.entry).isSome
  | none => false

/-- An interrupt of a core (R317): a memory error or an illegal instruction is a fault of its task, and the core goes to the vector. -/
def Dev.coreIrq (d : Dev) (t core : Nat) (src : CoreIrq) : Dev :=
  let d1 := match src with
    | .preempt => d
    | .memErr => d.coreFault t core true
    | .illegal => d.coreFault t core false
  d1.interruptCore t core (d.userOn core)

/-- CORE_INTERRUPT (R317): the core has run its task up to now. -/
def execCoreInterrupt (t : Nat) (core : Fin 4) (src : CoreIntIn) (s : State) : Host.Outcome State Fault Refusal :=
  s.act (fun d => ((d.advance t).runCoreTo t core.val).coreIrq t core.val src.src)

/-! ### Commands of class 0x08 (R329 to R332) -/

/-- Class 0x08 is refused with RETIRED in the ARBITER role. -/
def Dev.noSig (d : Dev) : Bool × Status := (!d.isArbiter, .retired)

/-- The user kernel of a slot as it will stand once the accepted commands have taken effect. -/
def Dev.kernelView (d : Dev) (slot : Nat) : Option LoadKernel :=
  d.waiting.foldl (fun acc w => match w.cmd with
    | .loadKernel _ p => if p.slot.toNat = slot then some p else acc
    | .removeKernel _ p => if p.slot.toNat = slot then none else acc
    | _ => acc) (look d.sig.kernels slot).cfg

/-- The line-mode channels that a core decodes (R323). -/
def Dev.decodes (d : Dev) (core : Nat) : List Nat :=
  (List.range 10).filter (fun ch => decide ((look d.bus.chans ch).mode = .line)
    && decide (d.sig.decoder.getD ch none = some core))

/-- The decoders as they will stand once the accepted commands have taken effect (R331). -/
def Dev.decoderView (d : Dev) : List (Option Nat) :=
  d.waiting.foldl (fun acc w => match w.cmd with
    | .assignVendor _ p => if p.kernel == 4 || p.kernel == 5
        then acc.mapIdx (fun ch x => if p.channels.getLsbD ch then some p.core.toNat else x) else acc
    | _ => acc) d.sig.decoder

/-- The channels that a core will then decode in line mode, those of a mask counted as its own (R323). -/
def Dev.decodesView (d : Dev) (core : Nat) (mask : BitVec 16 := 0) : List Nat :=
  (List.range 10).filter (fun ch => decide ((look d.chansView ch).mode = .line)
    && (mask.getLsbD ch || decide (d.decoderView.getD ch none = some core)))

/-- The reserved cycles of a core in a period (R323). -/
def Dev.reservedCycles (d : Dev) (core : Nat) : Nat := (d.decodes core).length * 15400 * d.time.tc / 128000

/-- A kernel's share of a period in cycles, times N_sep (R325). -/
def budgetShare (p : LoadKernel) (nSep : Nat) : Nat := if p.run = 1 then p.budget.toNat else p.budget.toNat * nSep

/-- The budgets of a core's user kernels, with one more in a slot, fit a period (R325). -/
def Dev.budgetFits (d : Dev) (p : LoadKernel) : Bool :=
  let n := d.time.nSep
  let others := ((List.range 8).filter (fun i => i ≠ p.slot.toNat)).foldl (fun a i => match d.kernelView i with
    | some q => if q.core = p.core then a + budgetShare q n else a
    | none => a) 0
  decide ((others + budgetShare p n) * 128000 + n * ((d.decodesView p.core.toNat).length * 15400 * d.time.tc)
    ≤ n * (135000 * d.time.tc))

/-- A word of a user kernel may stand (R320, R326): it raises no ILLEGAL, and the immediate of a load, a store or a branch lies in
the user region; RETI has none. -/
def kernelWordOk (w : BitVec 64) : Bool :=
  let cls := (w.extractLsb' 60 4).toNat
  let imm := (w.extractLsb' 0 32).toNat
  let inside := decide (0x30000 ≤ imm) && decide (imm < 0x40000)
  fieldsOk w && (if cls = 3 then inside else if cls = 5 then inside || decide (Config.branchForm (w.extractLsb' 54 6) = .reti)
    else true)

/-- The loops of an image break no rule of R312 visibly (R326): a count that is not 0, a body of two instructions or more, and no
branch in its last two. -/
def kernelLoopsOk (ws : List (BitVec 64)) : Bool :=
  let cls := fun (w : BitVec 64) => (w.extractLsb' 60 4).toNat
  ws.zipIdx.all (fun e => decide (cls e.1 ≠ 6) ||
    let x := Config.coreImm (e.1.extractLsb' 0 32)
    let pc := 0x30000 + 8 * e.2
    decide (x.count ≠ 0) && decide (pc + 16 ≤ x.last.toNat)
      && ws.zipIdx.all (fun f => decide (cls f.1 ≠ 5) || decide (f.2 ≤ e.2) || decide (x.last.toNat < 0x30000 + 8 * f.2)
        || decide (0x30000 + 8 * f.2 + 16 ≤ x.last.toNat)))

/-- LOAD_KERNEL (R325, R326, R330). -/
def semLoadKernel (h : Hdr) (p : LoadKernel) : Sem where
  op := 0x0800
  lenOk := h.length = 28
  modes := [.ready]
  range := fun _ => decide (p.slot.toNat ≤ 7) && decide (p.core.toNat ≤ 3) && decide (p.run.toNat ≤ 2)
    && decide (4 ≤ p.priority.toNat) && decide (p.priority.toNat ≤ 7) && (p.group == 0xFF || decide (p.group.toNat ≤ 63))
    && p.reserved == 0 && decide (p.entry.toNat % 8 = 0) && decide (p.entry.toNat < p.length.toNat)
    && decide (1 ≤ p.budget.toNat)
  cond := fun d =>
    d.blockCond p.offset p.length p.crc (decide (p.length.toNat ≤ 65536))
      (firstFail [d.noSig, (!d.domOff 7, .range), (!d.isRetired 5 p.core.toNat, .retired), (d.budgetFits p, .range)])
      (fun b => (rdWords 64 b).all kernelWordOk && kernelLoopsOk (rdWords 64 b))
  eff := fun d => (d.awaitBlock h.stamp (.loadKernel h p) (d.blockBytes p.offset p.length), some (.ok, []))

/-- LOAD_KERNEL at its boundary: the image is copied to the user region, and the kernel is new. -/
def Dev.applyLoadKernel (d : Dev) (p : LoadKernel) (b : List Byte) : Dev :=
  (d.cancelTasks d.bk (0x700 + p.slot.toNat)).onSig (fun s => { s with
    cores := upd s.cores p.core.toNat (fun c => { c with mem := memWrite c.mem 0x30000 b })
    kernels := put s.kernels p.slot.toNat { cfg := some p, image := b } })

/-- REMOVE_KERNEL (R331). -/
def semRemoveKernel (h : Hdr) (p : RemoveKernel) : Sem where
  op := 0x0801
  lenOk := h.length = 4
  modes := [.ready]
  range := fun _ => p.reserved == 0 && decide (p.slot.toNat ≤ 7)
  cond := fun d => firstFail [d.noSig, ((d.kernelView p.slot.toNat).isSome, .range)]
  eff := fun d => (d.await h.stamp (.removeKernel h p), some (.ok, []))

/-- REMOVE_KERNEL at its boundary. -/
def Dev.applyRemoveKernel (d : Dev) (p : RemoveKernel) : Dev :=
  (d.cancelTasks d.bk (0x700 + p.slot.toNat)).onSig (fun s => { s with kernels := put s.kernels p.slot.toNat default })

/-- RUN_KERNEL (R331, R341). -/
def semRunKernel (h : Hdr) (p : RunKernel) : Sem where
  op := 0x0802
  lenOk := h.length = 4
  modes := working
  range := fun _ => p.reserved == 0 && decide (p.slot.toNat ≤ 7)
  cond := fun d =>
    let k := look d.sig.kernels p.slot.toNat
    firstFail [d.noSig, (match k.cfg with
      | some c => decide (c.run = 2) && !k.faulted
      | none => false, .range)]
  eff := fun d =>
    let k := look d.sig.kernels p.slot.toNat
    if k.pending || k.running || d.pressedNow (0x700 + p.slot.toNat) then
      (d.pressHostRun h.stamp (0x700 + p.slot.toNat), some (.busy, []))
    else ((d.onSig (fun s => { s with kernels := upd s.kernels p.slot.toNat (fun k => { k with pending := true }) })
      ).await h.stamp (.runKernel h p), some (.ok, []))

/-- ASSIGN_VENDOR (R323, R331). -/
def semAssignVendor (h : Hdr) (p : AssignVendor) : Sem where
  op := 0x0803
  lenOk := h.length = 8
  modes := [.ready, .safeOff]
  range := fun _ => decide (1 ≤ p.kernel.toNat) && decide (p.kernel.toNat ≤ 6) && decide (p.core.toNat ≤ 3)
    && p.reserved0 == 0 && p.reserved1 == 0 && decide (p.channels.toNat < 1024)
  cond := fun d =>
    firstFail [d.noSig, (!d.isRetired 5 p.core.toNat, .retired),
      (!(p.kernel == 4 || p.kernel == 5) || decide ((d.decodesView p.core.toNat p.channels).length ≤ 5), .range)]
  eff := fun d => (d.await h.stamp (.assignVendor h p), some (.ok, []))

/-- ASSIGN_VENDOR at its boundary: the kernel has its core, and a Viterbi kernel's channels theirs, in the order of R12 up to the
limit of R323, which a retirement since may have brought nearer. -/
def Dev.applyAssignVendor (d : Dev) (t : Nat) (p : AssignVendor) : Dev :=
  let c := some p.core.toNat
  let vit := p.kernel == 4 || p.kernel == 5
  (d.onSig (fun s => { s with
    vendor := s.vendor.set (p.kernel.toNat - 1) c
    decoder := if vit then (List.range 10).foldl (fun l ch =>
        let line := fun (i : Nat) => decide ((look d.bus.chans i).mode = .line)
        let n := ((List.range 10).filter (fun i => line i && decide (l.getD i none = c))).length
        if p.channels.getLsbD ch ∧ (!line ch ∨ l.getD ch none = c ∨ n < 5) then l.set ch c else l) s.decoder
      else s.decoder })
    ).reassigned t p.core.toNat d.sig.vendor d.sig.decoder

/-- GET_CORE_STATE (R332). -/
def semGetCoreState (h : Hdr) (p : GetCoreState) : Sem where
  op := 0x0810
  lenOk := h.length = 4
  link := .both
  range := fun _ => p.reserved == 0 && decide (p.core.toNat ≤ 3)
  cond := fun d => firstFail [d.noSig]
  eff := fun d =>
    let i := p.core.toNat
    let c := look d.sig.cores i
    let st := if d.isRetired 5 i then 1 else if d.power.offMask.getLsbD 7 then 2 else 0
    let mask := fun (l : List (Option Nat)) => (l.zipIdx).foldl (fun a e => if e.1 = some i then a + 2 ^ e.2 else a) 0
    let user := (List.range 8).foldl (fun a s => match (look d.sig.kernels s).cfg with
      | some k => if k.core = p.core then a + (if k.run = 1 then k.budget.toNat / d.time.nSep else k.budget.toNat) else a
      | none => a) 0
    (d, some (.ok, leBytes 1 st ++ leBytes 1 (mask d.sig.vendor) ++ leBytes 2 (mask d.sig.decoder)
      ++ leBytes 4 (d.reservedCycles i) ++ leBytes 4 user ++ wordBytes c.busy ++ wordBytes c.busyMax
      ++ wordBytes (d.chan (chanId 5 i)).events))

/-- GET_KERNEL_STATE (R332). -/
def semGetKernelState (h : Hdr) (p : GetKernelState) : Sem where
  op := 0x0811
  lenOk := h.length = 4
  link := .both
  range := fun _ => p.reserved == 0 && decide (p.slot.toNat ≤ 7)
  cond := fun d => firstFail [d.noSig]
  eff := fun d =>
    let k := look d.sig.kernels p.slot.toNat
    let (st, core) := match k.cfg with
      | none => (0, 0)
      | some c => (if k.faulted then 3 else if k.running then 2 else 1, c.core.toNat)
    (d, some (.ok, leBytes 1 st ++ leBytes 1 core ++ wordBytes k.fault ++ [0] ++ wordBytes k.runs ++ wordBytes k.last
      ++ wordBytes k.largest ++ wordBytes k.addr))

def execLoadKernel (h : Hdr) (p : LoadKernel) (s : State) : Host.Outcome State Fault Refusal :=
  s.act (runCmd (semLoadKernel h p) h)

def execRemoveKernel (h : Hdr) (p : RemoveKernel) (s : State) : Host.Outcome State Fault Refusal :=
  s.act (runCmd (semRemoveKernel h p) h)

def execRunKernel (h : Hdr) (p : RunKernel) (s : State) : Host.Outcome State Fault Refusal :=
  s.act (runCmd (semRunKernel h p) h)

def execAssignVendor (h : Hdr) (p : AssignVendor) (s : State) : Host.Outcome State Fault Refusal :=
  s.act (runCmd (semAssignVendor h p) h)

def execGetCoreState (h : Hdr) (p : GetCoreState) (s : State) : Host.Outcome State Fault Refusal :=
  s.act (runCmd (semGetCoreState h p) h)

def execGetKernelState (h : Hdr) (p : GetKernelState) (s : State) : Host.Outcome State Fault Refusal :=
  s.act (runCmd (semGetKernelState h p) h)

end Sys2Proof.Machine
end

