-- ==== Sys2Proof/Machine/Bus.lean ====
section
/-! DEFINITION. The deck bus (spec/18_deck_bus_line_frames.md): the device frame and its two physical forms, reception with the
checks of R403, what FEEDBACK, PARAM, APP, SYNC, CLAIM and DATA frames do, and the commands of R410. -/

namespace Sys2Proof.Machine

/-! ### The device frame (R401) -/

/-- Bytes 0 to 15 + length of a frame. -/
def Frame.body (f : Frame) : List Byte :=
  wordBytes f.type ++ wordBytes f.flags ++ leBytes 2 f.payload.length ++ wordBytes f.source ++ wordBytes f.seq ++ leBytes 8 f.ct
    ++ f.payload

/-- A frame as it is sent: DATA carries no crc. -/
def Frame.bytes (f : Frame) : List Byte := if f.type = 0x0D then f.body else f.body ++ wordBytes (crc32c f.body)

/-- A frame read from its bytes. -/
def parseFrame (b : List Byte) : Frame :=
  { type := rd 8 b 0, flags := rd 8 b 1, source := rd 16 b 4, seq := rd 16 b 6, ct := (rd 64 b 8).toNat
    payload := (b.drop 16).take (rd 16 b 2).toNat }

/-- The size of a frame by its header: 16 + length, and the crc but for DATA. -/
def frameSize (b : List Byte) : Nat := 16 + (rd 16 b 2).toNat + (if rd 8 b 0 = 0x0D then 0 else 4)

/-! ### The line burst (R398, R399) -/

/-- The bits of a byte, least significant first. -/
def byteBits (b : Byte) : List Bool := (List.range 8).map (fun i => b.getLsbD i)

/-- The bytes that bits make up, eight at a time. -/
def bitsBytes : Nat → List Bool → List Byte
  | 0, _ => []
  | n + 1, bs => BitVec.ofNat 8 ((bs.take 8).zipIdx.foldl (fun acc e => acc + bit e.1 * 2 ^ e.2) 0) :: bitsBytes n (bs.drop 8)

/-- The information bits of a frame: its bits, six tail bits and pad bits. -/
def infoBits (bs : List Byte) : List Bool :=
  let u := bs.flatMap byteBits ++ List.replicate 6 false
  u ++ List.replicate ((56 - u.length % 56) % 56) false

/-- The outputs of the code that puncturing keeps: both, then Y, Y, Y, X, Y, X over seven bits. -/
def kept (i : Nat) : Bool × Bool := if i % 7 = 0 then (true, true) else if i % 7 = 4 ∨ i % 7 = 6 then (true, false) else (false, true)

/-- The coded and punctured bauds of information bits from the `i`-th on, from a state of the encoder. -/
def encodeBits : Nat → Nat → List Bool → List Bool
  | _, _, [] => []
  | i, s, u :: us =>
    let xy := codeBits s u
    (if (kept i).1 then [xy.1] else []) ++ (if (kept i).2 then [xy.2] else []) ++ encodeBits (i + 1) (bit u * 32 + s / 2) us

/-- The scrambler x^7 + x^4 + 1 from a state, bit 0 the newest stage: which of the last stage and the fed-back bit is its
output is open. -/
def scramble : Nat → List Bool → List Bool
  | _, [] => []
  | s, b :: bs =>
    let fb := s.testBit 6 != s.testBit 3
    (b != (if Config.scrambleLast then s.testBit 6 else fb)) :: scramble (s % 64 * 2 + bit fb) bs

/-- The bauds of a line burst, its closing baud of 0 included. -/
def lineBurst (bs : List Byte) : List Bool :=
  let info := infoBits bs
  let nb := BitVec.ofNat 8 (info.length / 56)
  ((List.range 24).map (fun i => decide (i % 2 = 0))) ++ [true, true, true, false, false, true, false, false]
    ++ byteBits nb ++ byteBits (~~~nb) ++ scramble 127 (encodeBits 0 0 info) ++ [false]

/-! ### Decoding (R316, R399) -/

/-- Received bits put back in place: X and Y of each information bit, and which of them was punctured. -/
def depuncture : Nat → Nat → List Bool → List (Bool × Bool × Bool × Bool)
  | 0, _, _ => []
  | n + 1, i, bs =>
    match kept i with
    | (true, true) => (bs.headD false, bs.tail.headD false, false, false) :: depuncture n (i + 1) (bs.drop 2)
    | (true, false) => (bs.headD false, false, false, true) :: depuncture n (i + 1) bs.tail
    | _ => (false, bs.headD false, true, false) :: depuncture n (i + 1) bs.tail

/-- The radix-4 steps over the information bits: path metrics, and the decisions newest first. -/
def viterbiSteps : List (Bool × Bool × Bool × Bool) → List (BitVec 8) → List (List Nat) → List (BitVec 8) × List (List Nat)
  | (x0, y0, p0, q0) :: (x1, y1, p1, q1) :: rest, pm, ss =>
    let bits : BitVec 4 := BitVec.ofNat 4 (bit x0 + 2 * bit y0 + 4 * bit x1 + 8 * bit y1)
    let punct : BitVec 4 := BitVec.ofNat 4 (bit p0 + 2 * bit q0 + 4 * bit p1 + 8 * bit q1)
    let r : List (BitVec 8 × Nat) := (List.range 64).map (acsState true pm bits punct)
    viterbiSteps rest (r.map Prod.fst) (r.map Prod.snd :: ss)
  | _, pm, ss => (pm, ss)

/-- The traceback from a state, prepending the bits found. -/
def viterbiBack : List (List Nat) → Nat → List Bool → List Bool
  | [], _, acc => acc
  | win :: ss, s, acc => viterbiBack ss (s % 16 * 4 + win.getD s 0) (s.testBit 4 :: s.testBit 5 :: acc)

/-- The decoded information bits of `nb` blocks of bauds, and the final path metric at state 0. -/
def viterbi (nb : Nat) (baud : List Bool) : List Bool × Nat :=
  let r := viterbiSteps (depuncture (56 * nb) 0 (scramble 127 baud)) (0 :: List.replicate 63 64) []
  (viterbiBack r.2 0 [], (r.1.headD 0).toNat)

/-! ### The Ethernet frame (R400) -/

/-- A device frame as an Ethernet frame of channel `ch` and sender's slot `slot`, from the destination to the payload. -/
def ethernet (ch slot : Nat) (bs : List Byte) : List Byte :=
  List.replicate 6 0xFF ++ [0x02, 0, 0, 0x0C, BitVec.ofNat 8 ch, BitVec.ofNat 8 slot, 0x88, 0xB5] ++ bs
    ++ List.replicate (46 - bs.length) 0

/-! ### The checks of R403 -/

/-- The reserved fields of a payload are 0, and its structure agrees with its length (R404, R406 to R408, R424, R425, R481). -/
def payloadOk (type : BitVec 8) (p : List Byte) : Bool :=
  let n := p.length
  let zero := fun (off k : Nat) => ((p.drop off).take k).all (· == 0)
  match type.toNat with
  | 1 => decide (n = 24) && decide ((rd 8 p 14).toNat < 4) && zero 21 3
  | 2 =>
    let c := (rd 8 p 8).toNat
    within 1 12 (rd 8 p 8) && decide (n = 16 + 20 * c) && decide ((rd 8 p 9).toNat < 4) && zero 10 6
      && (List.range c).all (fun i => zero (18 + 20 * i) 2)
  | 3 =>
    let c := (rd 8 p 16).toNat
    within 1 12 (rd 8 p 16) && decide (n = 32 + 24 * c) && decide ((rd 8 p 17).toNat < 4) && zero 22 10
      && (List.range c).all (fun i => decide ((rd 8 p (33 + 24 * i)).toNat < 8) && zero (34 + 24 * i) 2)
  | 4 => let m := (rd 16 p 8).toNat; decide (12 ≤ n) && decide (n = 12 + m) && decide (m % 4 = 0) && decide (m ≤ 1468) && zero 10 2
  | 5 => decide (28 ≤ n)
  | 6 =>
    let app := (rd 16 p 0).toNat
    decide (4 ≤ n) && zero 2 2
      && (if app = 3 then decide (n = 64) else if app = 2 then decide (n = 64) && zero 7 1 else true)
  | 7 => decide (n = 16) && zero 8 8
  | _ => true

/-- What the checks of R403 find: a check, a length or a content that fails (at which step), a foreign frame, a frame outside
its window, or a frame that passes. -/
inductive Verdict where
  | check
  | length
  | range
  | foreign
  | outside (f : Frame)
  | pass (f : Frame)
deriving DecidableEq, Repr

/-- Steps 4 and 5 for bytes in a container: `fits` compares the frame's size with it. -/
def judgeBytes (b : List Byte) (fits : Nat → Bool) : Option Verdict :=
  let len := rd 16 b 2
  if len.toNat > 1480 ∨ len.toNat % 4 ≠ 0 ∨ !fits (frameSize b) then some .length
  else if rd 8 b 0 ≠ 0x0D ∧ rd 32 b (16 + len.toNat) ≠ crc32c (b.take (16 + len.toNat)) then some .check
  else none

/-- The bits that the Viterbi kernel decodes of a burst in line mode whose block count stands (R316). -/
def decodedBits (form : FrameForm) : Option (List Byte) :=
  match form with
  | .line delimOk nb nbComp baud =>
    if !delimOk ∨ nbComp ≠ ~~~nb ∨ nb.toNat < 1 ∨ 215 < nb.toNat then none
    else some (bitsBytes (7 * nb.toNat) (viterbi nb.toNat (baud.take (64 * nb.toNat))).1)
  | .phy _ _ _ _ => none

/-- Steps 1 to 5: the frame's bytes, or what failed; and the bauds corrected. -/
def unwrap (form : FrameForm) : (Verdict ⊕ List Byte) × Nat :=
  match form with
  | .line delimOk nb nbComp baud =>
    if !delimOk ∨ nbComp ≠ ~~~nb then (.inl .check, 0)
    else if nb.toNat < 1 ∨ 215 < nb.toNat then (.inl .length, 0)
    else
      let r := viterbi nb.toNat (baud.take (64 * nb.toNat))
      let b := bitsBytes (7 * nb.toNat) r.1
      match judgeBytes b (fun size => decide (blocksOf size = nb.toNat)) with
      | some v => (.inl v, r.2)
      | none => (.inr (b.take (frameSize b)), r.2)
  | .phy fcsOk tagged etherType payload =>
    if !fcsOk then (.inl .check, 0)
    else if etherType ≠ 0x88B5 ∨ tagged then (.inl .foreign, 0)
    else match judgeBytes payload
        (fun size => decide (size = payload.length) || (decide (size < 46) && decide (payload.length = 46))) with
      | some v => (.inl v, 0)
      | none => (.inr (payload.take (frameSize payload)), 0)

/-- The deviation of a frame from its slot's start (R419). -/
def Dev.deviation (d : Dev) (f : FrameIn) : Int :=
  let set := f.ch.val / 2
  let s := d.busSet set
  f.tObs - (look s.dProp (eOwner (s.entry f.slot.val))).toNat - d.slotStart set f.slot.val

/-- Steps 6 and 7 for a frame in a slot. -/
def Dev.judgeSlot (d : Dev) (f : FrameIn) (b : List Byte) : Verdict :=
  let set := f.ch.val / 2
  let s := d.busSet set
  let w := s.entry f.slot.val
  let fr := parseFrame b
  if (eUse w ≠ 1 ∧ eUse w ≠ 3) ∨ !(eChan w).testBit (f.ch.val % 2) ∨ eType w ≠ fr.type.toNat ∨ fr.type.toNat ∉ frameTypes
      ∨ 1 < fr.flags.toNat ∨ !payloadOk fr.type fr.payload then .range
  else if s.cfg.wAcc.toNat < (d.deviation f).natAbs ∨ fr.ct ≠ d.slotStart set f.slot.val then .outside fr
  else .pass fr

/-! ### Reception -/

/-- The channel receives: its mode takes part, its form is the one received, it is in service, its set is not OFF, and in line
mode a core decodes it (R323, R409, R426, R495). -/
def Dev.hears (d : Dev) (f : FrameIn) : Bool :=
  let c := look d.bus.chans f.ch.val
  let formOk := match f.form with
    | .line _ _ _ _ => decide (c.mode = .line) && !d.power.offMask.getLsbD 7 && (match d.sig.decoder.getD f.ch.val none with
        | some k => !d.isRetired 5 k
        | none => false)
    | .phy _ _ _ _ => decide (c.mode = .phy)
  decide (d.power.mode ≠ .dormant) && decide (d.power.mode ≠ .boot) && d.chanRuns f.ch.val && formOk
    && decide ((d.busSet (f.ch.val / 2)).state ≠ .off)

/-- A counter of a channel is changed. -/
def Dev.onChan (d : Dev) (ch : Nat) (f : Channel → Channel) : Dev := d.onBus (fun b => { b with chans := upd b.chans ch f })

/-- The consumed connections of a slot; a retry slot stands for the slot it repeats (R416, R483). -/
def Dev.slotConns (d : Dev) (set slot : Nat) : List Nat :=
  let w := (d.busSet set).entry slot
  let n := if eUse w = 3 then eRetryOf w else slot
  (List.range 64).filter (fun c => let x := d.conn c; decide (x.dir = 1) && decide (x.set.toNat = set) && decide (x.slot.toNat = n))

/-- A container is rejected at a step of R483. -/
def Dev.rejectConn (d : Dev) (c step : Nat) : Dev :=
  d.onSafety (fun s => { s with conns := upd s.conns c (fun x =>
    { x with rejects := x.rejects.modify (step - 1) (· + 1), good := 0 }) })

/-- A frame that fails is discarded whole: it is counted, and so is one event on the channel (R403); within an own SYNC slot in
COLDSTART it is a collision (R429), and in a safety connection's slot a rejection at step 1 (R483). In line mode a frame that
fails steps 1 to 5 where the device itself sends is what it reads back in place of its burst (R416). -/
def Dev.refuseFrame (d : Dev) (t : Nat) (f : FrameIn) (early : Bool) (count : Channel → Channel) : Dev :=
  let set := f.ch.val / 2
  let d1 := (d.onChan f.ch.val count).faultEvent 1 f.ch.val t
  let d2 := (d1.slotConns set f.slot.val).foldl (fun d c => d.rejectConn c 1) d1
  if early ∧ (d2.busSet set).state = .coldstart ∧ f.slot.val ∈ d2.ownSync set then d2.collide t set f.ch.val
  else if early ∧ (look d2.bus.chans f.ch.val).mode = .line ∧ d2.bus.sent.any (fun x =>
      decide (x.set = set) && decide (x.slot = f.slot.val) && x.chans.getLsbD (f.ch.val % 2)) = true
    then d2.truncated t set f.slot.val
  else d2

/-- A worker's frame in its own spine slot counts it as joined (R437). -/
def Dev.workerSeen (d : Dev) (t owner : Nat) : Dev :=
  let cell := owner / 2
  if !d.isManager ∨ owner < 2 ∨ 31 < owner then d
  else
    let was := (look d.pair.workers cell).joined
    let d1 := d.onPair (fun p => { p with workers := upd p.workers cell (fun w => { w with joined := true, lastRx := t }) })
    if was then d1
    else d1.notice 1 0 t 0x0D07 (BitVec.ofNat 32 (cell + owner % 2 * 16 + d.time.k % 65536 * 65536)) true

/-- What reception leaves: the device, and the frame that passed with whether it is a later copy, or that fell outside its
window. -/
structure Heard where
  dev     : Dev
  frame   : Option Frame := none
  copy    : Bool := false
  outside : Option Frame := none

/-- A frame received, for a row that carries frames of type `type`. A frame of another type that passes has a row of its own. In
line mode it releases its decoding (R322); that its effect stands at its arrival is the model's choice (DESIGN CHOICE, log entry
179). -/
def Dev.hear (d : Dev) (t : Nat) (f : FrameIn) (type : BitVec 8) : Heard :=
  let ch := f.ch.val
  let set := ch / 2
  if !d.hears f then { dev := d }
  else if (look d.bus.chans ch).mode = .line ∧ 16 ≤ d.framesHeld ch then { dev := (d.wakeDisp t).faultEvent 1 ch t }
  else
    let u := unwrap f.form
    let d := if (look d.bus.chans ch).mode = .line then d.fire t t (0x100 + 128 * ch + f.slot.val) else d.wakeDisp t
    let d := d.onChan ch (fun c => { c with
      corrected := c.corrected + BitVec.ofNat 32 u.2, area := (decodedBits f.form).getD c.area })
    let v := match u.1 with
      | .inl v => v
      | .inr b => d.judgeSlot f b
    match v with
    | .check => { dev := d.refuseFrame t f true (fun c => { c with check := c.check + 1 }) }
    | .length => { dev := d.refuseFrame t f true (fun c => { c with lengthErr := c.lengthErr + 1 }) }
    | .range => { dev := d.refuseFrame t f false (fun c => { c with rangeErr := c.rangeErr + 1 }) }
    | .foreign => { dev := d.onChan ch (fun c => { c with foreign := c.foreign + 1 }) }
    | .outside fr =>
      if fr.type ≠ type then { dev := d }
      else
        let d1 := d.refuseFrame t f false (fun c => { c with rangeErr := c.rangeErr + 1 })
        let d2 := d1.onSet set (fun s => { s with rejections := s.rejections + 1 })
        { dev := d2, outside := some fr }
    | .pass fr =>
      if fr.type ≠ type then { dev := d }
      else
        let d1 := d.onChan ch (fun c => { c with accepted := c.accepted + 1, retry := c.retry + BitVec.ofNat 32 (fr.flags.toNat % 2) })
        let d2 := if set = 4 then d1.workerSeen t (eOwner ((d1.busSet 4).entry f.slot.val)) else d1
        let copy := decide ((fr.source, fr.seq) ∈ (d2.busSet set).seen)
        let d3 := if copy then d2 else d2.onSet set (fun s => { s with seen := s.seen ++ [(fr.source, fr.seq)] })
        { dev := d3, frame := some fr, copy := copy }

/-- A frame that passed and is no later copy has an effect (R416). -/
def Dev.onFrame (d : Dev) (t : Nat) (f : FrameIn) (type : BitVec 8) (eff : Dev → Frame → Dev) : Dev :=
  let h := d.hear t f type
  match h.frame with
  | some fr => if h.copy then h.dev else eff h.dev fr
  | none => h.dev

/-! ### FEEDBACK (R406) -/

/-- The samples of a FEEDBACK frame are delivered; those of another boundary than the present one are not fresh, and their
joints are missing (R180). -/
def Dev.feedback (d : Dev) (f : FrameIn) (fr : Frame) : Dev :=
  let p := fr.payload
  let set := f.ch.val / 2
  let w := (d.busSet set).entry f.slot.val
  let mask : BitVec 10 := BitVec.ofNat 10 (eChan w * 2 ^ (2 * set))
  let fresh := decide ((rd 64 p 0).toNat = d.bk)
  let node : NodeRec := { applied := (rd 64 p 8).toNat, state := rd 8 p 17, fault := rd 16 p 18, temp := rd 16 p 20 }
  let d1 := d.onBus (fun b => { b with nodes := put b.nodes (set * 64 + eOwner w) node })
  (List.range (rd 8 p 16).toNat).foldl (fun d i =>
    let o := 32 + 24 * i
    let j := (rd 8 p o).toNat
    if 127 < j ∨ d.multJoint j then d
    else d.onJoint j (fun x =>
      if fresh then { x with
        fbCh := mask, fbLast := if x.fbStamp = some (d.bk - d.time.tc) then some x.fb else none, fbStamp := some d.bk
        fb := ((rd 64 p (o + 4)).setWidth 48).toInt, fbVel := (rd 32 p (o + 12)).toInt, fbTorque := (rd 32 p (o + 16)).toInt
        fbCurrent := (rd 32 p (o + 20)).toInt, fbState := rd 8 p (o + 1) }
      else { x with fbCh := mask })) d1

/-- FEEDBACK_FRAME (R406). -/
def execFeedbackFrame (t : Nat) (f : FrameIn) (s : State) : Host.Outcome State Fault Refusal :=
  s.act (fun d => (d.advance t).onFrame t f 3 (fun d fr => d.feedback f fr))

/-! ### PARAM (R407, R410) -/

/-- The response of a parameter transaction: its status and data go into the reply of DRIVE_PARAM; a late one is answered
with DEADLINE. -/
def Dev.paramResponse (d : Dev) (t : Nat) (fr : Frame) : Dev :=
  let p := fr.payload
  match d.bus.params.find? (fun x => x.sent && x.tid == rd 16 p 0 && rd 8 p 2 == x.p.op ||| 0x80) with
  | some x =>
    let d1 := d.onBus (fun b => { b with params := b.params.erase x })
    if x.deadline < t then d1.reply x.hdr 0x0C10 .deadline []
    else d1.reply x.hdr 0x0C10 .ok (wordBytes (rd 16 p 6) ++ [0, 0] ++ p.drop 12)
  | none => d

/-- PARAM_RESPONSE (R407). -/
def execParamResponse (t : Nat) (f : FrameIn) (s : State) : Host.Outcome State Fault Refusal :=
  s.act (fun d => (d.advance t).onFrame t f 4 (fun d fr => d.paramResponse t fr))

/-- Transactions whose wait for a response is over are answered with DEADLINE (R104, R410). -/
def Dev.paramsExpire (d : Dev) (t : Nat) : Dev :=
  (d.bus.params.filter (fun x => decide (x.deadline < t))).foldl (fun d x =>
    (d.onBus (fun b => { b with params := b.params.erase x })).reply x.hdr 0x0C10 .deadline []) d

/-! ### APP, DATA and CLAIM (R402, R408, R425, R430) -/

/-- The body of an APP frame: a ballast status from segment D, or the load frame's pose from the slot that DEFINE_LOAD_FRAME
names. -/
def Dev.appBody (d : Dev) (t : Nat) (f : FrameIn) (fr : Frame) : Dev :=
  let app := (rd 16 fr.payload 0).toNat
  let body := fr.payload.drop 4
  let w := (d.busSet (f.ch.val / 2)).entry f.slot.val
  let slot := if eUse w = 3 then eRetryOf w else f.slot.val
  if app = 2 ∧ f.ch.val / 2 = 3 then d.ballastStatus t body
  else if app = 3 then
    match d.deck.loadDef with
    | some c => if c.channel.toNat / 2 = f.ch.val / 2 ∧ c.slot.toNat = slot then d.loadPose body else d
    | none => d
  else d

/-- APP_FRAME (R408). -/
def execAppFrame (t : Nat) (f : FrameIn) (s : State) : Host.Outcome State Fault Refusal :=
  s.act (fun d => (d.advance t).onFrame t f 6 (fun d fr => d.appBody t f fr))

/-- DATA_FRAME (R402): it is checked and counted; its payload is the sending node's. -/
def execDataFrame (t : Nat) (f : FrameIn) (s : State) : Host.Outcome State Fault Refusal :=
  s.act (fun d => (d.advance t).onFrame t f 0x0D (fun d _ => d))

/-- CLAIM_FRAME (R425, R430). -/
def execClaimFrame (t : Nat) (f : FrameIn) (s : State) : Host.Outcome State Fault Refusal :=
  s.act (fun d => (d.advance t).onFrame t f 7 (fun d fr =>
    let p := fr.payload
    if rd 32 p 0 = 0 then d
    else d.handleClaim t (f.ch.val / 2)
      { id := rd 32 p 0, type := rd 8 p 4, chan := BitVec.ofNat 2 (rd 8 p 5).toNat, size4 := rd 16 p 6 }))

/-! ### SYNC (R421, R427 to R429, R437) -/

/-- The device adopts the grid of a SYNC's sender where its own disagrees (R10, R428, R437): a worker or arbiter on the spine
the manager's, a standby unit its partner's. -/
def Dev.adopts (d : Dev) (set owner : Nat) : Bool :=
  (decide (set = 4) && !d.isManager && decide (owner < 2))
    || (d.inPair && !d.holdsLease && decide (d.power.mode = .shadow)
        && decide (owner = (if set = 4 then 2 * (d.pair.cell.toNat % 16) else 0) + (1 - d.unitBits)))

/-- A stamp on the old grid at the same place after B_{k+1} on the new one. -/
def shiftStamp (old new x : Nat) : Nat := new + x - old

/-- The join step of R10: the sender's CT, epoch, period and Tc, N_sep are taken over; CT before and after are journalled,
with the supervisor as the source (DESIGN CHOICE, log entry 133). -/
def Dev.joinStep (d : Dev) (t set : Nat) (f : FrameIn) (fr : Frame) : Dev :=
  let p := fr.payload
  let w := (d.busSet set).entry f.slot.val
  let seen := f.tObs - (look (d.busSet set).dProp (eOwner w)).toNat
  let ct' := ((t : Int) + fr.ct - seen).toNat
  let k := (rd 64 p 0).toNat
  let tc := tcOfCode (rd 8 p 12).toNat
  let old := d.bNext
  let ct0 := fr.ct - eStart w * 128 - k * tc
  let d1 := d.onTime (fun x => { x with ct := ct', ct0 := ct0, k := k, tc := tc, nSep := (rd 8 p 13).toNat })
  let mv := shiftStamp old d1.bNext
  let wait := d1.waiting.map (fun w => { w with effB := mv w.effB })
  let trans := d1.power.pending.map (fun q => { q with effB := mv q.effB })
  let timing := d1.time.pending.map (fun q => { q with effB := mv q.effB })
  let d2 := ({ d1 with waiting := wait } : Dev).onTime (fun x => { x with pending := timing })
    |>.onPower (fun x => { x with pending := trans })
  d2.journal 1 0 ct' 0x0102 (leBytes 8 t ++ leBytes 8 ct')

/-- A SYNC that passed every check: its e is kept for the correction, and it takes a set in LISTEN or PASSIVE to INTEGRATE; in
COLDSTART one with COLDSTART set is a collision. -/
def Dev.syncValid (d : Dev) (t set : Nat) (f : FrameIn) (fr : Frame) : Dev :=
  let s := d.busSet set
  let w := s.entry f.slot.val
  let e := d.deviation f
  let note := fun (x : Tab (Option Int)) (c : Nat) =>
    if eSyncSrc w ∧ f.ch.val % 2 = c then put x (eOwner w) (some e) else x
  let d1 := d.onSet set (fun s => { s with
    valid := s.valid + 1, sourcesX := note s.sourcesX 0, sourcesY := note s.sourcesY 1 })
  match s.state with
  | .listen => match s.backoff with
    | some b => if t ≤ b then d1.enterSet t set .integrate else d1
    | none => d1.enterSet t set .integrate
  | .passive => d1.enterSet t set .integrate
  | .coldstart => if (rd 8 fr.payload 14).getLsbD 0 then d1.collide t set f.ch.val else d1
  | _ => d1

/-- A SYNC that is not the device's own: the schedule it shows, its grid, and its place in the window (R424, R428). -/
def Dev.sync (d : Dev) (t : Nat) (f : FrameIn) (fr : Frame) (inside : Bool) : Dev :=
  let set := f.ch.val / 2
  let s := d.busSet set
  let w := s.entry f.slot.val
  let p := fr.payload
  let own := fr.source = d.source 8 (2 * set) ∨ fr.source = d.source 8 (2 * set + 1)
  let cycle := (rd 64 p 0).toNat
  let off := ((fr.ct : Int) - d.slotStart set f.slot.val).natAbs
  let other := decide (cycle ≠ d.time.k)
  let idOk := rd 32 p 8 == s.schedId
  let rates := decide ((rd 8 p 12).toNat = tcCode d.time.tc) && decide ((rd 8 p 13).toNat = d.time.nSep)
  if own then d
  else
    let d1 := if inside ∧ idOk then d else d.onSet set (fun s => { s with dirty := true })
    if inside ∧ !idOk then
      if s.state = .passive then d1 else (d1.goPassive t set 0 0x41).busNotice t 0x45 set (eOwner w) true
    else if !idOk then d1
    else if d.adopts set (eOwner w) then
      if other ∨ s.cfg.wAcc.toNat < off ∨ !rates then
        if d.power.mode ∈ [.ready, .safeOff, .shadow] then
          if (rd 8 p 12).toNat ≤ 3 ∧ within 1 8 (rd 8 p 13) then
            let d2 := d1.joinStep t set f fr
            d2.enterSet d2.time.ct set .integrate
          else d1
        else if other ∨ s.cfg.oLim.toNat < off then d1.goPassive t set (eOwner w) 0x41
        else d1
      else if inside then d1.syncValid t set f fr else d1
    else if other ∨ s.cfg.wAcc.toNat < off then (d1.enterSet t set .listen).busNotice t 0x44 set (eOwner w) true
    else if inside then d1.syncValid t set f fr
    else d1

/-- SYNC_FRAME (R421): every copy gives its e. -/
def execSyncFrame (t : Nat) (f : FrameIn) (s : State) : Host.Outcome State Fault Refusal :=
  s.act (fun d =>
    let h := (d.advance t).hear t f 1
    match h.frame, h.outside with
    | some fr, _ => h.dev.sync t f fr true
    | none, some fr => h.dev.sync t f fr false
    | none, none => h.dev)

/-! ### The PHY link (R400) -/

/-- The link status of a channel in PHY mode is read. -/
def Dev.linkPoll (d : Dev) (t ch : Nat) (up : Bool) : Dev :=
  if (look d.bus.chans ch).mode ≠ .phy ∨ d.power.mode = .dormant ∨ d.power.mode = .boot then d
  else if up then d.onChan ch (fun c => { c with linkUp := true })
  else (d.onChan ch (fun c => { c with linkUp := false, linkDown := c.linkDown + 1 })).faultEvent 1 ch t

/-- PHY_LINK_POLL (R400). -/
def execPhyLinkPoll (t : Nat) (ch : Fin 10) (up : Bool) (s : State) : Host.Outcome State Fault Refusal :=
  s.act (fun d => (d.advance t).linkPoll t ch.val up)

/-! ### Commands (R410) -/

/-- The line-mode channels that a core decodes, another channel counted too (R323). -/
def Dev.lineLoad (d : Dev) (chans : Tab Channel) (core ch : Nat) : Nat :=
  ((List.range 10).filter (fun i => decide (d.decoderView.getD i none = some core)
    && (decide (i = ch) || decide ((look chans i).mode = .line)))).length

/-- CONFIG_BUS_CHANNEL: no mix of forms in a set, a table that still fits, and in line mode a decoder with room. -/
def semConfigBusChannel (h : Hdr) (p : ConfigBusChannel) : Sem where
  op := 0x0C00
  lenOk := h.length = 4
  modes := [.ready]
  range := fun _ => within 0 9 p.channel && within 0 2 p.mode && within 0 31 p.phyAddr && p.reserved == 0
  cond := fun d =>
    let ch := p.channel.toNat
    let v := d.chansView
    let form : ChanMode := if p.mode = 0 then .off else if p.mode = 1 then .line else .phy
    let mate := (look v (partnerOf ch)).mode
    let core := d.decoderView.getD ch none
    firstFail [
      (decide (p.mode ≠ 1) || !d.isArbiter, .retired),
      (decide (p.mode = 0) || !d.isRetired 1 ch, .retired),
      (decide (form = .off) || decide (mate = .off) || decide (mate = form), .range),
      (decide (form = .off) || d.tableFits (ch / 2) form, .range),
      (decide (p.mode ≠ 1) || !d.domOff 7, .range),
      (decide (p.mode ≠ 1) || (match core with
        | some c => !d.isRetired 5 c
        | none => false), .retired),
      (decide (p.mode ≠ 1) || (match core with
        | some c => decide (d.lineLoad v c ch ≤ 5)
        | none => true), .range)]
  eff := fun d => (d.await h.stamp (.configBusChannel h p), some (.ok, []))

/-- CONFIG_BUS_CHANNEL at its boundary: a set without a channel is OFF, and one that gets its first starts in LISTEN. -/
def Dev.applyBusChannel (d : Dev) (b : Nat) (p : ConfigBusChannel) : Dev :=
  let ch := p.channel.toNat
  let set := ch / 2
  let d1 := d.onChan ch (fun c =>
    { c with mode := if p.mode = 0 then .off else if p.mode = 1 then .line else .phy, phyAddr := p.phyAddr
             linkUp := c.linkUp && p.mode == 2 })
  if !d1.chanRuns (2 * set) ∧ !d1.chanRuns (2 * set + 1) then d1.enterSet b set .off
  else if (d1.busSet set).state = .off ∧ !(d1.busSet set).invalid then d1.enterSet b set .listen
  else d1

/-- CONFIG_DRIVE_PROFILE (R405): t_apply after the last SETPOINT slot and within the period; t_hold over the switch-over gap. -/
def semConfigDriveProfile (h : Hdr) (p : ConfigDriveProfile) : Sem where
  op := 0x0C01
  lenOk := h.length = 12
  modes := [.ready]
  range := fun d =>
    let last := (((d.tableView p.segment.toNat).getD []).filter (fun w => decide (eUse w ≠ 0) && decide (eType w = 2))).foldl
      (fun m w => max m (eEnd w)) 0
    within 0 3 p.segment && p.reserved == 0 && decide (last * 128 + 1024 ≤ p.tApply.toNat) && decide (p.tApply.toNat < d.time.tc)
      && decide (3 * d.time.tc + 1024 ≤ p.tHold.toNat)
  eff := fun d => (d.await h.stamp (.configDriveProfile h p), some (.ok, []))

/-- CONFIG_DRIVE_PROFILE at its boundary. -/
def Dev.applyDriveProfile (d : Dev) (p : ConfigDriveProfile) : Dev :=
  d.onBus (fun b => { b with profiles := put b.profiles p.segment.toNat (some p) })

/-- DRIVE_PARAM: the request waits for the node's PARAM slot, and the reply for the response. -/
def semDriveParam (h : Hdr) (p : DriveParam) : Sem where
  op := 0x0C10
  lenOk := decide (12 ≤ h.length) && decide (h.length = 12 + (if p.op = 2 then p.n.toNat else 0))
  modes := grantModes
  range := fun d =>
    let w := (d.busSet (p.channel.toNat / 2)).entry p.slot.toNat
    within 0 9 p.channel && within 0 127 p.slot && within 1 2 p.op && within 0 1468 p.n && decide (p.n.toNat % 4 = 0)
      && decide (eType w = 4) && decide (eUse w = 1) && d.ownSlot (p.channel.toNat / 2) w
      && (eChan w).testBit (p.channel.toNat % 2)
  eff := fun d => (d.onBus (fun b => { b with
    nextTid := b.nextTid + 1
    params := b.params ++ [{ hdr := h, p := p, tid := b.nextTid, deadline := h.stamp + p.timeout.toNat }] }), none)

/-- The counters of GET_BUS_STATS. -/
def Channel.stats (c : Channel) : List Byte :=
  wordBytes c.accepted ++ wordBytes c.check ++ wordBytes c.lengthErr ++ wordBytes c.rangeErr ++ wordBytes c.corrected
    ++ wordBytes c.retry ++ wordBytes c.foreign ++ wordBytes c.linkDown

/-- GET_BUS_STATS. -/
def semGetBusStats (h : Hdr) (p : GetBusStats) : Sem where
  op := 0x0C20
  lenOk := h.length = 4
  link := .both
  range := fun _ => within 0 9 p.channel && within 0 1 p.clear && p.reserved == 0
  eff := fun d =>
    let c := look d.bus.chans p.channel.toNat
    (if p.clear = 1 then d.onChan p.channel.toNat (fun c => { mode := c.mode, phyAddr := c.phyAddr, linkUp := c.linkUp, area := c.area }) else d,
      some (.ok, c.stats))

def execConfigBusChannel (h : Hdr) (p : ConfigBusChannel) (s : State) : Host.Outcome State Fault Refusal :=
  s.act (runCmd (semConfigBusChannel h p) h)

def execConfigDriveProfile (h : Hdr) (p : ConfigDriveProfile) (s : State) : Host.Outcome State Fault Refusal :=
  s.act (runCmd (semConfigDriveProfile h p) h)

def execDriveParam (h : Hdr) (p : DriveParam) (s : State) : Host.Outcome State Fault Refusal :=
  s.act (runCmd (semDriveParam h p) h)

def execGetBusStats (h : Hdr) (p : GetBusStats) (s : State) : Host.Outcome State Fault Refusal :=
  s.act (runCmd (semGetBusStats h p) h)

end Sys2Proof.Machine
end

