-- ==== Sys2Proof/Machine/Pairs.lean ====
section
/-! DEFINITION. Hierarchy, pairs and leases (spec/20_spine_pairs_leases.md): the lease logic of a unit, the arbiter, the mirror
link and the standby, takeover, and the commands of class 0x0D. -/

namespace Sys2Proof.Machine

/-! ### Messages, lanes and digest (R440, R447, R449, R457) -/

/-- A notice of this chapter (R457). -/
def Dev.pairNotice (d : Dev) (t code cell unit : Nat) (journalled : Bool) (items : List Byte := [0, 0, 0, 0]) : Dev :=
  d.notice 1 0 t (BitVec.ofNat 16 (0x0D00 + code)) (BitVec.ofNat 32 (cell % 16 + unit % 4 * 16 + d.time.k % 65536 * 65536))
    journalled items

/-- The same of this unit. -/
def Dev.ownNotice (d : Dev) (t code : Nat) (journalled : Bool) (items : List Byte := [0, 0, 0, 0]) : Dev :=
  d.pairNotice t code d.pair.cell.toNat d.unitBits journalled items

/-- The mirror lanes in service: configured, up and not retired. -/
def Dev.lanesUp (d : Dev) : List Nat :=
  match d.pair.cfg with
  | some c => [0, 1].filter (fun i => c.lanes.getLsbD i && d.pair.lanes.getLsbD i && !d.isRetired 2 i)
  | none => []

/-- One event on every mirror lane in service. -/
def Dev.laneEvents (d : Dev) (t : Nat) : Dev := d.lanesUp.foldl (fun d i => d.faultEvent 2 i t) d

/-- The digest of R440. -/
def Dev.digest (d : Dev) : BitVec 32 :=
  (Config.sha256 d.configImage).setWidth 32

/-! ### Unfit reasons (R449) -/

/-- A retired internal channel has no spare in service. -/
def Dev.internalBad (d : Dev) : Bool :=
  d.faults.chans.any (fun e => e.2.retired && internalChan (BitVec.ofNat 16 e.1) &&
    (if e.1 / 256 = 3 then decide (e.1 % 256 < 32) && d.laneOn (e.1 % 256) && e.2.partner.isNone else true))

/-- The spine set and every configured segment set are SYNCED. -/
def Dev.setsSynced (d : Dev) : Bool :=
  (List.range 5).all (fun i => decide ((d.busSet i).state = .synced) || (decide (i ≠ 4) && decide (formOf d.bus.chans i = .off)))

/-- The unfit reasons of R449 as they hold now. -/
def Dev.unfitMask (d : Dev) : BitVec 32 :=
  let p := d.pair
  let standby := decide (d.power.mode = .shadow)
  let dig := match p.lastRec with
    | some r => !d.holdsLease && decide (r.digest ≠ d.digest)
    | none => false
  BitVec.ofNat 32 (bit d.internalBad + 2 * bit dig + 4 * bit (decide (4 ≤ p.ctErr)) + 8 * bit (!d.setsSynced)
    + 16 * bit (d.lanesUp.isEmpty || (standby && !p.applied)) + 32 * bit (!d.safety.valid || !d.sealOk))

/-- A change of a reason posts STANDBY_UNFIT or its clearing; a unit that holds the lease posts nothing. -/
def Dev.checkFit (d : Dev) (t : Nat) : Dev :=
  let m := d.unfitMask
  if !d.inPair ∨ m = d.pair.unfit then d
  else
    let d1 := d.onPair (fun p => { p with unfit := m })
    if d.holdsLease then d1 else d1.ownNotice t 5 true (wordBytes m)

/-- The periods since the last applied record; 0 for a holder (R440). -/
def Dev.lag (d : Dev) : Nat :=
  if d.holdsLease then 0
  else match d.pair.lastRec with
    | some r => min 255 (d.time.k - r.k)
    | none => 255

/-- LEASE_IN as this unit reads it: the partner's lease runs. -/
def Dev.leaseIn (d : Dev) : Bool := decide (d.time.ct < d.pair.partnerX)

/-- Every output of the present boundary was staged in time, and nothing makes the unit unfit (R441). -/
def Dev.attests (d : Dev) : Bool := decide (d.pair.stagedOk = d.bk) && d.unfitMask == 0

/-- The message of a pair unit in its slot (R440): a RELEASE that waits, else REQUEST of a holder that can attest, else HEALTH. -/
def Dev.pairMessage (d : Dev) : LeaseMsg :=
  let m := d.unfitMask
  let holder := d.holdsLease
  let flags := fun (att : Bool) => BitVec.ofNat 8 (bit (m == 0) + 2 * bit holder + 4 * bit d.leaseIn + 8 * bit att)
  let base : LeaseMsg := { cell := d.pair.cell, unit := BitVec.ofNat 8 d.unitBits, mode := BitVec.ofNat 8 d.power.mode.code,
                           lag := BitVec.ofNat 8 d.lag, digest := d.digest, unfit := m }
  match d.pair.toSend with
  | some r => { base with kind := 5, flags := flags false, instant := r.instant }
  | none => if holder ∧ d.attests then { base with kind := 2, flags := flags true }
    else { base with kind := 1, flags := flags false }

/-- The 32 bytes of a message (R440). -/
def leaseBytes (m : LeaseMsg) : List Byte :=
  [m.kind, m.cell, m.unit, m.flags] ++ wordBytes m.status ++ [m.mode, m.lag] ++ leBytes 8 m.instant ++ wordBytes m.digest
    ++ wordBytes m.unfit ++ leBytes 8 0

/-- The message is about this unit's pair, and this unit can receive. -/
def Dev.ownPairMsg (d : Dev) (m : LeaseMsg) : Bool :=
  d.inPair && decide (m.cell = d.pair.cell) && decide (d.power.mode ≠ .dormant) && decide (d.power.mode ≠ .boot)

/-! ### The standby applies a record (R448, R449) -/

/-- A move as an arm's queue holds it. -/
def mirrorMove (m : MirrorMove) (b : Nat) : QMove :=
  { notify := m.notify, id := m.id, vfrac := m.vfrac, afrac := m.afrac, blend := m.blend, effB := b,
    goal := if m.joint then .joint m.goal else .cart m.frame (m.goal.take 3) (m.goal.drop 3) }

/-- A DELTA changes the moves of an arm, oldest first, of which the first `started` have started. -/
def applyDelta (b a : Nat) (l : List QMove) : MirrorDelta → List QMove
  | .append m => if m.arm = a then l ++ [mirrorMove m b] else l
  | .retire x => if x = a then l.tail else l
  | .flush x => if x = a then [] else l
  | .value _ _ _ _ => l
  | .model _ _ => l

/-- The state of an arm that a code names (R145). -/
def ArmPhase.ofCode : Nat → ArmPhase
  | 1 => .moving | 2 => .paused | 3 => .stopping | 4 => .stopped | _ => .idle

/-- An arm of a record is applied: its moves by the DELTAs, the running one at its τ, the scalings and the stop. The start of a
run that begins in this record is the commanded position of the record before. -/
def Dev.applyMirrorArm (d : Dev) (b : Nat) (deltas : List MirrorDelta) (x : MirrorArm) : Dev :=
  let arm := look d.arms x.arm
  let start := arm.joints.map (fun j => (look d.joints j).cmd)
  let moves := deltas.foldl (applyDelta b x.arm) (arm.done ++ arm.runs.map (·.move) ++ arm.queue)
  let runs : List Run := match x.running with
    | some (id, tau, tt, ta) =>
      match arm.runs.find? (fun r => r.move.id = id), moves.find? (fun m => m.id = id) with
      | some r, _ => [{ r with tau := tau, t := tt, ta := ta, init := true }]
      | none, some m => [{ d.newRun x.arm m arm.lastCart start tau with t := tt, ta := ta }]
      | none, none => []
    | none => []
  let queue := moves.filter (fun m => runs.all (fun r => r.move.id ≠ m.id))
  let arm' := { arm with
    queue := queue, runs := runs, done := [], phase := ArmPhase.ofCode x.phase, reason := x.reason, s := x.s, sl := x.s,
    sHost := x.sHost, sSep := x.sSep, sDeck := x.sDeck, stopNext := none,
    stopSeq := x.stop.map (fun e => { s0 := e.1, n := e.2.1, i := e.2.2 }) }
  let d1 := { d with arms := put d.arms x.arm arm' }
  let d2 := (List.zip arm.joints x.cmd).foldl (fun d e => d.onJoint e.1 (fun j => { j with prev := j.cmd, cmd := e.2 })) d1
  (d2.onKin x.arm (fun k => { k with payload := x.payload, normA := x.normA, normB := x.normB })).showArm x.arm

/-- A joint slot of a record is applied. R448 mirrors the operating state and the last output of a slot, not u_man: a MANUAL slot
goes on with the standby's own (DESIGN CHOICE, log entry 191). -/
def Dev.applyMirrorJoint (d : Dev) (x : MirrorJoint) : Dev :=
  d.onLoop (fun l => { l with joints := upd l.joints x.slot (fun s => { s with
    manual := x.manual, flags := x.flags, last := x.last, out := some x.last, preset := true, core := { m := x.core, e := x.coreE },
    stages := x.stages.map (fun e => { m := e.1, e := e.2 }) }) })

/-- An arm slot of a record is applied: what it held is what its next sample is preset to (R183, R187). -/
def Dev.applyMirrorArmSlot (d : Dev) (x : MirrorSlot) : Dev :=
  d.onLoop (fun l => { l with arms := upd l.arms x.slot (fun s => { s with
    flags := x.flags, outs := x.outs, preset := true, cores := x.cores.map (fun e => { m := e.1, e := e.2 }) }) })

/-- A current slot of a record is applied. -/
def Dev.applyMirrorCurrent (d : Dev) (x : MirrorSlot) : Dev :=
  let core := fun (i : Nat) => let e := x.cores.getD i ([], 0); ({ m := e.1, e := e.2 } : Block)
  d.onLoop (fun l => { l with currents := upd l.currents x.slot (fun s => { s with
    flags := x.flags, coreD := core 0, coreQ := core 1 }) })

/-- A problem of a record is applied, where the problem is defined: its whole result area (R235). -/
def Dev.applyMirrorProblem (d : Dev) (x : MirrorProblem) : Dev :=
  d.onProblem x.id (fun p => { p with res := { status := x.status, flags := x.flags, iters := x.iters, lane := x.lane
                                               ended := x.ended, validAt := x.validAt, residual := x.residual, sol := x.sol }
                                      usable := decide (x.status.toNat ∈ [Status.ok, .okCapped, .pivotReg].map Status.code) })

/-- The open lifts of a record stand, and no other. -/
def Dev.applyMirrorLifts (d : Dev) (l : List MirrorLift) : Dev :=
  d.onDeck (fun k => { k with lifts := l.foldl (fun m x => put m x.p.arm.toNat (some
      { p := x.p, phiRef := x.phiRef, thetaRef := x.thetaRef, tankRef := x.tankRef, phiEnd := x.phiEnd, thetaEnd := x.thetaEnd,
        holding := x.holding, started := x.started, heelStop := x.heelStop })) [] })

/-- A DELTA of the predictor is applied (R448): a value joins the window, a model takes the place of the last. -/
def Dev.applyMirrorPredictor (d : Dev) (x : MirrorDelta) : Dev :=
  match x with
  | .value at_ phi theta z => d.onDeck (fun k => { k with vals := ((phi, theta, z) :: k.vals).take 1024, valAt := at_ })
  | .model since parts =>
    let waves := parts.map (fun e => (e.1, e.2.map (fun w => ({ amp := w.1, freq := w.2.1, phase := w.2.2 } : Wave))))
    d.onDeck (fun k => { k with model := some { since := since, parts := waves } })
  | _ => d

/-- The deck state of a record is applied, its words in the order of R288. -/
def Dev.applyMirrorDeck (d : Dev) (w : List (BitVec 32)) : Dev :=
  let at3 := fun (i : Nat) => (List.range 3).map (fun j => w.getD (i + j) 0)
  d.onDeck (fun k => { k with est :=
    { stamp := (w.getD 0 0).toNat + 2 ^ 32 * (w.getD 1 0).toNat, angles := at3 2, z := w.getD 5 0, omega := at3 6, alpha := at3 9,
      aRef := at3 12, gD := at3 15, phiS := w.getD 18 0, thetaS := w.getD 19 0, flags := (w.getD 20 0).setWidth 16,
      quality := (w.getD 20 0 >>> 16).setWidth 16 } })

/-- A record is applied whole (R449). -/
def Dev.applyRecord (d : Dev) (t : Nat) (r : MirrorRec) : Dev :=
  let d1 := r.arms.foldl (fun d x => d.applyMirrorArm d.bNext r.deltas x) d
  let d2 := r.joints.foldl Dev.applyMirrorJoint d1
  let d2 := r.currents.foldl Dev.applyMirrorCurrent (r.armSlots.foldl Dev.applyMirrorArmSlot d2)
  let d3 := r.deltas.foldl Dev.applyMirrorPredictor (r.problems.foldl Dev.applyMirrorProblem d2)
  let d4 := (if r.deck.isEmpty then d3 else d3.applyMirrorDeck r.deck).applyMirrorLifts r.lifts
  let d5 := d4.onTime (fun x => { x with policyForce := if r.auto then .autonomous else .mechanism })
  let changed := fun (f : MirrorRec → Bool) => match d.pair.lastRec with
    | some q => f q != f r
    | none => true
  d5.onPair (fun p => { p with
    lastRec := some r, applied := true
    recAAt := if changed MirrorRec.stoA then t else p.recAAt
    recBAt := if changed MirrorRec.stoB then t else p.recBAt })

/-! ### The mirror link (R443, R447 to R449) -/

/-- The link comes up: its lanes, and L_ml as half the round trip. -/
def Dev.mirrorUp (d : Dev) (t : Nat) (lanes : BitVec 2) (roundTrip : Nat) : Dev :=
  if d.inPair then
    (d.onPair (fun p => { p with lanes := lanes, lml := (rneDiv roundTrip 2).toNat })).checkFit t
  else d

/-- The record in reception is dropped. -/
def Pair.dropRecord (p : Pair) : Pair := { p with recNo := none, parts := [], lastPart := none, recNew := {}, badPart := none }

/-- A complete record (R443, R449): one older than the last applied is discarded; else it is applied and answered with an ACK
whose pledge is B_{k+3}. -/
def Dev.recordDone (d : Dev) (t : Nat) (r : MirrorRec) : Dev :=
  let old := match d.pair.lastRec with
    | some q => decide (r.k < q.k)
    | none => false
  if old then d
  else
    let off : Int := (r.ct : Int) + d.pair.lml - t
    let pledge := d.boundary (r.k + 3)
    let d1 := d.onPair (fun p => { p with
      ctErr := if 102 < off.natAbs then p.ctErr + 1 else 0
      out := p.out ++ [.ack r.k pledge]
      pledge := max p.pledge pledge, partnerX := max p.partnerX (max r.xh pledge) })
    (d1.applyRecord t r).checkFit t

/-- A part arrives at the unit that does not hold the lease. -/
def Dev.mirrorPart (d : Dev) (t : Nat) (p : MirrorPart) : Dev :=
  if !d.inPair ∨ d.holdsLease ∨ d.lanesUp = [] ∨ d.power.mode = .dormant ∨ d.power.mode = .boot then d
  else if 4096 < p.length.toNat ∨ p.length.toNat % 4 ≠ 0 then d.laneEvents t
  else
    let d := if d.pair.recNo = some p.period then d
      else d.onPair (fun x => { x.dropRecord with recNo := some p.period })
    if !p.crcOk then (d.laneEvents t).onPair (fun x => { x with
      badPart := some p.part, out := x.out ++ [.nack p.period p.part.toNat] })
    else
      let d1 := d.onPair (fun x => { x with
        parts := p.part :: x.parts.filter (· ≠ p.part)
        badPart := if x.badPart = some p.part then none else x.badPart
        lastPart := if p.last then some p.part else x.lastPart
        recNew := match p.rec? with
          | some r => r
          | none => x.recNew })
      let whole := match d1.pair.lastPart with
        | some n => (List.range (n.toNat + 1)).all (fun i => decide (BitVec.ofNat 8 i ∈ d1.pair.parts))
        | none => false
      if whole then (d1.onPair Pair.dropRecord).recordDone t d1.pair.recNew else d1

/-- An ACK reaches the holder: the newest pledge counts as a lease and never lowers X_h. -/
def Dev.mirrorAck (d : Dev) (pledge : Nat) : Dev :=
  if d.holdsLease then
    d.onPair (fun p => { p with pledgeIn := max p.pledgeIn pledge, xh := max p.xh pledge })
  else d

/-- A NACK reaches the active unit, which sends the part again once. -/
def Dev.mirrorNack (d : Dev) (period : BitVec 32) (part : Nat) : Dev :=
  if d.holdsLease ∧ (period, part) ∉ d.pair.resent then
    d.onPair (fun p => { p with resent := p.resent ++ [(period, part)], out := p.out ++ [.again period part] })
  else d

/-- A RELEASE over the mirror link ends the standby's pledge at once, and tells that LEASE_IN has fallen. -/
def Dev.mirrorRelease (d : Dev) (t : Nat) : Dev :=
  if d.inPair then d.onPair (fun p => { p with pledge := min p.pledge t, partnerX := min p.partnerX t }) else d

/-- The period of a record from its low 32 bits, at or before the present one. -/
def Dev.fullPeriod (d : Dev) (p : BitVec 32) : Nat := d.time.k - ((BitVec.ofNat 32 d.time.k - p).toNat)

/-- A record that is not complete by M_{k+1} is discarded (R448). -/
def Dev.mirrorLate (d : Dev) (t : Nat) : Dev :=
  match d.pair.recNo with
  | some p =>
    if d.boundary (d.fullPeriod p + 1) + d.time.tc / 2 < t then
      ((d.onPair Pair.dropRecord).laneEvents t).ownNotice t 9 false
    else d
  | none => d

/-! ### Takeover (R450, R451) -/

/-- The mode of a takeover: that of the record, TUNE as HOLD, and READY for READY, SAFE-OFF and COMMISSION. -/
def takeoverMode (code : Nat) : Mode :=
  match Mode.ofCode code with
  | .run => .run | .hold => .hold | .tune => .hold | _ => .ready

/-- Step 1 of R450: the levels of the record; the PWM gates stay in their trip state until the next boundary. -/
def Dev.takeLevels (d : Dev) (t : Nat) (r : MirrorRec) : Dev :=
  let d1 := d.setSto t r.stoA r.stoB
  let d2 := d1.onPwm (fun p => { p with
    brakes := mapTab (fun i b => if b.cfg.isSome ∧ r.brk.getLsbD i then { b with phase := .hold, since := t, cmdRel := true, cmdAt := t }
      else b) p.brakes
    groups := mapTab (fun i g => match g.cfg with
      | some c => { g with driven := false, restartB := decide (d.power.mode.torque = true), edges := [],
                           gates := if c.tripState = 1 ∧ !d.isRetired 6 i then lowGates else 0 }
      | none => g) p.groups })
  let d3 := d2.onSafety (fun s => { s with released := decide (r.brk ≠ 0) })
  { d3 with
    mults := mapTab (fun i m => if i < 16 ∧ m.step.isSome then { m with gen := { m.gen with dirPos := r.dir.getLsbD i } } else m) d3.mults
    chops := mapTab (fun _ c => { c with coilA := { c.coilA with phase := .off }, coilB := { c.coilB with phase := .off } }) d3.chops }

/-- A unit in SHADOW takes a grant: it resumes from the last record that it applied (R450, R451). -/
def Dev.takeover (d : Dev) (t : Nat) : Dev :=
  match d.pair.lastRec with
  | none => d
  | some r =>
    let d1 := ((d.cancelPending t).enterMode t t (takeoverMode r.mode) 0 false).takeLevels t r
    let d2 := (d1.onPair (fun p => { p with
      tt := t, takeovers := p.takeovers + 1
      cells := if d.isManager then
          r.workers.foldl (fun cs w => if (look cs w.1).cfg.isNone then cs else upd cs w.1 (fun c =>
            { c with holder := some w.2.1, former := some w.2.1, x := w.2.2, prevX := w.2.2, formed := true })) p.cells
        else p.cells })).ownNotice t 3 true
    let d3 := r.retired.foldl (fun d id => if internalChan id then d else d.retire t id) d2
    let d4 := d3.boundaryEntries.foldl Dev.fireBoundary d3
    if d4.sepRuns then (if d4.taskWaits 11 then d4 else d4.fire d4.bk d4.bk 11).beginPass d4.bk else d4

/-! ### The lease logic of a unit (R441 to R446, R454) -/

/-- The channels of the spine on which the arbiter's connection comes. -/
def Dev.arbChans (d : Dev) : List Nat :=
  match d.pair.cfg with
  | some c =>
    let ch := eChan ((d.busSet 4).entry (d.conn c.connArb.toNat).slot.toNat)
    [8, 9].filter (fun i => ch.testBit (i - 8))
  | none => []

/-- A GRANT of which this unit is not the addressee: the partner's lease as this unit knows it, and at formation the way to
SHADOW. A GRANT with DISSOLVED ends the pair for both units. -/
def Dev.grantOther (d : Dev) (m : LeaseMsg) : Dev :=
  if m.flags.getLsbD 4 then d.onPair (fun p => { p with dissolved := true, wasHolder := false })
  else d.onPair (fun p => { p with
    partnerX := max p.partnerX m.instant, shadowAt := if d.power.mode = .ready ∧ !d.holdsLease then some d.bNext else p.shadowAt })

/-- A GRANT to this unit, which the lease logic takes or refuses. -/
def Dev.grantOwn (d : Dev) (t : Nat) (m : LeaseMsg) : Dev :=
  let held := d.holdsLease
  if d.leaseIn then d.arbChans.foldl (fun d ch => d.faultEvent 1 ch t) (d.ownNotice t 0x0A true)
  else if !d.time.valid ∨ m.instant ≤ t ∨ t < d.pair.pledge then d
  else if m.flags.getLsbD 4 then
    (d.onPair (fun p => { p with dissolved := true, xh := max p.xh m.instant, wasHolder := false })).ownNotice t 1 true
  else
    let d1 := (d.onPair (fun p => { p with xh := max p.xh m.instant, wasHolder := true, shadowAt := none })).ownNotice t 1 true
    if !held ∧ d1.power.mode = .shadow then d1.takeover t else d1

/-- A GRANT message is received. -/
def Dev.leaseGrant (d : Dev) (t : Nat) (m : LeaseMsg) : Dev :=
  if !d.ownPairMsg m ∨ m.kind ≠ 3 then d
  else if m.unit.toNat = d.unitBits then d.grantOwn t m else d.grantOther m

/-- A REFUSE message is received; it changes nothing in the lease logic. -/
def Dev.leaseRefuse (d : Dev) (t : Nat) (m : LeaseMsg) : Dev :=
  if d.ownPairMsg m ∧ m.kind = 4 ∧ m.unit.toNat = d.unitBits then d.ownNotice t 4 true else d

/-- The lease logic compares CT with X_h: a lease that has run out is lost (R442, R445). -/
def Dev.leaseExpiry (d : Dev) (t : Nat) : Dev :=
  if d.pair.wasHolder ∧ d.inPair ∧ !d.holdsLease then d.loseLease t else d

/-! ### The arbiter (R444, R454, R455) -/

/-- This device arbitrates: the manager's lease holder, or the first ARBITER device (R436, R439). -/
def Dev.arbitrates (d : Dev) : Bool :=
  decide (d.power.mode ≠ .dormant) && decide (d.power.mode ≠ .boot)
    && ((d.isManager && d.active) || (d.isArbiter && decide (d.pair.arb = 0)))

/-- The arbitrated pair of a cell changed by a function. -/
def Dev.onCell (d : Dev) (c : Nat) (f : ArbCell → ArbCell) : Dev := d.onPair (fun p => { p with cells := upd p.cells c f })

/-- The pair of a cell is arbitrated here. -/
def Dev.arbCell (d : Dev) (c : Nat) : Option ArbitratePair :=
  match (look d.pair.cells c).cfg with
  | some p => if p.enable = 1 ∧ d.arbitrates then some p else none
  | none => none

/-- A unit's last message (R440). -/
def ArbCell.last (c : ArbCell) (unit : Nat) : Option LeaseMsg := if unit = 0 then c.healthA else c.healthB

/-- A message of a unit of an arbitrated pair is kept; a holder's tells the mode of its cell. -/
def Dev.keepMessage (d : Dev) (m : LeaseMsg) : Dev :=
  let d1 := d.onCell m.cell.toNat (fun c => if m.unit = 0 then { c with healthA := some m } else { c with healthB := some m })
  if m.flags.getLsbD 1 then
    d1.onPair (fun p => { p with workers := upd p.workers m.cell.toNat (fun w => { w with mode := some m.mode }) })
  else d1

/-- A REQUEST of a unit. -/
def Dev.requestMsg (d : Dev) (m : LeaseMsg) : Dev :=
  if (d.arbCell m.cell.toNat).isNone ∨ m.kind ≠ 2 ∨ 1 < m.unit.toNat then d
  else (d.keepMessage m).onCell m.cell.toNat (fun c => { c with request := some (m.unit.toNat, m.stamp) })

/-- A HEALTH message: at the arbiter it may show that the last grant was not taken; at a pair unit it tells of the partner. -/
def Dev.healthMsg (d : Dev) (t : Nat) (m : LeaseMsg) : Dev :=
  let d1 := if (d.arbCell m.cell.toNat).isNone ∨ m.kind ≠ 1 ∨ 1 < m.unit.toNat then d
    else (d.keepMessage m).onCell m.cell.toNat (fun c =>
      if c.holder = some m.unit.toNat ∧ !m.flags.getLsbD 1 ∧ c.grantAt < m.stamp then { c with holder := none, x := c.prevX } else c)
  if d1.ownPairMsg m ∧ m.kind = 1 ∧ m.unit.toNat = 1 - d1.unitBits then
    (d1.onPair (fun p => { p with
      partnerFit := m.flags.getLsbD 0, partnerDig := m.digest
      partnerX := if m.flags.getLsbD 1 then p.partnerX else min p.partnerX t })).checkFit t
  else d1

/-- A RELEASE on the spine. -/
def Dev.releaseMsg (d : Dev) (m : LeaseMsg) : Dev :=
  let d1 := if (d.arbCell m.cell.toNat).isNone ∨ m.kind ≠ 5 ∨ 1 < m.unit.toNat then d
    else (d.keepMessage m).onCell m.cell.toNat (fun c => { c with release := some (m.unit.toNat, m.instant) })
  if d1.ownPairMsg m ∧ m.kind = 5 ∧ m.unit.toNat = 1 - d1.unitBits then
    d1.onPair (fun p => { p with partnerX := min p.partnerX m.instant })
  else d1

/-- The arbiter stamps and journals what it decides (R444); the spec gives these records no code, which is free. -/
def Dev.journalLease (d : Dev) (t : Nat) (m : LeaseMsg) : Dev :=
  (d.draw 1).journal 1 0 t (Config.freeWord d.fresh 16)
    ([m.kind, m.cell, m.unit, m.flags] ++ leBytes 8 m.instant)

/-- The arbiter's answer is to be sent in the grant slot that starts. -/
def Dev.answerPair (d : Dev) (t : Nat) (m : LeaseMsg) : Dev :=
  (d.onCell m.cell.toNat (fun c => { c with sent := some m })).journalLease t m

/-- B_{j+3} of the present period j. -/
def Dev.termEnd (d : Dev) : Nat := d.bNext2 + d.tcNext

/-- A GRANT to a unit of a cell. -/
def Dev.grantTo (d : Dev) (t cell unit : Nat) : Dev :=
  let x := d.termEnd
  let d1 := d.onCell cell (fun c => { c with
    holder := some unit, former := some unit, prevX := c.x, x := x, grantAt := t, formed := true, said := false })
  d1.answerPair t { kind := 3, cell := BitVec.ofNat 8 cell, unit := BitVec.ofNat 8 unit, instant := x, stamp := t }

/-- A unit whose message of this period or the last one satisfies a condition (R444). -/
def Dev.recent (d : Dev) (c : ArbCell) (unit : Nat) (ok : LeaseMsg → Bool) : Bool :=
  match c.last unit with
  | some m => decide (d.bk ≤ m.stamp + d.time.tc) && ok m
  | none => false

/-- The order in which the units of a cell are preferred: the standby of the former holder first, at formation unit A. -/
def ArbCell.preferred (c : ArbCell) : List Nat :=
  match c.former with
  | some u => if c.formed then [1 - u, u] else [0, 1]
  | none => [0, 1]

/-- The rows of R444 without an arbiter holder. -/
def Dev.decideFree (d : Dev) (t cell : Nat) (g : Nat) : Dev :=
  let c := look d.pair.cells cell
  if t ≤ c.x + g then d
  else
    let reports := c.preferred.find? (fun u => d.recent c u (fun m => m.flags.getLsbD 1))
    let fit := c.preferred.find? (fun u => d.recent c u (fun m => m.kind == 1 && m.flags.getLsbD 0))
    match reports, fit with
    | some u, _ => d.grantTo t cell u
    | none, some u => d.grantTo t cell u
    | none, none =>
      if c.said then d else (d.onCell cell (fun c => { c with said := true })).pairNotice t 6 cell 0 true

/-- The decision of R444 for a pair, at the start of its grant slot; a dissolution goes before it (R454). -/
def Dev.arbitrate (d : Dev) (t cell : Nat) : Dev :=
  match d.arbCell cell with
  | none => d
  | some p =>
    if t ≠ d.slotStart 4 p.slot.toNat then d
    else
      let c := look d.pair.cells cell
      let d0 := d.onCell cell (fun c => { c with request := none, release := none, sent := none })
      if c.dissolve then
        (d0.onCell cell (fun c => { c with cfg := some { p with enable := 0 }, holder := none, dissolve := false })).answerPair t
          { kind := 3, cell := BitVec.ofNat 8 cell, unit := BitVec.ofNat 8 (c.holder.getD 0), flags := 0x10,
            instant := 2 ^ 64 - 1, stamp := t }
      else
        let asked := match c.request, c.holder with
          | some (u, st), some h => if u = h ∧ d.bk ≤ st then some st else none
          | _, _ => none
        let gone := match c.release, c.holder with
          | some (u, tr), some h => if u = h ∧ tr < c.x then some tr else none
          | _, _ => none
        match c.holder, asked, gone with
        | some h, some st, _ =>
          if st < c.x ∧ d.time.valid then d0.grantTo t cell h
          else
            ((d0.onCell cell (fun c => { c with holder := none })).answerPair t
              { kind := 4, cell := BitVec.ofNat 8 cell, unit := BitVec.ofNat 8 h, status := BitVec.ofNat 16 Status.lease.code,
                stamp := t }).pairNotice t 4 cell h true
        | some h, none, some tr =>
          (d0.onCell cell (fun c => { c with x := tr, holder := none })).journalLease t
            { kind := 5, cell := BitVec.ofNat 8 cell, unit := BitVec.ofNat 8 h, instant := tr }
        | some _, none, none =>
          if t < c.x ∧ d.time.valid then d0 else (d0.onCell cell (fun c => { c with holder := none })).decideFree t cell p.g.toNat
        | none, _, _ => d0.decideFree t cell p.g.toNat

/-- The pair at a boundary: what was to be sent has been, and a dissolved pair is dropped. -/
def Pair.newCycle (p : Pair) (k : Nat) : Pair :=
  { p with
    out := []
    cells := mapTab (fun _ c => match c.cfg with
      | some x => if x.enable = 0 then default else { c with sent := none }
      | none => c) p.cells
    resent := p.resent.filter (fun e => e.1 = BitVec.ofNat 32 k || e.1 = BitVec.ofNat 32 (k - 1)) }

/-- A worker is lost after sync_loss cycles without a frame of it (R437). -/
def Dev.workerLost (d : Dev) (t cell : Nat) : Dev :=
  let w := look d.pair.workers cell
  if d.isManager ∧ w.joined ∧ w.lastRx + (d.busSet 4).cfg.syncLoss.toNat * d.time.tc < t then
    (d.onPair (fun p => { p with workers := upd p.workers cell (fun w => { w with joined := false }) })).pairNotice t 8 cell 0 true
  else d

/-! ### Events -/

/-- LEASE_GRANT (R445). -/
def execLeaseGrant (t : Nat) (m : LeaseMsg) (s : State) : Host.Outcome State Fault Refusal :=
  s.act (fun d => (d.advance t).leaseGrant t m)

/-- LEASE_REFUSE (R445). -/
def execLeaseRefuse (t : Nat) (m : LeaseMsg) (s : State) : Host.Outcome State Fault Refusal :=
  s.act (fun d => (d.advance t).leaseRefuse t m)

/-- LEASE_REQUEST_MSG (R444). -/
def execLeaseRequestMsg (t : Nat) (m : LeaseMsg) (s : State) : Host.Outcome State Fault Refusal :=
  s.act (fun d => (d.advance t).requestMsg m)

/-- LEASE_HEALTH_MSG (R440). -/
def execLeaseHealthMsg (t : Nat) (m : LeaseMsg) (s : State) : Host.Outcome State Fault Refusal :=
  s.act (fun d => (d.advance t).healthMsg t m)

/-- LEASE_RELEASE_MSG (R444). -/
def execLeaseReleaseMsg (t : Nat) (m : LeaseMsg) (s : State) : Host.Outcome State Fault Refusal :=
  s.act (fun d => (d.advance t).releaseMsg m)

/-- ARBITER_DECISION (R444). -/
def execArbiterDecision (t : Nat) (cell : Fin 16) (s : State) : Host.Outcome State Fault Refusal :=
  s.act (fun d => (d.advance t).arbitrate t cell.val)

/-- LEASE_EXPIRY (R445). -/
def execLeaseExpiry (t : Nat) (s : State) : Host.Outcome State Fault Refusal :=
  s.act (fun d => (d.advance t).leaseExpiry t)

/-- MIRROR_LINK_UP (R447). -/
def execMirrorLinkUp (t : Nat) (lanes : BitVec 2) (roundTrip : Nat) (s : State) : Host.Outcome State Fault Refusal :=
  s.act (fun d => (d.advance t).mirrorUp t lanes roundTrip)

/-- MIRROR_PART (R449). -/
def execMirrorPart (t : Nat) (p : MirrorPart) (s : State) : Host.Outcome State Fault Refusal :=
  s.act (fun d => (d.advance t).mirrorPart t p)

/-- MIRROR_ACK (R443). -/
def execMirrorAck (t : Nat) (_period : BitVec 32) (pledge : Nat) (s : State) : Host.Outcome State Fault Refusal :=
  s.act (fun d => (d.advance t).mirrorAck pledge)

/-- MIRROR_NACK (R447). -/
def execMirrorNack (t : Nat) (period : BitVec 32) (part : Fin 16) (s : State) : Host.Outcome State Fault Refusal :=
  s.act (fun d => (d.advance t).mirrorNack period part.val)

/-- MIRROR_RELEASE (R443). -/
def execMirrorRelease (t : Nat) (s : State) : Host.Outcome State Fault Refusal :=
  s.act (fun d => (d.advance t).mirrorRelease t)

/-- MIRROR_LATE (R448). -/
def execMirrorLate (t : Nat) (s : State) : Host.Outcome State Fault Refusal :=
  s.act (fun d => (d.advance t).mirrorLate t)

/-- WORKER_LOST (R437). -/
def execWorkerLost (t : Nat) (cell : Fin 16) (s : State) : Host.Outcome State Fault Refusal :=
  s.act (fun d => (d.advance t).workerLost t cell.val)

/-! ### Commands (R458) -/

/-- CONFIG_HIERARCHY. -/
def semConfigHierarchy (h : Hdr) (p : ConfigHierarchy) : Sem where
  op := 0x0D00
  lenOk := h.length = 4
  modes := [.ready]
  range := fun d => p.reserved == 0
    && (if d.isArbiter then p.cell == 0 && within 0 1 p.arb
        else p.arb == 0 && (if d.isManager then p.cell == 0 else within 1 15 p.cell))
  eff := fun d => (d.await h.stamp (.configHierarchy h p), some (.ok, []))

/-- CONFIG_HIERARCHY at its boundary. -/
def Dev.applyHierarchy (d : Dev) (p : ConfigHierarchy) : Dev := d.onPair (fun x => { x with cell := p.cell, arb := p.arb })

/-- CONFIG_PAIR. -/
def semConfigPair (h : Hdr) (p : ConfigPair) : Sem where
  op := 0x0D01
  lenOk := h.length = 8
  modes := [.ready]
  range := fun _ => (p.unit == 0 || p.unit == 1 || p.unit == 0xFF) && within 1 3 p.lanes && within 0 63 p.connSelf
    && within 0 63 p.connArb && p.reserved == 0
  cond := fun d => firstFail
    [(!d.isArbiter && (d.tableView 4).isSome, .range),
     (p.unit == 0xFF || d.mirrorFits d.tcNext, .range),
     (p.unit == 0xFF || [0, 1].any (fun i => p.lanes.getLsbD i && !d.isRetired 2 i), .retired)]
  eff := fun d => (d.await h.stamp (.configPair h p), some (.ok, []))

/-- CONFIG_PAIR at its boundary: the unit joins the pair without a lease, or leaves it. -/
def Dev.applyPair (d : Dev) (b : Nat) (p : ConfigPair) : Dev :=
  let d1 := d.onPair (fun x => { x.dropRecord with
    cfg := if p.unit = 0xFF then none else some p
    dissolved := false, xh := 0, pledgeIn := 0, pledge := 0, partnerX := 0, shadowAt := none, wasHolder := false, lastRec := none,
    applied := false, ctErr := 0, unfit := 0, partnerFit := false, toSend := none, stagedOk := 0 })
  d1.checkFit b

/-- ARBITRATE_PAIR: the grant slot is an own SAFETY slot of the spine that starts after the guard and ends in the first quarter
of the cycle (R444). -/
def semArbitratePair (h : Hdr) (p : ArbitratePair) : Sem where
  op := 0x0D02
  lenOk := h.length = 8
  modes := [.ready]
  range := fun _ => within 0 15 p.cell && within 0 1 p.enable && within 0 127 p.slot && within 0 63 p.conn && within 1024 65536 p.g
  cond := fun d =>
    let w := entryAt ((d.tableView 4).getD []) p.slot.toNat
    firstFail [(d.isManager || d.isArbiter, .range),
      (eType w == 5 && d.ownSlot 4 w && decide (p.g.toNat < eStart w * 128) && decide (eEnd w * 4 ≤ d.time.tc / 128), .range)]
  eff := fun d => (d.await h.stamp (.arbitratePair h p), some (.ok, []))

/-- ARBITRATE_PAIR at its boundary. -/
def Dev.applyArbitrate (d : Dev) (p : ArbitratePair) : Dev :=
  d.onPair (fun x => { x with cells := put x.cells p.cell.toNat (if p.enable = 0 then default else { cfg := some p }) })

/-- DISSOLVE_PAIR: the next grant slot carries it. -/
def semDissolvePair (h : Hdr) (p : DissolvePair) : Sem where
  op := 0x0D03
  lenOk := h.length = 4
  modes := [.ready, .run, .hold, .safeOff]
  range := fun _ => within 0 15 p.cell && p.reserved == 0
  cond := fun d => firstFail [((d.arbCell p.cell.toNat).isSome, .range), ((look d.pair.cells p.cell.toNat).holder.isSome, .lease)]
  eff := fun d => (d.onCell p.cell.toNat (fun c => { c with dissolve := true }), some (.ok, []))

/-- RELEASE_LEASE (R446). -/
def semReleaseLease (h : Hdr) (p : ReleaseLease) : Sem where
  op := 0x0D04
  lenOk := h.length = 4
  modes := [.commission, .ready, .run, .tune, .hold, .safeOff]
  range := fun _ => within 0 1 p.flags && p.reserved == 0
  cond := fun d => firstFail [(p.flags == 0 || d.pair.partnerFit, .range), (d.holdsLease, .lease)]
  eff := fun d => (d.releaseLease h.stamp, some (.ok, []))

/-- The words of GET_PAIR_STATE (R458). -/
def Dev.pairStateBytes (d : Dev) : List Byte :=
  let p := d.pair
  let role : Nat := if !d.inPair then 0 else if d.holdsLease then 1 else 2
  let unit : BitVec 8 := match p.cfg with
    | some c => c.unit
    | none => 0xFF
  let k : Nat := match p.lastRec with
    | some r => r.k
    | none => 0
  [unit, BitVec.ofNat 8 role, BitVec.ofNat 8 (d.lanesUp.foldl (fun n i => n + 2 ^ i) 0), BitVec.ofNat 8 d.lag]
    ++ leBytes 8 p.xh ++ leBytes 8 (if d.holdsLease then p.pledgeIn else p.pledge) ++ leBytes 8 p.tt ++ leBytes 8 k
    ++ wordBytes d.unfitMask ++ wordBytes p.takeovers

/-- GET_PAIR_STATE. -/
def semGetPairState (h : Hdr) : Sem where
  op := 0x0D10
  lenOk := h.length = 0
  link := .both
  eff := fun d => (d, some (.ok, d.pairStateBytes))

/-- The entry of a cell in GET_HIERARCHY_STATE: the manager's own cell speaks for itself; the mode of a worker that no message
has told is free. -/
def Dev.cellBytes (d : Dev) (c : Nat) : List Byte :=
  let w := look d.pair.workers c
  let a := look d.pair.cells c
  let own := decide (c = 0)
  let mode : BitVec 8 := if own then BitVec.ofNat 8 d.power.mode.code else match w.mode with
    | some m => m
    | none => if w.joined then Config.freeWord (d.fresh + c) 8 else 0
  let unit : Nat := if own then (if d.holdsLease then d.unitBits else 0xFF) else a.holder.getD 0xFF
  [BitVec.ofNat 8 (bit (own || w.joined)), mode, BitVec.ofNat 8 unit, 0] ++ leBytes 8 (if own then d.pair.xh else a.x)

/-- GET_HIERARCHY_STATE. -/
def semGetHierarchyState (h : Hdr) : Sem where
  op := 0x0D11
  lenOk := h.length = 0
  link := .both
  cond := fun d => firstFail [(d.isManager, .range)]
  eff := fun d => (d.draw 16, some (.ok, (List.range 16).flatMap d.cellBytes))

def execConfigHierarchy (h : Hdr) (p : ConfigHierarchy) (s : State) : Host.Outcome State Fault Refusal :=
  s.act (runCmd (semConfigHierarchy h p) h)

def execConfigPair (h : Hdr) (p : ConfigPair) (s : State) : Host.Outcome State Fault Refusal := s.act (runCmd (semConfigPair h p) h)

def execArbitratePair (h : Hdr) (p : ArbitratePair) (s : State) : Host.Outcome State Fault Refusal :=
  s.act (runCmd (semArbitratePair h p) h)

def execDissolvePair (h : Hdr) (p : DissolvePair) (s : State) : Host.Outcome State Fault Refusal :=
  s.act (runCmd (semDissolvePair h p) h)

def execReleaseLease (h : Hdr) (p : ReleaseLease) (s : State) : Host.Outcome State Fault Refusal :=
  s.act (runCmd (semReleaseLease h p) h)

def execSetExport (h : Hdr) (p : SetExport) (s : State) : Host.Outcome State Fault Refusal :=
  s.act (runCmd (semSafetyItem h 0x0D05 48 0 (fun _ => rangeSetExport p) (bytesSetExport p)) h)

def execGetPairState (h : Hdr) (s : State) : Host.Outcome State Fault Refusal := s.act (runCmd (semGetPairState h) h)

def execGetHierarchyState (h : Hdr) (s : State) : Host.Outcome State Fault Refusal := s.act (runCmd (semGetHierarchyState h) h)

end Sys2Proof.Machine
end

