-- ==== Sys2Proof/Machine/Mirror.lean ====
section
/-! DEFINITION. The mirror record that a holder forms at the end of the work of a period and sends to its standby (R447, R448): the
inverse of what Machine/Pairs.lean applies. How a record is cut into parts is left to the frames. -/

namespace Sys2Proof.Machine

/-- A queue entry as a DELTA carries it. -/
def moveMirror (arm : Nat) (m : QMove) : MirrorMove :=
  let base : MirrorMove := { arm := arm, notify := m.notify, id := m.id, vfrac := m.vfrac, afrac := m.afrac, blend := m.blend }
  match m.goal with
  | .joint g => { base with joint := true, goal := g }
  | .cart f p q => { base with joint := false, frame := f, goal := p ++ q }

/-- The moves of an arm, oldest first. -/
def Arm.moves (x : Arm) : List QMove := x.done ++ x.runs.map (·.move) ++ x.queue

/-- The DELTAs that lead from one list of moves to another: the oldest retired, the newest appended, or, where nothing stays, the
queue flushed. -/
def queueDeltas (arm : Nat) (old new : List QMove) : List MirrorDelta :=
  let n := ((List.range old.length).find? (fun i => (old.drop i).isPrefixOf new)).getD old.length
  (if n = old.length ∧ n ≠ 0 then [.flush arm] else List.replicate n (.retire arm))
    ++ (new.drop (old.length - n)).map (fun m => .append (moveMirror arm m))

/-- A block as a record carries it. -/
def Block.pair (b : Block) : List Int × Int := (b.m, b.e)

/-- An arm as a record carries it. -/
def Dev.mirrorArm (d : Dev) (a : Nat) : MirrorArm :=
  let x := look d.arms a
  let k := look d.kin a
  { arm := a, phase := x.phase.code, reason := x.reason, running := x.runs.head?.map (fun r => (r.move.id, r.tau, r.t, r.ta))
    s := x.s, sHost := x.sHost, sSep := x.sSep, sDeck := x.sDeck, stop := x.stopSeq.map (fun q => (q.s0, q.n, q.i))
    cmd := x.joints.map (fun j => (look d.joints j).cmd), payload := k.payload, normA := k.normA, normB := k.normB }

/-- The joint slots with a law. -/
def Dev.mirrorJoints (d : Dev) : List MirrorJoint :=
  d.loop.joints.filterMap (fun e => if e.2.lawful then some
      { slot := e.1, manual := e.2.manual, flags := e.2.flags, last := e.2.last, core := e.2.core.m, coreE := e.2.core.e
        stages := e.2.stages.map Block.pair }
    else none)

/-- The enabled arm slots and current slots. -/
def Dev.mirrorArmSlots (d : Dev) : List MirrorSlot :=
  d.loop.arms.filterMap (fun e => match e.2.cfg with
    | some c => if c.law = 0 then none else some { slot := e.1, flags := e.2.flags, cores := e.2.cores.map Block.pair, outs := e.2.outs }
    | none => none)

def Dev.mirrorCurrents (d : Dev) : List MirrorSlot :=
  d.loop.currents.filterMap (fun e => if e.2.cfg.isSome
    then some { slot := e.1, flags := e.2.flags, cores := [e.2.coreD.pair, e.2.coreQ.pair] } else none)

/-- The problems with their status records and last valid solutions. -/
def Dev.mirrorProblems (d : Dev) : List MirrorProblem :=
  d.solver.problems.filterMap (fun e => e.2.map (fun p =>
    { id := e.1, status := p.res.status, flags := p.res.flags, iters := p.res.iters, lane := p.res.lane, ended := p.res.ended
      validAt := p.res.validAt, residual := p.res.residual, sol := p.res.sol }))

/-- The open lifts. -/
def Dev.mirrorLifts (d : Dev) : List MirrorLift :=
  d.deck.lifts.filterMap (fun e => e.2.map (fun l =>
    { p := l.p, phiRef := l.phiRef, thetaRef := l.thetaRef, tankRef := l.tankRef, phiEnd := l.phiEnd, thetaEnd := l.thetaEnd
      holding := l.holding, started := l.started, heelStop := l.heelStop }))

/-- The words of the deck state record, in the order of R288. -/
def DeckRec.words (r : DeckRec) : List (BitVec 32) :=
  [BitVec.ofNat 32 r.stamp, BitVec.ofNat 32 (r.stamp / 2 ^ 32)] ++ r.angles ++ [r.z] ++ r.omega ++ r.alpha ++ r.aRef ++ r.gD
    ++ [r.phiS, r.thetaS, r.flags.setWidth 32 ||| (r.quality.setWidth 32 <<< 16)]

/-- What the predictor has gained since the last record. -/
def Dev.predictorDeltas (d : Dev) : List MirrorDelta :=
  let k := d.deck
  (match k.vals.head? with
    | some (phi, theta, z) => if d.pair.shownVal < k.valAt then [.value k.valAt phi theta z] else []
    | none => []) ++
  (match k.model with
    | some m => if d.pair.shownFit < m.since then [.model m.since (m.parts.map (fun e =>
        (e.1, e.2.map (fun w => (w.amp, w.freq, w.phase)))))] else []
    | none => [])

/-- Record k: the state after the work of period k, with the outputs staged for B_{k+1} (R448). -/
def Dev.mirrorRecord (d : Dev) : MirrorRec :=
  let bits := fun (n : Nat) (f : Nat → Bool) => (List.range n).foldl (fun v i => v + bit (f i) * 2 ^ i) 0
  { k := d.time.k, ct := d.time.ct, mode := d.power.mode.code, auto := d.time.policyForce == .autonomous
    xh := d.pair.xh, pledge := d.pair.pledgeIn
    workers := if d.isManager then d.pair.cells.filterMap (fun e => e.2.holder.map (fun u => (e.1, u, e.2.x))) else []
    pending := d.power.pending.map (fun p => (p.target.code, p.effB))
    rho := d.time.rho, sets := d.bus.sets.map (fun s => (s.eF.getD 0, s.state.code))
    retired := d.faults.chans.filterMap (fun e =>
      if e.2.retired ∧ !internalChan (BitVec.ofNat 16 e.1) then some (BitVec.ofNat 16 e.1) else none)
    digest := d.digest, stoA := d.safety.stoA, stoB := d.safety.stoB
    brk := BitVec.ofNat 16 (bits 16 (fun b => decide ((look d.pwm.brakes b).phase ≠ .applied)))
    stepEn := BitVec.ofNat 16 (bits 16 (fun i => (look d.mults i).step.isSome && d.power.mode.torque))
    dir := BitVec.ofNat 16 (bits 16 (fun i => (look d.mults i).gen.dirPos))
    arms := d.armList.map d.mirrorArm, joints := d.mirrorJoints, armSlots := d.mirrorArmSlots, currents := d.mirrorCurrents
    problems := d.mirrorProblems, lifts := d.mirrorLifts, deck := d.deck.est.words
    deltas := d.armList.flatMap (fun a => queueDeltas a (look d.pair.shown a) (look d.arms a).moves) ++ d.predictorDeltas }

/-- The holder of a pair sends its record (R447, R448). -/
def Dev.sendRecord (d : Dev) : Dev :=
  if d.inPair ∧ d.holdsLease ∧ d.lanesUp ≠ [] then
    d.onPair (fun p => { p with
      out := p.out ++ [.record d.mirrorRecord]
      shown := d.armList.foldl (fun m a => put m a (look d.arms a).moves) []
      shownVal := d.deck.valAt, shownFit := match d.deck.model with
        | some m => m.since
        | none => p.shownFit })
  else d

end Sys2Proof.Machine
end

