-- ==== Sys2Proof/Machine/SafetyFunctions.lean ====
section
/-! DEFINITION. Safety functions (spec/21_safety_functions.md): inputs and their reactions, STO feedback and EDM, the permit,
safety-layer containers and connections, stops, standstill and SLS, brakes and their tests, the seal, and the commands of class
0x0E that commit and report. -/

namespace Sys2Proof.Machine

/-- Modes in which safety inputs are evaluated (R491): they are recorded alone in DORMANT, and before the first mode. -/
def Dev.evaluates (d : Dev) : Bool := decide (d.power.mode ≠ .dormant) && decide (d.power.mode ≠ .boot)

/-- Milliseconds in LSB. -/
def ms1 : Nat := 1024000

/-! ### SIN pairs (R462, R463) -/

/-- The reaction of a pair in demand, by its function. -/
def Dev.pairReact (d : Dev) (t p : Nat) : Dev :=
  let c := d.sinPair p
  match c.function.toNat with
  | 1 => d.react t c.reaction.toNat 0x0B p false
  | 2 => d.react t c.reaction.toNat 0x0C p false
  | 3 => if d.power.mode = .tune then d.react t 3 0x0D p false else d
  | _ => d

/-- What a pair keeps after a level has been accepted at an instant. -/
def SinPair.step (x : SinPair) (t : Nat) (a b : Bool) : SinPair :=
  { differ := if a = b then none else some (x.differ.getD t)
    disc := x.disc && !(x.both && a && b)
    both := x.disc && !(x.both && a && b) && (x.both || (!a && !b))
    demand := !(a && b) }

/-- A level of a SIN pin is accepted; a demand that rises is reacted to. In DORMANT AON records it, for the exit (R64). -/
def Dev.sinChange (d : Dev) (t pin : Nat) (level : Bool) : Dev :=
  if d.power.mode = .dormant then d.onSafety (fun s => { s with sin := setBit s.sin pin level })
  else
    let p := pin / 2
    let before := d.pairDemand p
    let d1 := d.onSafety (fun s => { s with sin := setBit s.sin pin level })
    if (d1.sinPair p).function = 0 then d1
    else
      let d2 := d1.onSafety (fun s => { s with pairs := upd s.pairs p (fun x => x.step t (d1.sinA p) (d1.sinB p)) })
      if !d2.evaluates then d2
      else (if d2.pairDemand p && !before then d2.pairReact t p else d2).sweep t

/-- SIN_CHANGE (R462). -/
def execSinChange (t : Nat) (pin : Fin 16) (level : Bool) (s : State) : Host.Outcome State Fault Refusal :=
  s.act (fun d => (d.advance t).sinChange t pin.val level)

/-- The channels of a pair have differed for longer than t_disc (R462). -/
def Dev.sinDiscrepancy (d : Dev) (t p : Nat) : Dev :=
  let x := look d.safety.pairs p
  let c := d.sinPair p
  match x.differ with
  | some s =>
    if d.evaluates ∧ c.function ≠ 0 ∧ !x.disc ∧ s + c.tDisc.toNat * ms1 < t then
      (d.onSafety (fun y => { y with pairs := put y.pairs p { x with disc := true, both := false } })).stoReaction t 0x0E p false
    else d
  | none => d

/-- SIN_DISCREPANCY (R462). -/
def execSinDiscrepancy (t : Nat) (pair : Fin 8) (s : State) : Host.Outcome State Fault Refusal :=
  s.act (fun d => (d.advance t).sinDiscrepancy t pair.val)

/-! ### STO outputs and their feedback (R464) -/

/-- The levels of STO_A and STO_B that the selector presents, and when they last changed: the unit's own, or in a pair while it
holds no lease those of the mirror; none where it has no record. -/
def Dev.stoShown (d : Dev) : Option ((Bool × Nat) × (Bool × Nat)) :=
  let s := d.safety
  if d.inPair ∧ !d.holdsLease then
    d.pair.lastRec.map (fun r => ((r.stoA, max s.stoAAt d.pair.recAAt), (r.stoB, max s.stoBAt d.pair.recBAt)))
  else some ((s.stoA, s.stoAAt), (s.stoB, s.stoBAt))

/-- t_stofb in LSB; without CONFIG_STO_EDM it is not given. -/
def Dev.tStofb (d : Dev) : Nat :=
  (match d.stoEdm with
    | some c => c.tStofb.toNat
    | none => Config.stofbUnset) * ms1

/-- The feedbacks are compared with the outputs. -/
def Dev.stoFbMismatch (d : Dev) (t : Nat) : Dev :=
  match d.stoShown with
  | some (a, b) =>
    if d.evaluates ∧ ((d.safety.stoFbA ≠ a.1 ∧ a.2 + d.tStofb < t) ∨ (d.safety.stoFbB ≠ b.1 ∧ b.2 + d.tStofb < t)) then
      d.stoReaction t 0x10 0 false
    else d
  | none => d

/-- STO_FB_MISMATCH (R464). -/
def execStoFbMismatch (t : Nat) (s : State) : Host.Outcome State Fault Refusal :=
  s.act (fun d => (d.advance t).stoFbMismatch t)

/-- A feedback takes a level. -/
def Dev.stoFbChange (d : Dev) (t : Nat) (b level : Bool) : Dev :=
  let d1 := d.onSafety (fun s =>
    let a' := if b then s.stoFbA else level
    let b' := if b then level else s.stoFbB
    { s with stoFbA := a', stoFbB := b', fbSince := if a' && b' && !(s.stoFbA && s.stoFbB) then t else s.fbSince })
  if d1.evaluates then d1.sweep t else d1

/-- STO_FB_CHANGE (R464). -/
def execStoFbChange (t : Nat) (b level : Bool) (s : State) : Host.Outcome State Fault Refusal :=
  s.act (fun d => (d.advance t).stoFbChange t b level)

/-- A test pulse of an output that is high: its readback must show low. -/
def Dev.stoTestPulse (d : Dev) (t : Nat) (b low : Bool) : Dev :=
  if d.evaluates ∧ (if b then d.safety.stoB else d.safety.stoA) = true ∧ low = false then d.stoReaction t 0x12 0 false else d

/-- STO_TEST_PULSE (R464). -/
def execStoTestPulse (t : Nat) (b low : Bool) (s : State) : Host.Outcome State Fault Refusal :=
  s.act (fun d => (d.advance t).stoTestPulse t b low)

/-! ### EDM (R465) -/

/-- An EDM input takes a level. -/
def Dev.edmInChange (d : Dev) (t i : Nat) (level : Bool) : Dev :=
  let d1 := d.onSafety (fun s => { s with edmIn := setBit s.edmIn i level })
  if d1.evaluates then d1.sweep t else d1

/-- EDM_IN_CHANGE (R465). -/
def execEdmInChange (t : Nat) (i : Fin 8) (level : Bool) (s : State) : Host.Outcome State Fault Refusal :=
  s.act (fun d => (d.advance t).edmInChange t i.val level)

/-- The monitored inputs are compared with the inverse of their outputs. -/
def Dev.edmMismatch (d : Dev) (t : Nat) : Dev :=
  match d.stoEdm, d.stoShown with
  | some c, some (a, b) =>
    let bad := (List.range 8).find? (fun i =>
      let o := if c.edmChan.getLsbD i then b else a
      c.edmMask.getLsbD i && d.safety.edmIn.getLsbD i == o.1 && decide (o.2 + c.tEdm.toNat * ms1 < t))
    match bad with
    | some i => if d.evaluates then d.stoReaction t 0x11 i false else d
    | none => d
  | _, _ => d

/-- EDM_MISMATCH (R465). -/
def execEdmMismatch (t : Nat) (s : State) : Host.Outcome State Fault Refusal :=
  s.act (fun d => (d.advance t).edmMismatch t)

/-! ### The two channels (R461) -/

/-- The permit lapses at the first CT greater than B_{k+2} of its last renewal. -/
def Dev.permitLapse (d : Dev) (t : Nat) : Dev :=
  match d.safety.permit with
  | some b =>
    if d.power.mode.torque ∧ b < t then
      (d.onSafety (fun s => { s with permit := none })).stoReaction t 0x19 0 false
    else d
  | none => d

/-- PERMIT_LAPSE (R461). -/
def execPermitLapse (t : Nat) (s : State) : Host.Outcome State Fault Refusal :=
  s.act (fun d => (d.advance t).permitLapse t)

/-- A demand of one channel alone for 2 Tc. -/
def Dev.crossMismatch (d : Dev) (t since : Nat) : Dev :=
  if d.evaluates ∧ since + 2 * d.time.tc < t then d.stoReaction t 0x19 0 false else d

/-- CROSS_MISMATCH (R461). -/
def execCrossMismatch (t since : Nat) (s : State) : Host.Outcome State Fault Refusal :=
  s.act (fun d => (d.advance t).crossMismatch t since)

/-! ### The seal (R45, R488) -/

/-- A seal bit takes a value; the check runs in every mode but COMMISSION and DORMANT, where a mismatch is kept for the exit. -/
def Dev.sealAccepted (d : Dev) (t bit : Nat) (v : Bool) : Dev :=
  let d1 := d.onSafety (fun s => { s with sealPins := setBit s.sealPins bit v })
  match d1.power.mode with
  | .boot => d1
  | .commission => d1.sweep t
  | .dormant => if d1.sealOk then d1 else d1.onPower (fun p => { p with dormantBad := true })
  | _ => (if d1.sealOk then d1 else d1.stoReaction t 0x0F 0 false).sweep t

/-- SEAL_ACCEPTED (R45). -/
def execSealAccepted (t : Nat) (bit : Fin 8) (v : Bool) (s : State) : Host.Outcome State Fault Refusal :=
  s.act (fun d => (d.advance t).sealAccepted t bit.val v)

/-! ### Stops, standstill and monitoring (R470 to R472) -/

/-- STO follows a safe stop 1, with the trigger of its demand. -/
def Dev.followSs1 (d : Dev) (t : Nat) : Dev :=
  match d.safety.ss1 with
  | some x =>
    let d1 := d.onSafety (fun s => { s with ss1 := none })
    ((d1.setSto t false false).applyBrakes t true).eventMode t .safeOff x.trigger
  | none => d

/-- A time-controlled safe stop 1 ends at E + t_ss1. -/
def Dev.ss1Time (d : Dev) (t : Nat) : Dev :=
  match d.safety.ss1, d.stops with
  | some x, some c => if c.ss1Mode = 1 ∧ x.e + c.tSs1.toNat ≤ t then d.followSs1 t else d
  | _, _ => d

/-- SS1_TIME_EXPIRY (R470). -/
def execSs1TimeExpiry (t : Nat) (s : State) : Host.Outcome State Fault Refusal :=
  s.act (fun d => (d.advance t).ss1Time t)

/-- A ramp-monitored safe stop 1 ends at the first boundary from E on at which every joint is at standstill. -/
def Dev.ss1Boundary (d : Dev) (b : Nat) : Dev :=
  match d.safety.ss1 with
  | some x =>
    let timed := match d.stops with
      | some c => decide (c.ss1Mode = 1)
      | none => false
    if !timed ∧ x.e ≤ b ∧ d.allStill then d.followSs1 b else d
  | none => d

/-- The watched stops whose arm has reached standstill. -/
def Dev.markStill (d : Dev) (t : Nat) : Dev :=
  let mark := fun (a : Nat) (w : Watch) => match w.e with
    | some e => if e ≤ t ∧ d.armStill a then { w with still := true } else w
    | none => w
  d.onSafety (fun s => { s with watch := mapTab mark s.watch })

/-- Safe operating stop begins for an arm at the first boundary from E on at which it is at standstill (R471). -/
def Dev.sosBoundary (d : Dev) (b : Nat) : Dev :=
  let refs := fun (a : Nat) => (look d.arms a).joints.foldl (fun (m : Tab Int) j =>
    let x := look d.safety.joints j
    if x.known && x.valid then insert1 j x.pos m else m) []
  let begin_ := fun (a : Nat) (w : Watch) => match w.e with
    | some e => if e ≤ b ∧ !w.sos ∧ d.armStill a then { w with still := true, sos := true, pRef := refs a } else w
    | none => w
  if d.power.mode.torque then d.onSafety (fun s => { s with watch := mapTab begin_ s.watch }) else d

/-- A watched stop is not at standstill t_stop_max after its E. -/
def Watch.overdue (w : Watch) (c : ConfigStops) (t : Nat) : Bool :=
  !w.still && (match w.e with
    | some x => decide (x + c.tStopMax.toNat ≤ t)
    | none => false)

/-- A stop that has not reached standstill by E + t_stop_max raises STO. -/
def Dev.stopDeadline (d : Dev) (t : Nat) : Dev :=
  match d.stops with
  | some c =>
    let d1 := d.markStill t
    match d1.safety.watch.find? (fun e => e.2.overdue c t) with
    | some _ => if d1.power.mode.torque then d1.stoReaction t 0x15 0 false else d1
    | none => d1
  | none => d

/-- STOP_DEADLINE (R471). -/
def execStopDeadline (t : Nat) (s : State) : Host.Outcome State Fault Refusal :=
  s.act (fun d => (d.advance t).stopDeadline t)

/-- The stop envelope at a sample (R471). v(E) is the velocity of the sample taken at E; where none was, it is free. -/
def Dev.envelope (d : Dev) (t a j tSrc : Nat) (vel : Int) (valid : Bool) : Dev :=
  let w := look d.safety.watch a
  match w.e, d.stops with
  | some e, some c =>
    if w.still ∨ tSrc < e then d
    else
      let known := w.vE.any (fun x => x.1 = j)
      let v0 : Int := if known then look w.vE j else if tSrc = e then vel.natAbs else (Config.freeInt d.fresh).natAbs
      let d1 := if known then d else (d.draw 1).onSafety (fun s => { s with watch := upd s.watch a (fun w =>
        { w with vE := insert1 j v0 w.vE }) })
      let tsm : Int := c.tStopMax.toNat
      if valid ∧ e + 2 * d.time.tc ≤ tSrc ∧ v0 * max 0 (tsm - ((tSrc : Int) - e)) + c.vTol.toInt * tsm < vel.natAbs * tsm then
        d1.violation t 1 0x15 j false
      else d1
  | _, _ => d

/-- Standstill monitoring at a sample: a joint without a reference takes its first valid position (R471, R484). -/
def Dev.sosCheck (d : Dev) (t a j : Nat) (pos vel : Int) (valid : Bool) : Dev :=
  let w := look d.safety.watch a
  match d.stops with
  | some c =>
    if !w.sos then d
    else
      let known := w.pRef.any (fun x => x.1 = j)
      let d1 := if known ∨ !valid then d else d.onSafety (fun s => { s with watch := upd s.watch a (fun w =>
        { w with pRef := insert1 j pos w.pRef }) })
      let ref := if known then look w.pRef j else pos
      if !valid ∨ (c.sosPos.toNat : Int) < (pos - ref).natAbs ∨ c.sosVel.toInt < vel.natAbs then d1.violation t 1 0x14 j false
      else d1
  | none => d

/-- SLS at a sample (R472): a v_sls of 0 leaves its joint unmonitored. -/
def Dev.slsCheck (d : Dev) (t j : Nat) (vel : Int) (valid : Bool) : Dev :=
  match d.sls with
  | some c =>
    let lim := (c.vSls.getD j 0).toNat
    if d.slsOn ∧ lim ≠ 0 ∧ (!valid ∨ lim < vel.natAbs) then d.violation t c.reaction.toNat 0x13 j false else d
  | none => d

/-! ### Brake tests (R478) -/

/-- A brake test fails: its result, then STO. -/
def Dev.failTest (d : Dev) (t : Nat) (b : Nat) : Dev :=
  ((d.endBrakeTest t 1).onSafety (fun s => { s with brakeRelOnly := false })).stoReaction t 0x18 b false

/-- The safe position of the tested joint is held against its value at step 1. -/
def Dev.testCheck (d : Dev) (t j : Nat) (pos : Int) (valid : Bool) : Dev :=
  match d.safety.test with
  | some x =>
    if x.phase = .wait ∨ x.joint ≠ j then d
    else
      let ref := x.posRef.getD pos
      let off := (pos - ref).natAbs
      let d1 := d.onSafety (fun s => { s with test := some { x with posRef := some ref, maxDev := max x.maxDev off } })
      if !valid ∨ x.p.posTol.toNat < off then d1.failTest t x.p.index.toNat else d1
  | none => d

/-- The test starts at its boundary: the brake is applied, and the position noted. -/
def Dev.testBoundary (d : Dev) (b : Nat) : Dev :=
  match d.safety.test with
  | some x =>
    if x.phase = .wait ∧ x.until_ ≤ b then
      let br := look d.pwm.brakes x.p.index.toNat
      let wait := if x.p.target = 0 then (match br.cfg with
        | some c => c.tFb.toNat
        | none => 0) else 200
      let sj := look d.safety.joints x.joint
      let d1 := d.onSafety (fun s => { s with test := some { x with
        phase := .apply, until_ := b + wait * ms1, posRef := if sj.known && sj.valid then some sj.pos else none } })
      if x.p.target = 0 then
        d1.onPwm (fun p => { p with brakes := upd p.brakes x.p.index.toNat (fun y =>
          { y with phase := .applied, since := b, cmdRel := false, cmdAt := b, late := false }) })
      else d1
    else d
  | none => d

/-- The timer of the test: +tau_test, then -tau_test, then passed. -/
def Dev.testPhase (d : Dev) (t : Nat) : Dev :=
  match d.safety.test with
  | some x =>
    if t < x.until_ then d
    else
      let next := x.until_ + x.p.tTest.toNat * ms1
      match x.phase with
      | .apply => d.onSafety (fun s => { s with test := some { x with phase := .plus, until_ := next } })
      | .plus => d.onSafety (fun s => { s with test := some { x with phase := .minus, until_ := next } })
      | .minus => (d.endBrakeTest t 0).sweep t
      | .wait => d
  | none => d

/-- BRAKE_TEST_PHASE (R478). -/
def execBrakeTestPhase (t : Nat) (s : State) : Host.Outcome State Fault Refusal :=
  s.act (fun d => (d.advance t).testPhase t)

/-- t_bt has elapsed since a brake's last pass. -/
def Dev.testDue (d : Dev) (t b : Nat) : Dev :=
  match d.sbc with
  | some c =>
    if c.brakes.getLsbD b ∧ !d.safety.dueSaid.getLsbD b ∧ look d.safety.lastPass b + c.tBt.toNat * 3686400000000 < t then
      (d.onSafety (fun s => { s with dueSaid := setBit s.dueSaid b true })).notice 9 0 t 0x0E06 (safetyArg 0x18 b false) true
    else d
  | none => d

/-- BRAKE_TEST_DUE (R478). -/
def execBrakeTestDue (t : Nat) (b : Fin 16) (s : State) : Host.Outcome State Fault Refusal :=
  s.act (fun d => (d.advance t).testDue t b.val)

/-! ### Late brake feedback (R386, R477) -/

/-- The feedback still differs from the commanded state t_fb after a change: SS2 after a release, STO after an apply. -/
def Dev.brakeFbLate (d : Dev) (t b : Nat) : Dev :=
  let x := look d.pwm.brakes b
  match x.cfg with
  | some c =>
    if x.late ∨ t ≤ x.cmdAt + c.tFb.toNat * ms1 ∨ x.fbReleased = x.cmdRel then d
    else
      let d1 := (d.onPwm (fun p => { p with brakes := put p.brakes b { x with late := true } })).pwmNotice t 0x14 b true true
      if x.cmdRel then
        (d1.onSafety (fun s => { s with brakeRel := setBit s.brakeRel b true
                                        brakeRelOnly := s.brakeRelOnly || !d1.latchedTrig 0x18 })).react t 3 0x18 b false
      else
        (d1.onSafety (fun s => { s with needTest := setBit s.needTest b true, brakeRelOnly := false })).stoReaction t 0x18 b false
  | none => d

/-- BRAKE_FB_LATE (R386). -/
def execBrakeFbLate (t : Nat) (b : Fin 16) (s : State) : Host.Outcome State Fault Refusal :=
  s.act (fun d => (d.advance t).brakeFbLate t b.val)

/-- The release of R475 at step 3 of a boundary: the mode has torque, and both feedbacks have read 1 since at least the previous
boundary. A brake under test stays applied. -/
def Dev.releaseBrakes (d : Dev) (b : Nat) : Dev :=
  let held := match d.safety.test with
    | some x => if x.phase ≠ .wait ∧ x.p.target = 0 then some x.p.index.toNat else none
    | none => none
  if d.power.mode.torque ∧ d.safety.stoFbA ∧ d.safety.stoFbB ∧ d.safety.fbSince + d.time.tc ≤ b then
    (d.onSafety (fun s => { s with released := true })).onPwm (fun p => { p with brakes := mapTab (fun i y =>
      if y.cfg.isNone ∨ y.cmdRel ∨ held = some i then y
      else { y with phase := .pullIn, since := b, cmdRel := true, cmdAt := b, late := false, dropped := false }) p.brakes })
  else d

/-- What each brake reports at a boundary (R386). -/
def Dev.brakeReports (d : Dev) : Dev :=
  d.onPwm (fun p => { p with brakes := mapTab (fun _ y => { y with relB := y.reports }) p.brakes })

/-! ### Containers (R481 to R485) -/

/-- The structure of a payload agrees with its kind (R484). -/
def containerOk (kind : Nat) (p : List Byte) : Bool :=
  let n := p.length
  let c := (rd 8 p 0).toNat
  match kind with
  | 1 => within 1 12 (rd 8 p 0) && n == 4 + 16 * c && decide ((rd 8 p 1).toNat < 4) && rd 16 p 2 == 0
      && (List.range c).all (fun i => decide ((rd 8 p (5 + 16 * i)).toNat < 4) && rd 32 p (16 + 16 * i) == 0)
  | 2 => within 0 16 (rd 8 p 0) && n == 4 + 52 * c && rd 8 p 1 == 0 && rd 16 p 2 == 0
      && (List.range c).all (fun i => within 0 15 (rd 8 p (4 + 52 * i)) && rd 8 p (5 + 52 * i) == 0 && rd 16 p (6 + 52 * i) == 0)
  | 3 => n == 32 && within 1 5 (rd 8 p 0) && within 0 15 (rd 8 p 1) && decide ((rd 8 p 3).toNat < 32) && rd 64 p 24 == 0
  | 4 => n == 4 && within 0 3 (rd 8 p 0) && within 0 1 (rd 8 p 1) && within 0 63 (rd 8 p 2) && rd 8 p 3 == 0
  | _ => false

/-- The checks 3 to 7 of R483 on a container of a connection; none where every one holds. -/
def Dev.judgeContainer (d : Dev) (t c : Nat) (b : List Byte) : Option Nat :=
  let cfg := d.conn c
  let x := look d.safety.conns c
  let len := (rd 16 b 20).toNat
  let seq := rd 16 b 4
  let tSrc := (rd 64 b 8).toNat
  let seqOk := decide (x.state = .starting) || (match x.lastSeq with
    | some l => decide (1 ≤ (seq - l).toNat) && decide ((seq - l).toNat ≤ 8)
    | none => true)
  let srcOk := match x.tSrc with
    | some l => decide (l < tSrc)
    | none => true
  if b.length < 28 + len ∨ rd 32 b (24 + len) ≠ safetyCrc (b.take (24 + len)) then some 3
  else if rd 8 b 6 ≠ cfg.kind ∨ len % 4 ≠ 0 ∨ 1452 < len ∨ b.length ≠ 28 + len ∨ rd 8 b 7 ≠ 0 ∨ rd 16 b 22 ≠ 0
      ∨ !containerOk cfg.kind.toNat ((b.drop 24).take len) then some 4
  else if !seqOk then some 5
  else if !srcOk then some 6
  else if tSrc + min (rd 32 b 16).toNat cfg.tValid.toNat < t then some 7
  else none

/-- A stop that a connection demands, of the device or of one pan (R484). -/
def Dev.stopDemand (d : Dev) (t c fn : Nat) (pan : Option Nat) : Dev :=
  match pan with
  | none => d.react t fn 0x0C c false
  | some p =>
    let d1 := d.onSafety (fun s => { s with pans := upd s.pans p (fun x => { x with req := setBit x.req 2 true }) })
    if fn = 3 then d1.stopPanArms t p else d1.react t fn 0x0C c false

/-- The demand that a connection's latest container carries; function 0 demands nothing. -/
def Dev.setStop (d : Dev) (t c fn scope pan : Nat) : Dev :=
  let x := look d.safety.conns c
  let stop := if scope = 0 then fn else 0
  let stopPan := if scope = 1 ∧ fn ≠ 0 then some (pan, fn) else none
  let d1 := d.onSafety (fun s => { s with conns := upd s.conns c (fun x => { x with stop := stop, stopPan := stopPan }) })
  let d2 := if stop ≠ 0 ∧ stop ≠ x.stop then d1.stopDemand t c stop none else d1
  let d3 := match stopPan with
    | some (p, f) => if x.stopPan = some (p, f) then d2 else d2.stopDemand t c f (some p)
    | none => d2
  match x.stopPan with
  | some (p, _) =>
    if d3.safety.conns.any (fun e => match e.2.stopPan with
      | some (q, _) => decide (q = p)
      | none => false) then d3 else d3.panWithdraw t p 2
  | none => d3

/-- An entry of a SAFE_POS container: the sample is kept, and in the modes of R491 it is monitored. -/
def Dev.safePos (d : Dev) (t tSrc : Nat) (fault : Bool) (e : List Byte) : Dev :=
  let j := (rd 8 e 0).toNat
  if 128 ≤ j then d
  else
    let pos := (rd 48 e 2).toInt
    let vel := (rd 32 e 8).toInt
    let valid := (rd 8 e 1).getLsbD 1 && !fault
    let sample : SafeJoint := { pos := pos, vel := vel, tSrc := tSrc, known := true, valid := valid, braked := (rd 8 e 1).getLsbD 0 }
    let d1 := d.onSafety (fun s => { s with joints := put s.joints j sample })
    if d1.power.mode.torque ∨ d1.power.mode = .commission ∨ d1.power.mode = .shadow then
      let d2 := match d1.armOf j with
        | some a => (d1.envelope t a j tSrc vel valid).sosCheck t a j pos vel valid
        | none => d1
      (d2.slsCheck t j vel valid).testCheck t j pos valid
    else d1

/-- An OBJECTS container: each entry is a record for the objects bound to it. Records that no later pass can take are dropped. -/
def Dev.objectsIn (d : Dev) (tSrc c : Nat) (p : List Byte) : Dev :=
  let floor_ := if d.sep.pass.running ∧ d.sep.pass.inputs.isNone then d.sep.pass.stamp else d.bk
  let one := fun (d : Dev) (e : List Byte) =>
    let r := parseObject (e.drop 4) tSrc
    (List.range 256).foldl (fun d o =>
      let b := parseSetObjectSource (d.item 0x0607 o)
      if !(d.item 0x0607 o).isEmpty ∧ b.connection.toNat = c ∧ b.entry = rd 8 e 0 then
        d.onSep (fun s => { s with objs := upd s.objs o (fun x =>
          let l := r :: x.recs
          let keep := match l.find? (fun y => decide (y.stamp ≤ floor_)) with
            | some y => l.filter (fun z => decide (y.stamp ≤ z.stamp))
            | none => l
          { x with recs := keep }) })
      else d) d
  (chunks 52 (rd 8 p 0).toNat (p.drop 4)).foldl one d

/-- An accepted container: the connection's state (R485), then what its kind carries. Messages of a pair are rows of their own. -/
def Dev.acceptContainer (d : Dev) (t c : Nat) (b : List Byte) : Dev :=
  let x := look d.safety.conns c
  let tSrc := (rd 64 b 8).toNat
  let p := (b.drop 24).take (rd 16 b 20).toNat
  let runs := decide (x.state ≠ .running) && decide (2 ≤ x.good + 1)
  let d1 := d.onSafety (fun s => { s with conns := put s.conns c { x with
    lastSeq := some (rd 16 b 4), tSrc := some tSrc, lastRx := t, good := x.good + 1, state := if runs then .running else x.state } })
  let d2 := if runs then
      (d1.onSafety (fun s => { s with connTrig := setBit s.connTrig c false })).notice 9 0 t 0x0E04 (safetyArg 0x17 c false) true
    else d1
  let d3 := match (d.conn c).kind.toNat with
    | 1 => ((chunks 16 (rd 8 p 0).toNat (p.drop 4)).foldl (fun (d : Dev) e => d.safePos t tSrc ((rd 8 p 1).getLsbD 1) e) d2).markStill t
    | 2 => d2.objectsIn tSrc c p
    | 4 => d2.setStop t c (rd 8 p 0).toNat (rd 8 p 1).toNat (rd 8 p 2).toNat
    | _ => d2
  d3.sweep t

/-- A container in the slot of consumed connections: the one whose identity it carries judges it; one of no connection of the
slot is rejected by each of them. -/
def Dev.container (d : Dev) (t : Nat) (f : FrameIn) (fr : Frame) : Dev :=
  let l := d.slotConns (f.ch.val / 2) f.slot.val
  match l.find? (fun c => decide ((d.conn c).connId = rd 32 fr.payload 0)) with
  | some c => match d.judgeContainer t c fr.payload with
    | some step => (d.rejectConn c step).faultEvent 1 f.ch.val t
    | none => d.acceptContainer t c fr.payload
  | none => if l.isEmpty then d else (l.foldl (fun d c => d.rejectConn c 2) d).faultEvent 1 f.ch.val t

/-- SAFETY_CONTAINER (R483). -/
def execSafetyContainer (t : Nat) (f : FrameIn) (s : State) : Host.Outcome State Fault Refusal :=
  s.act (fun d => (d.advance t).onFrame t f 5 (fun d fr => d.container t f fr))

/-- A consumed connection fails at the first CT greater than its last accepted reception + t_wd, with its loss reaction
(R485). -/
def Dev.connFailed (d : Dev) (t c : Nat) : Dev :=
  let cfg := d.conn c
  let x := look d.safety.conns c
  if cfg.dir ≠ 1 ∨ x.state = .failed ∨ !d.evaluates ∨ t ≤ x.lastRx + cfg.tWd.toNat then d
  else
    let d1 := (d.onSafety (fun s => { s with conns := put s.conns c { x with state := .failed, good := 0 } })).notice 9 0 t 0x0E03
      (safetyArg 0x17 c false) true
    if cfg.loss = 0 then d1
    else (d1.onSafety (fun s => { s with connTrig := setBit s.connTrig c true })).react t cfg.loss.toNat 0x17 c false

/-- CONNECTION_FAILED (R485). -/
def execConnectionFailed (t : Nat) (conn : Fin 64) (s : State) : Host.Outcome State Fault Refusal :=
  s.act (fun d => (d.advance t).connFailed t conn.val)

/-- The demands that are active at an instant are reacted to: where a mode with torque is entered, where a set comes into
force, and at the exit from DORMANT and boot. -/
def Dev.evalDemands (d : Dev) (t : Nat) : Dev :=
  let d1 := (List.range 8).foldl (fun d p => if d.pairDemand p then d.pairReact t p else d) d
  d1.safety.conns.foldl (fun d e =>
    let d' := if e.2.stop ≠ 0 then d.stopDemand t e.1 e.2.stop none else d
    match e.2.stopPan with
    | some (p, f) => d'.stopDemand t e.1 f (some p)
    | none => d') d1

/-! ### Commands -/

/-- The condition that class 0x0E is available: none of these in the ARBITER role. -/
def Dev.noSafety (d : Dev) : Bool × Status := (!d.isArbiter, .retired)

/-- CONFIG_SAFETY_CONN: an item of the set; in the ARBITER role, where no set is committed, a connection of kind PAIR comes into
force as it is accepted. -/
def semConfigSafetyConn (h : Hdr) (p : ConfigSafetyConn) (arb : Bool) : Sem where
  op := 0x0E05
  lenOk := h.length = 20
  modes := if arb then [.ready] else [.commission]
  range := fun d => d.rangeConn p
  cond := fun _ => firstFail [(!arb || p.kind == 3, .retired)]
  eff := fun d =>
    let b := if p.dir = 0 then [] else bytesConfigSafetyConn p
    let d1 := d.putItem 0x0E05 p.conn.toNat b
    if arb then
      (d1.onSafety (fun s => { s with
        committed := put s.committed (itemKey 0x0E05 p.conn.toNat) b
        conns := put s.conns p.conn.toNat { lastRx := if p.dir = 1 then h.stamp else 0 } }), some (.ok, []))
    else (d1, some (.ok, []))

/-- GET_SET_CHECK; without a committed set its check value is free. -/
def semGetSetCheck (h : Hdr) : Sem where
  op := 0x0E10
  lenOk := h.length = 0
  link := .both
  eff := fun d =>
    let s := d.safety
    let com := if s.valid then s.committed.check else Config.freeWord d.fresh 32
    (d.draw 1, some (.ok, wordBytes s.candidate.check ++ wordBytes com ++ leBytes 2 (s.candidate.changed s.committed) ++ [0, 0]
      ++ leBytes 1 s.index.toNat ++ leBytes 1 s.code.toNat ++ [0, 0]))

/-- The state of the connections once a set is committed: an unchanged item keeps it, a new or changed one starts. -/
def commitConns (old new : SafetySet) (t : Nat) (l : Tab Conn) : Tab Conn :=
  (List.range 64).foldl (fun m c =>
    if old.get 0x0E05 c = new.get 0x0E05 c then m
    else put m c { lastRx := if (rd 8 (new.get 0x0E05 c) 1) = 1 then t else 0 }) l

/-- A commit (R489): both copies are written with the seal values as accepted, and the set takes effect at once. -/
def Dev.commit (d : Dev) (t : Nat) : Dev :=
  let s := d.safety
  let new := s.candidate
  let idx := s.sealPins.setWidth 4
  let code := (s.sealPins >>> 4).setWidth 3
  let copy : SetCopy := { check := new.check, index := idx, code := code, items := new }
  let gone := (List.range 64).filter (fun c => s.committed.get 0x0E05 c ≠ new.get 0x0E05 c)
  let d1 := d.onSafety (fun x => { x with
    committed := new, valid := true, index := idx, code := code, copyA := some copy, copyB := some copy
    conns := commitConns s.committed new t x.conns
    connTrig := gone.foldl (fun w c => setBit w c false) x.connTrig
    pairs := (List.range 8).foldl (fun m p =>
      if s.committed.get 0x0E00 p = new.get 0x0E00 p then m else put m p {}) x.pairs })
  let d2 := d1.onSep (fun x => { x with objs := (List.range 256).foldl (fun m o =>
    if s.committed.get 0x0607 o = new.get 0x0607 o then m else put m o {}) x.objs })
  let d3 := (d2.sep.hintsNext.foldl (fun d p => d.bindHint p) d2).onSep (fun x => { x with hintsNext := [] })
  let d4 := (List.range 8).foldl (fun d p =>
    if (d.sinPair p).function = 0 then d
    else d.onSafety (fun x => { x with pairs := upd x.pairs p (fun y => y.step t (d.sinA p) (d.sinB p)) })) d3.copyToIsland
  ((d4.notice 9 0 t 0x0E07 0 true).evalDemands t).sweep t

/-- COMMIT_SET: a set with an invalid entry is refused with the lowest invalid index in the reply (R267). -/
def semCommitSet (h : Hdr) (p : CommitSet) : Sem where
  op := 0x0E11
  lenOk := h.length = 4
  modes := [.commission]
  cond := fun d => firstFail [d.noSafety, (decide (d.safety.candidate.check = p.check), .unconfirmed),
    (!d.fuse 825 || decide (d.safety.sealPins.toNat / 16 % 8 = d.fuseField 826 3), .sealed),
    (d.safety.candidate.islandPairs.all d.safety.candidate.islandPairOk && d.timingOk d.safety.candidate
      || (d.badEntry d.safety.candidate).isSome, .range)]
  eff := fun d => match d.badEntry d.safety.candidate with
    | some i => (d, some (.range, leBytes 4 i))
    | none => (d.commit h.stamp, some (.ok, []))

/-- DISCARD_CHANGES. -/
def semDiscardChanges (h : Hdr) : Sem where
  op := 0x0E12
  lenOk := h.length = 0
  modes := [.commission]
  cond := fun d => firstFail [d.noSafety]
  eff := fun d => ((d.onSafety (fun s => { s with candidate := s.committed })).onSep (fun s => { s with hintsNext := [] }), some (.ok, []))

/-- SAVE_SET_IMAGE writes the committed image into MEMB. -/
def semSaveSetImage (h : Hdr) (p : SaveSetImage) : Sem where
  op := 0x0E14
  lenOk := h.length = 4
  modes := [.ready, .safeOff, .commission]
  cond := fun d => firstFail [d.noSafety, (d.safety.valid, .range),
    (decide (p.offset.toNat + d.safety.committed.image.length ≤ 8388608), .range),
    (decide (d.power.domains.getD 13 .off ≠ .off) && !d.isRetired 0x0A 0, .retired)]
  eff := fun d =>
    let b := d.safety.committed.image
    (d.onHost (fun x => { x with memB := memWrite x.memB p.offset.toNat b }),
      some (.ok, leBytes 4 b.length ++ wordBytes d.safety.committed.check))

/-- The joint that a brake test loads. -/
def Dev.testJoint (d : Dev) (p : BrakeTest) : Option Nat :=
  if p.target = 0 then (look d.pwm.brakes p.index.toNat).cfg.map (fun c => c.joint.toNat) else some p.index.toNat

/-- The slot of a joint is of kind TORQUE (R166). -/
def Dev.torqueSlot (d : Dev) (j : Nat) : Bool :=
  match (look d.loop.joints j).cfg with
  | some c => c.kind == 3
  | none => false

/-- BRAKE_TEST: the reply is posted when the test ends. -/
def semBrakeTest (h : Hdr) (p : BrakeTest) : Sem where
  op := 0x0E20
  lenOk := h.length = 16
  modes := [.hold]
  range := fun _ => within 0 1 p.target && within 0 (if p.target = 0 then 15 else 127) p.index && p.reserved0 == 0
    && decide (0 < p.tauTest.toInt) && within 100 5000 p.tTest && p.reserved1 == 0
  cond := fun d => firstFail [d.noSafety, (match d.testJoint p with
      | some j => d.torqueSlot j
      | none => false, .range),
    (d.safety.test.isNone, .range), (d.allStill, .mode)]
  eff := fun d =>
    let x : BrakeTesting := { hdr := h, p := p, joint := (d.testJoint p).getD 0, until_ := d.effectAt h.stamp }
    (d.onSafety (fun s => { s with test := some x }), none)

/-- A mask of the arms that satisfy a condition. -/
def armMask (f : Nat → Bool) : Nat := (List.range 16).foldl (fun m a => m + bit (f a) * 2 ^ a) 0

/-- GET_SAFETY_STATE. -/
def semGetSafetyState (h : Hdr) : Sem where
  op := 0x0E30
  lenOk := h.length = 0
  link := .both
  eff := fun d =>
    let s := d.safety
    let sto := bit s.stoA + 2 * bit s.stoB + 4 * bit s.stoFbA + 8 * bit s.stoFbB
      + 16 * bit (match s.permit with
          | some b => decide (h.stamp ≤ b)
          | none => false)
    let due := fun b => match d.sbc with
      | some c => c.brakes.getLsbD b && decide (look s.lastPass b + c.tBt.toNat * 3686400000000 < h.stamp)
      | none => false
    (d, some (.ok, wordBytes s.latched ++ leBytes 1 ((List.range 8).foldl (fun m p => m + bit (d.pairDemand p) * 2 ^ p) 0)
      ++ leBytes 1 sto ++ [s.edmIn, s.sealPins] ++ leBytes 2 (armMask (fun a => (look s.watch a).sos))
      ++ leBytes 2 (armMask (fun a => d.slsOn && (look d.arms a).cfg.isSome)) ++ leBytes 2 (armMask due) ++ leBytes 8 s.latchedAt
      ++ [0, 0]))

/-- The code of a connection's state, in the order of R485. -/
def ConnState.code : ConnState → Nat
  | .starting => 0 | .running => 1 | .failed => 2

/-- GET_CONN_STATE; the state of a connection that is not consumed is free. -/
def semGetConnState (h : Hdr) (p : GetConnState) : Sem where
  op := 0x0E31
  lenOk := h.length = 4
  link := .both
  range := fun _ => within 0 63 p.conn && p.reserved == 0
  eff := fun d =>
    let x := look d.safety.conns p.conn.toNat
    let st : BitVec 8 := if (d.conn p.conn.toNat).dir = 1 then BitVec.ofNat 8 x.state.code else Config.freeWord d.fresh 8
    (d.draw 1, some (.ok, [st, 0, 0, 0] ++ wordBytes (x.lastSeq.getD 0) ++ [0, 0] ++ leBytes 8 (x.tSrc.getD 0)
      ++ x.rejects.flatMap wordBytes))

def execConfigSafetyConn (h : Hdr) (p : ConfigSafetyConn) (s : State) : Host.Outcome State Fault Refusal :=
  s.act (fun d => runCmd (semConfigSafetyConn h p d.isArbiter) h d)

def execGetSetCheck (h : Hdr) (s : State) : Host.Outcome State Fault Refusal := s.act (runCmd (semGetSetCheck h) h)

def execCommitSet (h : Hdr) (p : CommitSet) (s : State) : Host.Outcome State Fault Refusal := s.act (runCmd (semCommitSet h p) h)

def execDiscardChanges (h : Hdr) (s : State) : Host.Outcome State Fault Refusal := s.act (runCmd (semDiscardChanges h) h)

def execSaveSetImage (h : Hdr) (p : SaveSetImage) (s : State) : Host.Outcome State Fault Refusal :=
  s.act (runCmd (semSaveSetImage h p) h)

def execBrakeTest (h : Hdr) (p : BrakeTest) (s : State) : Host.Outcome State Fault Refusal := s.act (runCmd (semBrakeTest h p) h)

def execGetSafetyState (h : Hdr) (s : State) : Host.Outcome State Fault Refusal := s.act (runCmd (semGetSafetyState h) h)

def execGetConnState (h : Hdr) (p : GetConnState) (s : State) : Host.Outcome State Fault Refusal :=
  s.act (runCmd (semGetConnState h p) h)

end Sys2Proof.Machine
end

