-- ==== Sys2Proof/Machine/Transmit.lean ====
section
/-! DEFINITION. What the device sends in its own slots (R416 to R418): the payload of each frame type, the frame, its form on
the wire, and the cut of a burst by the sluice. -/

namespace Sys2Proof.Machine

/-! ### Payloads -/

/-- The grant that the next SYNC carries (R431). -/
def BusSet.nextGrant (s : BusSet) : Option Grant := s.grants.find? (fun g => g.effB.isNone)

/-- SYNC (R424): the next grant goes with it, and its entry becomes owned from the next cycle but one. -/
def Dev.syncPayload (d : Dev) (t set : Nat) : Dev × List Byte :=
  let s := d.busSet set
  let g := s.nextGrant
  let flags := bit (decide (s.state = .coldstart)) + 2 * bit d.holdsLease
  let tail := match g with
    | some x => [BitVec.ofNat 8 x.slot] ++ wordBytes x.claim.id ++ [BitVec.ofNat 8 x.owner]
    | none => [0xFF, 0, 0, 0, 0, 0xFF]
  let p := leBytes 8 d.time.k ++ wordBytes s.schedId ++ leBytes 1 (tcCode d.time.tc) ++ leBytes 1 d.time.nSep ++ leBytes 1 flags
    ++ tail ++ [0, 0, 0]
  match g with
  | some x =>
    ((d.onSet set (fun s => { s with grants := s.grants.map (fun y =>
      if y = x then { y with effB := some (d.boundary (d.time.k + 2)) } else y) })).busNotice t 0x48 set x.slot true, p)
  | none => (d, p)

/-- The brakes of a joint's drive node are to be applied (R404, R475, R478): they are not released, or the joint's node is under
a brake test. -/
def Dev.nodeBrake (d : Dev) (js : List Nat) : Bool :=
  !d.safety.released || (match d.safety.test with
    | some x => x.p.target == 1 && decide (x.phase ≠ .wait) && decide (x.joint ∈ js)
    | none => false)

/-- SETPOINT (R404): the outputs fixed at the present boundary; none where the slot's node has no joint with an output. -/
def Dev.setpointPayload (d : Dev) (set slot : Nat) : Option (List Byte) :=
  let kind := fun (j : Nat) => match (look d.loop.joints j).cfg with
    | some c => c.kind.toNat
    | none => 0
  let js := (((Config.setpointJoints set slot).map (·.val)).filter (fun j => decide (kind j ≠ 0))).take 12
  if js.isEmpty then none
  else
    let enable := d.safety.stoA && d.safety.stoB && d.power.mode.torque
    let entry := fun (j : Nat) =>
      let e := look d.bus.eff j
      [BitVec.ofNat 8 j, BitVec.ofNat 8 (kind j), 0, 0] ++ intBytes 8 e.1 ++ intBytes 4 e.2.1 ++ intBytes 4 e.2.2
    some (leBytes 8 d.bk ++ [BitVec.ofNat 8 js.length, BitVec.ofNat 8 (bit (d.nodeBrake js) + 2 * bit enable)]
      ++ List.replicate 6 0 ++ js.flatMap entry)

/-- A PARAM request (R407). -/
def ParamTx.payload (x : ParamTx) : List Byte :=
  wordBytes x.tid ++ [x.p.op, x.p.sub] ++ wordBytes x.p.index ++ [0, 0] ++ leBytes 2 (if x.p.op = 2 then x.p.n.toNat else 0) ++ [0, 0]
    ++ (if x.p.op = 2 then x.p.data.take x.p.n.toNat else [])

/-- The oldest request that waits for a slot. -/
def Dev.paramPayload (d : Dev) (set slot : Nat) : Option (Dev × List Byte) :=
  match d.bus.params.find? (fun x => !x.sent && decide (x.p.channel.toNat / 2 = set) && decide (x.p.slot.toNat = slot)) with
  | some x => some (d.onBus (fun b => { b with params := b.params.map (fun y => if y = x then { y with sent := true } else y) }),
      x.payload)
  | none => none

/-- The container of a produced connection (R481). -/
def containerBytes (c : ConfigSafetyConn) (seq : BitVec 16) (tSrc : Nat) (p : List Byte) : List Byte :=
  let b := wordBytes c.connId ++ wordBytes seq ++ [c.kind, 0] ++ leBytes 8 tSrc ++ wordBytes c.tValid ++ leBytes 2 p.length ++ [0, 0] ++ p
  b ++ wordBytes (safetyCrc b)

/-- What a produced connection has to send at the start of its slot: the device after it, the instant the data refers to and the
payload. A unit's message and the arbiter's answer refer to the slot's start (R440, R441, R444), an export to its pass (R438);
what else the device produces on a SAFE_POS, OBJECTS or STOP connection the spec does not say: no frame is sent. -/
def Dev.connPayload (d : Dev) (t set slot conn : Nat) : Option (Dev × Nat × List Byte) :=
  let c := d.conn conn
  if c.kind = 3 then
    let cell := if set = 4 then (List.range 16).find? (fun i => match d.arbCell i with
        | some a => decide (a.conn.toNat = conn) && decide (a.slot.toNat = slot)
        | none => (look d.pair.cells i).sent.isSome && (match (look d.pair.cells i).cfg with
          | some a => decide (a.conn.toNat = conn) && decide (a.slot.toNat = slot)
          | none => false))
      else none
    match cell with
    | some i => (look d.pair.cells i).sent.map (fun m => (d, t, leaseBytes m))
    | none => match d.pair.cfg with
      | some x => if d.inPair ∧ x.connSelf.toNat = conn
          then some (d.onPair (fun p => { p with toSend := none }), t, leaseBytes d.pairMessage) else none
      | none => none
  else if c.kind = 2 ∧ !(d.item 0x0D05 0).isEmpty ∧ (parseSetExport (d.item 0x0D05 0)).conn.toNat = conn then
    d.sep.exported.map (fun e => (d.onSep (fun s => { s with exported := none }), e.1, e.2))
  else none

/-- The payload of a SAFETY slot: the container of the produced connection that the set gives the slot. -/
def Dev.safetyPayload (d : Dev) (t set slot : Nat) : Option (Dev × List Byte) :=
  match (List.range 64).find? (fun c => let x := d.conn c
      decide (x.dir = 2) && decide (x.set.toNat = set) && decide (x.slot.toNat = slot)) with
  | none => none
  | some c => (d.connPayload t set slot c).map (fun r =>
      let seq := (look r.1.safety.conns c).outSeq
      (r.1.onSafety (fun s => { s with conns := upd s.conns c (fun x => { x with outSeq := x.outSeq + 1 }) }),
        containerBytes (d.conn c) seq r.2.1 r.2.2))

/-- The ballast request that waits, on segment D, from the cycle for which it is staged (R300, R304); it is sent once, and journalled
with the bounds in force. -/
def Dev.ballastPayload (d : Dev) (t set : Nat) : Option (Dev × List Byte) :=
  match d.deck.toSend with
  | some r =>
    if set ≠ 3 ∨ d.bk < r.from_ then none
    else
      let bounds := match d.deck.bounds with
        | some b => wordBytes b.dmTankMax ++ wordBytes b.dmTotalMax
        | none => List.replicate 8 0
      let dm := (List.range 12).flatMap (fun i => wordBytes (r.dm.getD i 0))
      let n := match d.deck.ballast with
        | some c => c.count
        | none => 0
      some ((d.onDeck (fun k => { k with toSend := none })).deckNotice t 7 r.arm r.reqId true bounds,
        leBytes 4 1 ++ wordBytes r.reqId ++ [n, 0] ++ leBytes 8 r.until_ ++ dm)
  | none => none

/-- In the period of a takeover the standby's SETPOINT slots stay empty (R450). -/
def Dev.takingOver (d : Dev) : Bool := d.inPair && decide (d.bk < d.pair.tt)

/-- The payload that the device sends in an own slot by its TYPE; none where it has nothing to send. In SHADOW the standby sends
its SYNC and its messages only (R432). -/
def Dev.payloadFor (d : Dev) (t set slot : Nat) : Option (Dev × List Byte) :=
  let shadow := decide (d.power.mode = .shadow)
  match eType ((d.busSet set).entry slot) with
  | 1 => some (d.syncPayload t set)
  | 2 => if shadow || d.takingOver then none else (d.setpointPayload set slot).map (fun p => (d, p))
  | 4 => if shadow then none else d.paramPayload set slot
  | 5 => d.safetyPayload t set slot
  | 6 => if shadow then none else d.ballastPayload t set
  | _ => none

/-! ### Sending -/

/-- How long the set's form takes to send a frame, in units of 1/25 CT LSB: a line burst with its closing baud at 5 ns, an
Ethernet frame at 80 ns a byte (R397, R398, R400). -/
def wireTime (form : ChanMode) (size : Nat) : Nat :=
  match form with
  | .off => 0
  | .line => (49 + 64 * blocksOf size) * 128
  | .phy => (8 + 14 + max 46 size + 4) * 16 * 128

/-- The sending channels of a mask on a set. -/
def maskChans (set : Nat) (m : BitVec 2) : List Nat :=
  (if m.getLsbD 0 then [2 * set] else []) ++ (if m.getLsbD 1 then [2 * set + 1] else [])

/-- A burst was cut or read back wrongly (R416): in COLDSTART's SYNC a collision (R429); else an event on each sending channel
and TRUNCATED. -/
def Dev.burstBad (d : Dev) (t set slot : Nat) (chans : List Nat) : Dev :=
  if (d.busSet set).state = .coldstart then d.collide t set (chans.headD (2 * set))
  else
    (chans.foldl (fun d c => d.faultEvent 1 c t) d).truncated t set slot

/-- A frame is sent in a slot whose window is open: it stands on the wire, and in line mode the burst is compared; it is cut
where the window opens after its start or closes before its end (R416, R417; log entry 39). -/
def Dev.sendFrame (d : Dev) (t set slot : Nat) (w : Nat × Nat) (f : Frame) (echoOk : Bool) : Dev :=
  let mask := d.sendChans set ((d.busSet set).entry slot)
  let chans := maskChans set mask
  let form := formOf d.bus.chans set
  let bs := f.bytes
  let sent : Sent := { set := set, slot := slot, chans := mask, frame := f, open_ := w.1, close := w.2,
                       baud := if form = .line then lineBurst bs else [],
                       ether := if form = .phy then ethernet (chans.headD (2 * set)) slot bs else [] }
  let d1 := d.onBus (fun b => { b with sent := b.sent ++ [sent] })
  let cut := decide (t < w.1) || decide ((w.2 - t) * 25 < wireTime form bs.length)
  if form = .line ∧ (cut ∨ !echoOk) then d1.burstBad t set slot chans else d1

/-- The start of a slot (R411, R416, R417): in an own slot whose sluice opens the device sends its frame; a retry slot repeats the
frame of the slot it serves, with RETRY set and its own start. -/
def Dev.transmit (d : Dev) (t set slot : Nat) (echoOk : Bool) : Dev :=
  if t ≠ d.slotStart set slot then d
  else match d.sluice set slot with
  | none => d
  | some w =>
    let e := (d.busSet set).entry slot
    if eUse e = 3 then
      match d.bus.sent.find? (fun x => decide (x.set = set) && decide (x.slot = eRetryOf e)) with
      | some x => d.sendFrame t set slot w { x.frame with flags := 1, ct := t } echoOk
      | none => d
    else match d.payloadFor t set slot with
    | none => d
    | some (d1, p) =>
      let ch := (maskChans set (d.sendChans set e)).headD (2 * set)
      let (_, n, d2) := d1.stampItem 8 ch t
      d2.sendFrame t set slot w { type := BitVec.ofNat 8 (eType e), source := d.source 8 ch, seq := n, ct := t, payload := p } echoOk

/-- SLOT_TRANSMIT (R416). -/
def execSlotTransmit (t : Nat) (set : Fin 5) (slot : Fin 128) (echoOk : Bool) (s : State) : Host.Outcome State Fault Refusal :=
  s.act (fun d => (d.advance t).transmit t set.val slot.val echoOk)

end Sys2Proof.Machine
end

