-- ==== Sys2Proof/Machine/RunEnd.lean ====
section
/-! DEFINITION. The end of a solver run and what its consumers take from it (R225, R230 to R236, R249, R252 to R256, R279, R299),
the deadline of a run, and the lane test (R234). -/

namespace Sys2Proof.Machine

/-! ### Outcomes -/

/-- A run's plan; a run that no dispatch cycle has captured yet comes to what its inputs give now. -/
def Dev.runPlan (d : Dev) (t id : Nat) (q : Problem) (r : SolverRun) : RunPlan :=
  r.plan.getD { d.planOf t id q r with began := t, dl := r.dl }

/-- What a run has met by an instant between two states of its arithmetic: which part of the way is free (R230). -/
def Dev.metSoFar (d : Dev) (a b : Calc) : Calc :=
  { ovf := if Config.freeBool d.fresh then b.ovf else a.ovf
    reg := a.reg || (b.reg && Config.freeBool (d.fresh + 1))
    small := a.small || (b.small && Config.freeBool (d.fresh + 2)) }

/-- The arithmetic of a plan after so many complete iterations. -/
def RunPlan.arithAt (p : RunPlan) (n : Nat) : Calc := if n = 0 then {} else (p.iters.getD (n - 1) { arith := p.arith }).arith

/-- What the arithmetic of a plan comes to in the iteration after so many. -/
def RunPlan.arithNext (p : RunPlan) (n : Nat) : Calc := (p.iters.getD n { arith := p.arith }).arith

/-- The outcome of a run that its deadline aborts (R230): outside a factorisation with an outer iteration complete the last
iterate stands, else there is no solution. -/
def Dev.abortOut (d : Dev) (p : RunPlan) (pos : RunPos) : RunOut :=
  let n := min pos.complete p.iters.length
  let arith := d.metSoFar (p.arithAt n) (p.arithNext n)
  let rerun := !pos.mism.isEmpty
  if !p.inRange then { p.out with rerun := rerun }
  else if 0 < n ∧ !pos.inFactor then
    let i := p.iters.getD (n - 1) {}
    { arith := arith, r := i.r, x := i.x, iters := n, cut := true, rerun := rerun, noDeck := p.noDeck }
  else { arith := arith, late := true, iters := n, rerun := rerun, noDeck := p.noDeck }

/-- The outcome of a run that a second mismatch ends (R234): CHECK, after a free part of its iterations. -/
def Dev.checkOut (d : Dev) (p : RunPlan) : RunOut :=
  let n := Config.freeNat (d.fresh + 3) % (p.iters.length + 1)
  { arith := { d.metSoFar (p.arithAt n) (p.arithNext n) with ovf := none, stop := false }, iters := n, check := true, rerun := true
    noDeck := p.noDeck }

/-! ### Consumers (R232) -/

/-- DLS_IK of an arm ends (R249): a usable run stages positions, the Jacobian before its last step, and the poses; an unusable one
stages nothing. -/
def Dev.ikEnd (d : Dev) (a : Nat) (qx : Nat) (usable : Bool) (o : RunOut) (p : IkPlan) : Dev :=
  if !usable then d.onKin a (fun k => { k with ikOk := false })
  else
    let pos := p.jpos.mapIdx (fun i s =>
      let w := o.x.getD i 0
      s + (if qx < 24 then w * 2 ^ (24 - qx) else rneDiv w (2 ^ (qx - 24))))
    let fb := (look d.arms a).joints.map (fun j => ((look d.joints j).fb : Rat))
    let here := (d.toolPose a fb).words
    d.onKin a (fun k => { k with
      ikOk := true, ikPos := pos, jac := p.jac.getD (o.iters - 1) [], poseT := p.poseT, poseF := here })

/-- The stamp of the end of a run's build step (R252): free between its start and its end or deadline, whichever comes first. -/
def Dev.builtAt (d : Dev) (t : Nat) (m : RunPlan) : Nat := m.began + Config.freeNat d.fresh % (min t m.dl + 1 - m.began)

/-- RNEA of an arm ends (R252 to R255): what its build step formed stands where that completed in time with no overflow and no
CHECK, with the stamp `at_` of that step's end, and the payload of a usable run is applied. -/
def Dev.rneaEnd (d : Dev) (at_ a : Nat) (delivered usable : Bool) (x : List Int) (p : RneaPlan) : Dev :=
  d.onKin a (fun k =>
    let k1 : Kin := if delivered then { k with
        torque := p.torque, wrench := p.wrench, ffStamp := at_, regY := p.y, tau0 := p.tau0, normA := p.normA, normB := p.normB }
      else k
    { k1 with payload := if usable then x.take 4 else k.payload, prevOk := usable })

/-- The tanks' changes of an allocation: the solution words rounded half to even to whole kg (R299). -/
def Dev.allocation (d : Dev) (qx : Nat) (x : List Int) : List (BitVec 32) :=
  (x.take d.ballastTanks.length).map (fun w => BitVec.ofInt 32 (rneDiv w (2 ^ qx)))

/-- The consumers of a problem read its outcome and what its plan stages; `built` says that the run completed its build step. -/
def Dev.consume (d : Dev) (t id : Nat) (o : RunOut) (m : RunPlan) (built : Bool) : Dev :=
  match look d.solver.problems id with
  | none => d
  | some p =>
    let usable := (o.status p.desc).usable
    let qx := p.desc.qX.toNat
    if id < 16 then d.ikEnd id qx usable o m.ik
    else if id < 32 then
      (d.rneaEnd (d.builtAt t m) (id - 16) (built && m.built && o.inRange && !o.check) usable o.x m.rnea).draw 1
    else if id < 96 then d.applyPan t (id - 32) (if usable then some (qx, o.x) else none) (built && o.inRange)
    else if id = 96 then d.ballastEnd t (m.arm.getD d.deck.allocArm) usable (BitVec.ofNat 16 (o.status p.desc).code) (d.allocation qx o.x)
    else d

/-- A run is over: the lane is free and its memory holds the result, the result is written, and its consumers and what waits for
the problem go on. -/
def Dev.runOver (d : Dev) (t id lane : Nat) (o : RunOut) (m : RunPlan) (built : Bool) : Dev :=
  let d1 := d.onSolver (fun s => { s with lanes := upd s.lanes lane (fun l => { l with
    runs := l.runs + 1, running := none
    mem := match look s.problems id with
      | some q => laneImage q.desc m.words (m.factors ++ o.x)
      | none => l.mem }) })
  let d2 := (d1.writeResult t id (some lane) o).consume t id o m built
  match d2.taskRunning (0x600 + id) with
  | some x => d2.completeTask t x
  | none => d2

/-! ### The events of the array -/

/-- A lane counts an event (R234, R241). -/
def Dev.laneEvent (d : Dev) (t lane : Nat) : Dev :=
  (d.faultEvent 3 lane t).onSolver (fun s => { s with lanes := upd s.lanes lane (fun l => { l with events := l.events + 1 }) })

/-- The mismatches of a run, at their stamps. -/
def Dev.laneMismatches (d : Dev) (lane : Nat) (mism : List Nat) : Dev := mism.foldl (fun d t => d.laneEvent t lane) d

/-- The run on a lane ends on time (R230, R232): one mismatch restarted it once, a second ended it with CHECK (R234). Whether such a
run without a complete iteration has completed its build step is free. -/
def Dev.runEnd (d : Dev) (t lane : Nat) (mism : List Nat) : Dev :=
  match (look d.solver.lanes lane).running with
  | none => d
  | some id =>
    match look d.solver.problems id with
    | none => d
    | some p => match p.run with
      | none => d
      | some r =>
        if r.dl < t then d
        else
          let m := d.runPlan t id p r
          let d1 := (d.laneMismatches lane (mism.take 2)).draw 5
          if 2 ≤ mism.length then
            d1.runOver t id lane (d.checkOut m) m (decide (0 < (d.checkOut m).iters) || Config.freeBool (d.fresh + 4))
          else d1.runOver t id lane { m.out with rerun := !mism.isEmpty } m true

/-- PROBLEM_RUN_END (R232). -/
def execProblemRunEnd (t : Nat) (lane : Fin 36) (mismatches : List Nat) (s : State) : Host.Outcome State Fault Refusal :=
  s.act (fun d => ((d.advance t).cancelsBefore t).runEnd t lane.val mismatches)

/-- A released task ends unstarted at its deadline (R230, R337): of a problem, with status DEADLINE. -/
def Dev.endLate (d : Dev) (t : Nat) (x : Task) : Dev :=
  match problemOf x.entry with
  | some id =>
    let d1 := d.writeResult t id none { late := true }
    (d1.consume t id { late := true } {} false).endUnstarted t x
  | none => d.endUnstarted t x

/-- The deadline of a problem arrives at the first CT above it (R230). Whether a run without a complete iteration, outside a
factorisation, has completed its build step is free. -/
def Dev.problemDeadline (d : Dev) (t id : Nat) (pos : RunPos) : Dev :=
  match look d.solver.problems id with
  | none => d
  | some p =>
    match p.run with
    | some r =>
      if t ≤ r.dl then d
      else match r.lane with
        | some lane =>
          let m := d.runPlan t id p r
          let built := decide (0 < pos.complete) || pos.inFactor || Config.freeBool (d.fresh + 3)
          ((d.laneMismatches lane (pos.mism.take 1)).draw 4).runOver t id lane (d.abortOut m pos) m built
        | none => d
    | none =>
      match d.disp.tasks.find? (fun x => decide (x.entry = 0x600 + id) && decide (x.phase ≠ .running) && decide (x.dl < t)) with
      | some x => d.endLate t x
      | none => d

/-- PROBLEM_DEADLINE (R230). -/
def execProblemDeadline (t : Nat) (id : Fin 256) (pos : RunPos) (s : State) : Host.Outcome State Fault Refusal :=
  s.act (fun d => ((d.advance t).cancelsBefore t).problemDeadline t id.val pos)

/-- The lane test ends (R234): it runs on lanes of the pool and on idle spares, in idle time; a failure counts an event. -/
def Dev.laneTest (d : Dev) (t lane : Nat) (pass : Bool) : Dev :=
  let idle := (look d.solver.lanes lane).running.isNone && d.laneOn lane && !d.isRetired 3 lane && !d.isArbiter
    && decide (d.power.mode ≠ .dormant) && decide (d.power.mode ≠ .boot)
  if pass ∨ !idle then d else d.laneEvent t lane

/-- LANE_TEST (R234). -/
def execLaneTest (t : Nat) (lane : Fin 36) (pass : Bool) (s : State) : Host.Outcome State Fault Refusal :=
  s.act (fun d => (d.advance t).laneTest t lane.val pass)

/-! ### Dispatch cycles (R337, R339) -/

/-- Steps 4 to 7 of a dispatch cycle (R337), unless the unit holds it (R345); the runs that it starts capture their inputs. What
waited for a task that ends in step 5, 6 or 7 becomes ready in the next cycle. -/
def Dev.dispatchCycle (d : Dev) (t : Nat) : Dev :=
  if d.power.mode = .dormant ∨ d.power.mode = .boot ∨ d.cycleHeld then d
  else
    let d1 := (d.evalReady t).cancelsBefore (t + 1)
    let d2 := (d1.expired t).foldl (fun d x => d.endLate t x) d1
    (d2.dispatchAll t).captureRuns t

/-- TASK_DISPATCH (R339). -/
def execTaskDispatch (t : Nat) (s : State) : Host.Outcome State Fault Refusal :=
  s.act (fun d => ((d.advance t).cancelsBefore t).dispatchCycle t)

/-- TASK_DEADLINE (R337): the same cycle; released tasks whose deadline has passed end unstarted. -/
def execTaskDeadline (t : Nat) (s : State) : Host.Outcome State Fault Refusal :=
  s.act (fun d =>
    let d0 := (d.advance t).cancelsBefore t
    if d0.power.mode = .dormant ∨ d0.power.mode = .boot ∨ d0.cycleHeld then d0
    else (d0.expired t).foldl (fun d x => d.endLate t x) d0)

end Sys2Proof.Machine
end

