-- ==== Sys2Proof/Machine/TaskEnd.lean ====
section
/-! DEFINITION. A task completes (R337): what its work leaves, by engine: the runs of the signal cores and of user kernels, and
the engines' and the firmware's work of a period. -/

namespace Sys2Proof.Machine

/-! ### Signal cores (R310 to R327) -/

/-- The task of a core has run for so many cycles in all, up to an instant: what it has not run yet runs from local memory (R307,
R321), and every result lands where no fault ends it. -/
def Dev.taskRun (d : Dev) (t : Nat) (task : Task) (cycles : Nat) : Dev × CoreEnd :=
  let n := cycles - task.ran
  let r := SignalRun.run (kernelOf task.entry).isSome t n (d.coreRun task.unit)
  let q := if r.2 = .illegal ∨ r.2 = .access then r.1 else r.1.drain
  ((d.putRun task.unit q).chargeCore task.unit n, r.2)

/-- The run of a user kernel (R325, R326), within its budget, counted; and how it offends. -/
def Dev.userRun (d : Dev) (t : Nat) (task : Task) (slot : Nat) (c : LoadKernel) (x : TaskIn) : Dev × Option KernelFault :=
  let n := min x.cycles c.budget.toNat
  let r := d.taskRun t task n
  (r.1.onSig (fun s => { s with kernels := upd s.kernels slot (fun y => { y with
      runs := y.runs + 1, last := BitVec.ofNat 32 n, largest := BitVec.ofNat 32 (max y.largest.toNat n), running := false }) }),
    if r.2 = .illegal then some .illegal else if r.2 = .access then some .access
    else if c.budget.toNat < x.cycles then some .budget else none)

/-- TRACK_SMOOTH (R322): position and velocity of the objects bound to hints, smoothed; what smoothing gives is free. -/
def Dev.smoothHints (d : Dev) : Dev :=
  let f := d.fresh
  let word := fun (i : Nat) => (Config.freeWord (f + i) 32).toInt
  let smooth := fun (m : Tab Obj) (o : Nat) =>
    let h := memRead d.host.hints (64 * o) 64
    let r := parseObject (h.take 48) (rd 64 h 48).toNat
    let three := fun (i : Nat) => [word (9 * o + i), word (9 * o + i + 1), word (9 * o + i + 2)]
    let r' : ObjRec := { r with p0 := three 0, p1 := three 3, v := three 6 }
    if (d.objSource o).source = 2 then upd m o (fun x => { x with recs := [r'] }) else m
  (d.onSep (fun s => { s with objs := (List.range 256).foldl smooth s.objs })).draw 2304

/-- What a vendor kernel delivers: the deck state at B_k, the update by a sample, the predictor's value and model, and the smoothed
hints. What SD_POST and the Viterbi kernels deliver stands where it is used (R186, R316). -/
def Dev.vendorWork (d : Dev) (t e : Nat) : Dev :=
  match e with
  | 0 => d.deckEstimate t
  | 1 => d.fuseSample 0
  | 2 => d.fuseSample 1
  | 3 => d.predictValue
  | 4 => d.predictFit
  | 6 => d.smoothHints
  | _ => d

/-- A task of a signal core completes; a known-answer kernel that fails counts an event on its core (R503). On a core that has been
retired nothing runs (R324). -/
def Dev.coreTaskEnd (d : Dev) (t : Nat) (task : Task) (x : TaskIn) : Dev :=
  if d.isRetired 5 task.unit then (d.freeUnit task).completeTask t task
  else match kernelOf task.entry with
  | some slot =>
    match (look d.sig.kernels slot).cfg with
    | none => d.completeTask t task
    | some c =>
      let r := d.userRun t task slot c x
      match r.2 with
      | some .illegal => (r.1.kernelFault t slot 1).interruptCore t task.unit true
      | some f => r.1.kernelFault t slot (kernelFaultCode f)
      | none => r.1.completeTask t task
  | none =>
    let r := d.taskRun t task x.cycles
    if r.2 = .illegal then (r.1.coreFault t task.unit false).interruptCore t task.unit false
    else if (d.entry task.entry).work = workCores then
      (if x.passed then r.1 else r.1.faultEvent 5 task.unit t).completeTask t task
    else (r.1.vendorWork t task.entry).completeTask t task

/-! ### The engines and the firmware -/

/-- Results that come after the deadline of their task are not staged (R24). -/
def Dev.dropStaged (d : Dev) (work : Nat) : Dev :=
  if work = workInterp then { d with joints := mapTab (fun _ j => { j with staged := none }) d.joints }
  else if work = workLaws then d.onLoop (fun l => { l with joints := mapTab (fun _ s => { s with staged := none }) l.joints })
  else if work = workSup then { d with mults := mapTab (fun _ m => { m with target := none }) d.mults }
  else d

/-- Channel S renews the permit once in every period in which it permits torque (R461). -/
def Dev.renewPermit (d : Dev) : Dev :=
  if d.power.mode.torque ∧ d.safety.stoB then d.onSafety (fun s => { s with permit := some d.bNext2 }) else d

/-- The supervisor's work of a period: velocity words, the deck's scalings, and the permit (R149, R294, R461). -/
def Dev.supWork (d : Dev) : Dev := (d.velocityWords.deckScales).renewPermit

/-- The work of an engine's or the firmware's own entry; a pipeline test that fails counts an event on its pipeline (R503). -/
def Dev.ownWork (d : Dev) (t e : Nat) (x : TaskIn) : Dev :=
  let work := (d.entry e).work
  if work = workInterp then d.interpolate t
  else if work = workLaws then d.evalLaws t
  else if work = workSup then d.supWork
  else if work = workMirror then d.sendRecord
  else if work = workPipes ∧ !x.passed then d.faultEvent 4 (e - 0x744) t
  else d

/-- A task completes: its engine's work first, then the completion (R337). -/
def Dev.taskEnd (d : Dev) (t e : Nat) (x : TaskIn) : Dev :=
  match d.taskRunning e with
  | none => d
  | some task =>
    let en := d.entry e
    match problemOf e with
    | some _ => d.runEnd t task.unit []
    | none =>
      if en.engine = .sig then d.coreTaskEnd t task x
      else
        let d1 := d.ownWork t e x
        let d2 := if task.dl < t then d1.dropStaged en.work else d1
        d2.completeTask t task

/-- TASK_COMPLETE (R337). -/
def execTaskComplete (t : Nat) (e : Fin 2048) (x : TaskIn) (s : State) : Host.Outcome State Fault Refusal :=
  s.act (fun d => ((d.advance t).cancelsBefore t).taskEnd t e.val x)

end Sys2Proof.Machine
end

