-- ==== Sys2Proof/Machine/Reset.lean ====
section
/-! DEFINITION. Reset and boot (spec/04_reset_boot_fuses.md, R69 to R77, R85; spec/22_faults_retirement_journal.md, R500 to
R502): what each reset cause does, the steps of the boot ROM and the firmware's start, host boot, and the wake from
DORMANT (spec/03_power_clocks_modes.md, R63, R64). -/

namespace Sys2Proof.Machine

/-! ### What a reset leaves (R70) -/

/-- The time base over a reset (R10, R13, R26): it keeps counting, and AON's sources keep their sequences but at power-on. -/
def Time.afterReset (x : Time) (keepAon : Bool) : Time :=
  let keep := fun (k : Nat) => keepAon && (decide (k / 64 = 0) || decide (k / 64 = 9))
  { x with pending := [], policyForce := .mechanism, seqs := x.seqs.filter (fun e => keep e.1),
           lastItem := x.lastItem.filter (fun e => keep e.1) }

/-- The sequencer, joints, multipliers and loop slots over a reset: their configuration is kept, their state is that of
reset (R131, R151, R171, R177). -/
def Dev.resetMotion (d : Dev) : Dev :=
  { d with
    arms := mapTab (fun _ a => { cfg := a.cfg }) d.arms
    joints := mapTab (fun _ j => { vmax := j.vmax, amax := j.amax, pmin := j.pmin, pmax := j.pmax }) d.joints
    mults := mapTab (fun _ m => { step := m.step, chop := m.chop }) d.mults
    chops := mapTab (fun _ c => { latched := c.latched }) d.chops
    loop := {
      joints := mapTab (fun _ s => { cfg := s.cfg, cfgStamp := s.cfgStamp }) d.loop.joints
      arms := mapTab (fun _ s => { cfg := s.cfg, cfgStamp := s.cfgStamp }) d.loop.arms
      currents := mapTab (fun _ s => { cfg := s.cfg, cfgStamp := s.cfgStamp }) d.loop.currents
      bankA := d.loop.bankA, bankB := d.loop.bankB }
    tuning := { bounds := d.tuning.bounds }
    solver := { problems := mapTab (fun _ p => p.map (fun q => { desc := q.desc })) d.solver.problems }
    kin := [] }

/-- The separation engine, deck motion, signal cores, dispatch unit and skimmer over a reset. -/
def Dev.resetWork (d : Dev) : Dev :=
  let k := d.deck
  { d with
    sep := { planners := d.sep.planners, hints := d.sep.hints }
    deck := { ports := k.ports.map (fun p => { cfg := p.cfg }), cfg := k.cfg, vessel := k.vessel, limits := k.limits,
              loadDef := k.loadDef, ballast := k.ballast, bounds := k.bounds }
    sig := { kernels := mapTab (fun _ x => { cfg := x.cfg, image := x.image }) d.sig.kernels, vendor := d.sig.vendor,
             decoder := d.sig.decoder }
    disp := {}
    skim := { chans := mapTab (fun _ c => { cfg := c.cfg }) d.skim.chans, cap := d.skim.cap, trig := d.skim.trig,
              pulled := d.skim.pulled } }

/-- The PWM groups, brakes, bus and pair over a reset; AON keeps the brake feedback and, where it keeps its state, the trip
latches with their pulses on TRIP_N (R70, R381, R383). -/
def Dev.resetOutputs (d : Dev) (keepAon : Bool) : Dev :=
  { d with
    pwm := {
      groups := mapTab (fun _ g => if keepAon then { cfg := g.cfg, trip := g.trip, tripAt := g.tripAt, tripUntil := g.tripUntil }
        else { cfg := g.cfg }) d.pwm.groups
      brakes := mapTab (fun _ b => { cfg := b.cfg, since := b.since, cmdAt := b.cmdAt, fb := b.fb, fbAt := b.fbAt })
        d.pwm.brakes }
    bus := {
      chans := mapTab (fun _ c => { mode := c.mode, phyAddr := c.phyAddr }) d.bus.chans
      sets := d.bus.sets.map (fun s =>
        let r := s.revert
        { cfg := r.cfg, entries := r.entries, dProp := r.dProp, loaded := r.loaded, invalid := r.invalid })
      profiles := d.bus.profiles }
    pair := { cell := d.pair.cell, arb := d.pair.arb, cfg := d.pair.cfg, dissolved := d.pair.dissolved,
              cells := mapTab (fun _ c => { cfg := c.cfg }) d.pair.cells } }

/-- The trigger latches of the safety island over a reset that keeps AON (R70, R467): CLOCK clears there (R56), every other by its
own condition. -/
def Safety.keptLatches (s base : Safety) : Safety :=
  { base with
    pairs := s.pairs, latched := setBit s.latched 0x09 false, latchedAt := s.latchedAt, latchedArg := s.latchedArg,
    faultChans := s.faultChans, connTrig := s.connTrig, brakeRel := s.brakeRel, brakeRelOnly := s.brakeRelOnly }

/-- The safety island, the fault channels and the journal over a reset: the committed set with its copies, the accepted
levels, the retirements with those that are due, and the ring are kept (R487, R499); so are the trigger latches and the state of
the SIN pairs where AON keeps its state (R70, R462, R467). -/
def Dev.resetLasting (d : Dev) (keepAon : Bool) : Dev :=
  let s := d.safety
  let base : Safety := {
    candidate := s.committed, committed := s.committed, valid := s.valid, index := s.index, code := s.code,
    copyA := s.copyA, copyB := s.copyB, sealPins := s.sealPins, sin := s.sin, stoAAt := s.stoAAt,
    stoBAt := s.stoBAt, stoFbA := s.stoFbA, stoFbB := s.stoFbB, fbSince := s.fbSince, edmIn := s.edmIn,
    lastPass := s.lastPass, needTest := s.needTest, needNode := s.needNode }
  { d with
    safety := if keepAon then s.keptLatches base else base
    faults := { d.faults with
      chans := mapTab (fun _ c => { retired := c.retired, due := c.due, partner := c.partner, changed := c.changed })
        d.faults.chans
      missed := none
      journal := { d.faults.journal with queue := [], lost := 0, lostNow := 0, lostAt := 0, freeAt := 0 } } }

/-- The consecutive resets of causes 0x4 and 0x5, the last three (R71): the other causes leave them, but RST_N, PWRGOOD and
power-on clear them. -/
def Boot.historyAfter (b : Boot) (t : Nat) (cause : BitVec 8) : List Nat :=
  if cause = 4 ∨ cause = 5 then (b.history ++ [t]).drop ((b.history ++ [t]).length - 3)
  else if cause = 6 ∨ cause = 7 then b.history
  else []

/-- The state of a reset (R70): the host watchdog's period and action go with the host interface (DESIGN CHOICE, log entry
141); STO low and the brakes applied first, then every unit; the fuse array and the data of the
journal stay as they are. The slots that were granted revert, each with a record (R431). `keepAon` says whether AON keeps its
state: it does but at power-on. The instruction register of the test access port keeps its code through a reset that keeps AON;
power-on, and PWRGOOD low for a boundary-scan instruction, leave BYPASS (DESIGN CHOICE, log entry 175). -/
def Dev.resetBase (d : Dev) (t : Nat) (cause : BitVec 8) (keepAon : Bool) : Dev :=
  let d1 := (d.setSto t false false).applyBrakes t true
  let d2 := ((d1.resetMotion.resetWork).resetOutputs keepAon).resetLasting keepAon
  let scan := decide (d2.boot.tapIr = 0) || decide (d2.boot.tapIr = 2)
  let d3 : Dev := { d2 with
    time := d2.time.afterReset keepAon
    power := { offMask := d2.power.offMask, wake := d2.power.wake }
    boot := { cause := cause, straps := d2.boot.straps, role := d2.boot.role,
              history := d2.boot.historyAfter t cause
              tapIr := if !keepAon || (cause == 2 && scan) then 0b11111 else d2.boot.tapIr, retImage := [], retConfig := [],
              rstLow := d2.boot.rstLow || decide (cause = 3), pwrLow := d2.boot.pwrLow || decide (cause = 2) }
    host := {}
    waiting := [] }
  d3.journalReverts t d.bus.sets

/-- The state of a reset of a cause of R70. -/
def Dev.resetState (d : Dev) (t : Nat) (cause : BitVec 8) : Dev := d.resetBase t cause (decide (cause ≠ 1))

/-- A reset of causes 0x2 to 0x7: AON writes the final record with the levels as the cause found them (R502). -/
def Dev.reset (d : Dev) (t : Nat) (cause : BitVec 8) : Dev := (d.finalRecord t cause).resetState t cause

/-! ### Images (R75, R76) -/

/-- Check 1: magic, header version and reserved fields. -/
def imageFormatOk (img : List Byte) : Bool :=
  rd 32 img 0 == 0x5A485633 && rd 16 img 4 == 1 && rd 16 img 6 == 0
    && (List.range 38).all (fun i => img.getD (0x1A + i) 0 == 0)
    && decide (1 ≤ (rd 8 img 0x19).toNat) && decide ((rd 8 img 0x19).toNat ≤ 8)
    && (sections img).all (fun s => decide (s.2.1 = 0))

/-- Check 2: the length, and sections inside it, apart from each other, and inside the brine store at their targets. -/
def imageLengthOk (img : List Byte) : Bool :=
  let n := (rd 32 img 0x10).toNat
  let l := sections img
  decide (0x200 ≤ n) && decide (n ≤ 0x600000)
    && l.all (fun (y, _, o, z, g) => decide (1 ≤ y) && decide (y ≤ 4) && decide (0x100 ≤ o) && decide (o + z ≤ n)
      && decide (g + z ≤ 0x1000000))
    && (List.range l.length).all (fun i => (List.range i).all (fun j =>
      let a := sectionAt img i
      let b := sectionAt img j
      decide (a.2.2.1 + a.2.2.2.1 ≤ b.2.2.1) || decide (b.2.2.1 + b.2.2.2.1 ≤ a.2.2.1)))

/-- The hash of a key slot as sensed. -/
def Dev.keyHash (d : Dev) (slot : Nat) : BitVec 256 := BitVec.ofNat 256 (d.fuseField (96 + 256 * slot) 256)

/-- The digest of an image: bytes 0 to length - 1. -/
def imageDigest (img : List Byte) : BitVec 256 := Config.sha256 (img.take (rd 32 img 0x10).toNat)

/-- The checks of R76 in their order; 0 for an image that passes them all. -/
def Dev.imageCheck (d : Dev) (img : List Byte) : BitVec 8 :=
  let slot := (rd 8 img 0x18).toNat
  let n := (rd 32 img 0x10).toNat
  let v := (rd 32 img 0x0C).toNat
  let key := (img.drop 0x40).take 64
  if !imageFormatOk img then 1
  else if !imageLengthOk img then 2
  else if 2 ≤ slot ∨ d.keyHash slot = 0 ∨ d.fuse (608 + slot) then 3
  else if Config.sha256 key ≠ d.keyHash slot then 4
  else if !Config.ecdsaOk key ((img.drop n).take 64) (imageDigest img) then 5
  else if v < d.rollback ∨ 64 < v then 6
  else if rd 8 img 8 ≠ 3 then 7
  else 0

/-- The sections of an image written to their targets in the brine store (R75). -/
def HostIf.loadSections (h : HostIf) (img : List Byte) : HostIf :=
  (sections img).foldl (fun h s => h.writeBrine s.2.2.2.2 ((img.drop s.2.2.1).take s.2.2.2.1)) h

/-- What is kept of an image that runs. -/
def imageOf (source : BitVec 8) (img : List Byte) : Image :=
  { source := source, major := rd 8 img 8, minor := rd 8 img 9, patch := rd 16 img 10, secver := rd 32 img 12,
    digest := imageDigest img }

/-- Slot 1 goes first: its security version is higher, or that is equal and its release is (R73). -/
def secondFirst (a b : List Byte) : Bool :=
  let rel := fun (i : List Byte) => (rd 8 i 8).toNat * 2 ^ 24 + (rd 8 i 9).toNat * 2 ^ 16 + (rd 16 i 10).toNat
  let va := (rd 32 a 12).toNat
  let vb := (rd 32 b 12).toNat
  decide (va < vb) || (decide (va = vb) && decide (rel a < rel b))

/-! ### The steps of the boot (R72) -/

/-- Boot stops at a step (R72): FAULT_N stays asserted and every pin keeps its reset state. -/
def Dev.stopBoot (d : Dev) (step : BitVec 4) : Dev :=
  d.onBoot (fun b => { b with step := step, stopped := true, hostBoot := false })

/-- The majority of three copies of a row (R78). -/
def majority (a b c : BitVec 64) : BitVec 64 := (a &&& b) ||| (a &&& c) ||| (b &&& c)

/-- Step 1: the array is sensed, the ROLLBACK row by the majority of its copies (R78, R81). -/
def Dev.senseFuses (d : Dev) (b : BootIn) : Dev :=
  let f := d.fuses
  let r := f.rows.getD 10 0
  let d1 := d.onFuses (fun f => { f with sensed := f.rows.set 10 (majority r f.shadow0 f.shadow1) })
  d1.onBoot (fun x => { x with
    corrected := b.fuseSingle &&& ~~~b.fuseDouble &&& ~~~0x400
    disagree := (r ^^^ f.shadow0) ||| (r ^^^ f.shadow1) })

/-- The sensed ones of the ROLLBACK row are contiguous from bit 0 (R79). -/
def rollbackOk (r : BitVec 64) : Bool := r &&& (r + 1) == 0

/-- Step 2: the straps, the role lock and the lockout of R71 (R44, R80). -/
def Dev.strapsOk (d : Dev) : Bool :=
  let s := d.boot.straps.toNat
  let lockout := match d.boot.history with
    | [a, _, c] => decide (c - a ≤ 61440000000)
    | _ => false
  decide (s % 4 ≠ 3) && decide (s / 4 % 4 ≠ 3) && decide (s / 16 % 4 < 2) && !lockout
    && (!d.fuse 82 || decide (s % 4 = d.fuseField 80 2))

/-- A channel that is tested at boot: neither retired in the journal nor in a domain that is off (R77). -/
def Dev.bistTests (d : Dev) (cls i : Nat) : Bool :=
  let c := d.chan (chanId cls i)
  let dom := if cls = 3 then (if i < 18 then 4 else 5) else if cls = 4 then 6 else if cls = 5 then 7 else 13
  !c.retired && c.due.isNone && !d.power.offMask.getLsbD dom

/-- The channels that the self-test finds bad, by class and index. -/
def Dev.bistBad (d : Dev) (b : BootIn) : List (Nat × Nat) :=
  let bad := fun (cls n : Nat) (f : Nat → Bool) =>
    ((List.range n).filter (fun i => f i && d.bistTests cls i)).map (fun i => (cls, i))
  bad 0x0A 1 (fun _ => b.bistFailed.getLsbD 3) ++ bad 3 36 b.lanesFailed.getLsbD ++ bad 5 4 b.coresFailed.getLsbD
    ++ bad 4 4 b.pipesFailed.getLsbD

/-- The words of the boot report: the blocks that failed, and those that were not tested at all (R529). A block of several channels
or domains counts as not tested where none of it was; block 7, of which DISP is always tested, never does (DESIGN CHOICE, log
entry 176). -/
def Dev.bistWords (d : Dev) (b : BootIn) : BitVec 16 × BitVec 16 :=
  let bad := d.bistBad b
  let has := fun (cls : Nat) => bad.any (fun e => decide (e.1 = cls))
  let none_ := fun (cls n : Nat) => (List.range n).all (fun i => !d.bistTests cls i)
  let loop := b.loopFailed && !d.power.offMask.getLsbD 3
  (BitVec.ofNat 16 (b.bistFailed.toNat % 8 + 8 * bit (has 0x0A) + 16 * bit (has 3) + 32 * bit (has 5)
      + 64 * bit (has 4 || loop || b.dispFailed)),
    BitVec.ofNat 16 (8 * bit (none_ 0x0A 1) + 16 * bit (none_ 3 36) + 32 * bit (none_ 5 4)))

/-- Where the boot ROM stops before an image is loaded, if it does: at step 1, 2, 3 or 4 of R72. -/
def Dev.romStop (d : Dev) (b : BootIn) : Option (BitVec 4) :=
  if b.fuseDouble &&& ~~~0x400 ≠ 0 ∨ !rollbackOk (d.fuses.sensed.getD 10 0) then some 1
  else if !d.strapsOk then some 2
  else if !b.xclkRuns ∨ !b.fpllLocks then some 3
  else if b.bistFailed.toNat % 8 ≠ 0 ∨ b.dispFailed then some 4
  else none

/-- The copies of the committed set are checked at boot (R487): a bad one is rewritten from the other, and with both bad
there is no valid set. -/
def Dev.checkCopies (d : Dev) (t : Nat) (badA badB : Bool) : Dev :=
  let a := if badA then none else d.safety.copyA
  let b := if badB then none else d.safety.copyB
  let load := fun (c : SetCopy) (s : Safety) => { s with
    committed := c.items, candidate := c.items, valid := true, index := c.index, code := c.code, copyA := some c,
    copyB := some c }
  match a, b with
  | some c, some _ => (d.onSafety (load c)).copyToIsland
  | some c, none => ((d.onSafety (load c)).notice 9 0 t 0x0E08 0 true).copyToIsland
  | none, some c => ((d.onSafety (load c)).notice 9 0 t 0x0E08 0 true).copyToIsland
  | none, none =>
    if d.isArbiter then d
    else d.onSafety (fun s => { s with committed := [], candidate := [], valid := false, copyA := none, copyB := none })

/-- Step 8, after the notices of the first mode, which carry an earlier stamp (R107): the retirements that a reset found due take
their remaining actions, and those of the self-test follow, all
with the stamp of the first boundary after boot (R77, R497). -/
def Dev.bootRetire (d : Dev) (b : Nat) (bad : List (Nat × Nat)) : Dev :=
  let due := (d.faults.chans.filter (fun e => e.2.due.isSome)).map (fun e => BitVec.ofNat 16 e.1)
  let d1 := due.foldl (fun d id => d.retire b id) d
  bad.foldl (fun d e => d.retire b (chanId e.1 e.2)) d1

/-- Step 8: the models and problems of the image's parameters are read for what is configured (R222, R242). -/
def Dev.bootModels (d : Dev) (b : BootIn) : Dev :=
  let d1 := d.onBoot (fun x => { x with models := b.models, problems := b.problems })
  let d2 := d1.armList.foldl (fun d a =>
    match (look d.arms a).cfg with
    | some c => if d.modelFits a c.joints.toNat then d.readModel a else d.dropModel a
    | none => d) d1
  (d2.solver.problems.filter (fun e => decide (32 ≤ e.1) && decide (e.1 ≤ 96))).foldl (fun d e => d.makeProblem e.1) d2

/-- The domains come up: all but those that are switched off, and MEMB unless it is retired (R50). -/
def Dev.bootDomains (d : Dev) : Dev :=
  let mask := d.offMaskOf d.power.offMask
  d.onPower (fun p => { p with offMask := mask, domains := (List.range 14).map (fun i =>
    if mask.getLsbD i ∨ (i = 13 ∧ d.isRetired 0x0A 0) then .off else .running) })

/-- The bus channel sets start in LISTEN (R432, R426). -/
def Dev.bootBus (d : Dev) (t : Nat) : Dev :=
  d.onBus (fun b => { b with sets := b.sets.mapIdx (fun i s =>
    if s.invalid ∨ [2 * i, 2 * i + 1].all (fun c => (look b.chans c).mode = .off || d.isRetired 1 c) then s
    else s.enter t .listen) })

/-- Step 9: the first mode of R85, with its triggers latched: INIT and BIST before NO_SET and BOOT. -/
def Dev.firstMode (d : Dev) (t : Nat) (b : BootIn) : Dev :=
  let loopBad := b.loopFailed && !d.power.offMask.getLsbD 3
  let d1 := if !b.initOk then d.raise t 0x03 0 false else d
  let d2 := if loopBad then d1.raise t 0x04 0 false else d1
  if d.isArbiter ∧ b.initOk ∧ !loopBad then d2.enterMode t t .ready 0 false
  else if d.isArbiter then d2.enterMode t t .safeOff (if !b.initOk then 0x03 else 0x04) false
  else
    let last : BitVec 8 := if d.safety.valid then 0x01 else 0x02
    let d3 := d2.raise t last 0 false
    d3.enterMode t t .safeOff (if !b.initOk then 0x03 else if loopBad then 0x04 else last) false

/-- Steps 7 to 9: the firmware starts, initialises and enters the first mode at an instant; where it does not start, the AON
watchdog resets the device. -/
def Dev.startFirmware (d : Dev) (t : Nat) (b : BootIn) : Dev :=
  let d0 := d.advance t
  if !b.fwStarts then d0.reset t 5
  else
    let bad := d0.bistBad b
    let d1 := d0.onTime (fun x => { x with k := (t - x.ct0) / x.tc })
    let d2 := d1.onBoot (fun x => { x with
      fwRun := true, step := 0, fail := x.fail, hostBoot := false, initBad := !b.initOk, retained := x.image.digest,
      duration := t - x.released, bootIn := default })
    let d3 := ((d2.bootDomains).reloadCores).checkCopies t b.copyBadA b.copyBadB
    let d4 := (d3.bootModels b).startConns t
    let d5 := (((d4.bootBus t).firstMode t b).evalDemands t).sweep t
    d5.bootRetire (d2.boundaryAfter t) bad

/-- An image is tried (R76): the attempt is recorded, and one that passes is the running image, kept for R63, with its sections
at their targets. -/
def Dev.tryImage (d : Dev) (source : BitVec 8) (img : List Byte) : Dev × Bool :=
  let code := d.imageCheck img
  let d1 := d.onBoot (fun b => { b with
      attempts := (b.attempts ++ [(source, code)]).take 3
      fail := if code = 0 then b.fail else code
      image := if code = 0 then imageOf source img else b.image
      retImage := if code = 0 then img.take (rd 32 img 0x10).toNat else b.retImage })
  (if code = 0 then d1.onHost (fun h => h.loadSections img) else d1, decide (code = 0))

/-- The step at which an image fails: 5 for the checks of the header, 6 for the others. -/
def failStep (code : BitVec 8) : BitVec 4 := if code = 1 ∨ code = 2 then 5 else 6

/-- The boot ROM waits for the host's image (R74): the supervisor, the host link and the brine store run. -/
def Dev.awaitHost (d : Dev) (b : BootIn) : Dev :=
  (d.onBoot (fun x => { x with step := 5, hostBoot := true, bootIn := b })).onPower (fun p => { p with
    domains := [1, 10, 12, 13].foldl (fun l i => l.set i .running) p.domains })

/-- Steps 5 and 6 (R73, R74): the slots of the flash in their order, then the host where the straps and the fuses let it. -/
def Dev.loadImage (d : Dev) (t : Nat) (b : BootIn) : Dev :=
  let sel := d.boot.straps.toNat / 4 % 4
  let noHost := d.fuse 810
  if sel = 1 then (if noHost then d.stopBoot 5 else d.awaitHost b)
  else
    let swap := secondFirst b.slot0 b.slot1
    let (s1, i1, s2, i2) : BitVec 8 × List Byte × BitVec 8 × List Byte :=
      if swap then (1, b.slot1, 0, b.slot0) else (0, b.slot0, 1, b.slot1)
    let (d1, ok1) := d.tryImage s1 i1
    if ok1 then d1.startFirmware (t + b.durationCt) b
    else
      let (d2, ok2) := d1.tryImage s2 i2
      if ok2 then d2.startFirmware (t + b.durationCt) b
      else if sel = 2 ∧ !noHost then d2.awaitHost b
      else d2.stopBoot (failStep d2.boot.fail)

/-- The boot from the release of reset at an instant (R72). -/
def Dev.bootRom (d : Dev) (t : Nat) (b : BootIn) : Dev :=
  let d1 := (d.onBoot (fun x => { x with released := t, duration := 0, fail := 0, attempts := [], image := {} })).senseFuses b
  match d1.romStop b with
  | some 4 => (d1.onBoot (fun x => { x with bistFailed := (d1.bistWords b).1, bistSkip := (d1.bistWords b).2 })).stopBoot 4
  | some st => d1.stopBoot st
  | none =>
    let d2 := d1.onBoot (fun x => { x with
      role := (x.straps &&& 3).setWidth 2, bistFailed := (d1.bistWords b).1, bistSkip := (d1.bistWords b).2 })
    d2.loadImage t b

/-- Reset is released (R42, R56, R72): the straps are sampled after causes 0x1 to 0x3, CT is valid where XCLK runs (after
power-on nothing else makes it valid), a boundary-scan instruction ends with RST_N (R82), and the boot ROM runs. Without effect while a boot has stopped, waits for the host, or has ended. -/
def Dev.release (d : Dev) (t : Nat) (b : BootIn) : Dev :=
  if d.power.mode ≠ .boot ∨ d.boot.stopped ∨ d.boot.hostBoot ∨ d.boot.step ≠ 1 then d
  else
    let d1 := d.advance t
    let d2 := d1.onTime (fun x => { x with valid := (x.valid && decide (d.boot.cause ≠ 1)) || b.xclkRuns })
    let d3 := d2.onBoot (fun x => { x with
      straps := if x.cause = 1 ∨ x.cause = 2 ∨ x.cause = 3 then b.straps else x.straps
      rstLow := false, pwrLow := false, tapIr := if x.tapIr = 0 ∨ x.tapIr = 2 then 0b11111 else x.tapIr })
    d3.bootRom t b

/-! ### Commands and events -/

/-- BOOT_IMAGE (R74, R86): the boot ROM verifies the image that the host wrote into space 0x0; a failing check leaves it
waiting. A length outside the header's range is LENGTH, below it as above it (DESIGN CHOICE, log entry 136). -/
def semBootImage (h : Hdr) (p : BootImage) : Sem where
  op := 0x0118
  lenOk := h.length = 4
  modes := []
  cond := fun _ => firstFail [(decide (0x200 ≤ p.length.toNat) && decide (p.length.toNat ≤ 0x600000), .length)]
  eff := fun d =>
    let img := memRead d.host.memA 0 (p.length.toNat + 64)
    let (d1, ok) := if rd 32 img 0x10 = p.length then d.tryImage 2 img
      else (d.onBoot (fun b => { b with attempts := (b.attempts ++ [(2, 2)]).take 3, fail := 2 }), false)
    if ok then
      let b := d1.boot.bootIn
      ((d1.reply h 0x0118 .ok []).startFirmware (h.stamp + b.durationCt) b, none)
    else (d1, some (.check, []))

def execBootImage (h : Hdr) (p : BootImage) (s : State) : Host.Outcome State Fault Refusal :=
  s.act (runCmd (semBootImage h p) h)

/-- A pulse that the input filter passes (R42): none under 100 ns, every one of 1 µs, and between them it is open. -/
def Dev.longEnough (d : Dev) (ns : Nat) : Bool :=
  decide (1000 ≤ ns) || (decide (100 ≤ ns) && Config.freeBool d.fresh)

/-- RST_N_LOW (R58, R70). -/
def execRstNLow (t lowNs : Nat) (s : State) : Host.Outcome State Fault Refusal :=
  s.act (fun d =>
    if d.boot.rstLow ∨ !d.longEnough lowNs then (d.advance t).draw 1 else ((d.advance t).draw 1).reset t 3)

/-- BOOT (R72). -/
def execBoot (t : Nat) (b : BootIn) (s : State) : Host.Outcome State Fault Refusal := s.act (fun d => d.release t b)

/-- PWRGOOD_LOW (R58, R70). -/
def execPwrgoodLow (t lowNs : Nat) (s : State) : Host.Outcome State Fault Refusal :=
  s.act (fun d =>
    if d.boot.pwrLow ∨ !d.longEnough lowNs then (d.advance t).draw 1 else ((d.advance t).draw 1).reset t 2)

/-- CT at power-on (R10): that of the newest journal record, rounded up to a multiple of 2^30; 0 without one. -/
def Journal.powerOnCt (j : Journal) : Nat :=
  match j.newest with
  | some u => (leNat ((look j.ring u).take 8) + 2 ^ 30 - 1) / 2 ^ 30 * 2 ^ 30
  | none => 0

/-- POWER_ON (R10, R13, R70): AON has lost its state, and the rate word is nominal. -/
def execPowerOn (s : State) : Host.Outcome State Fault Refusal :=
  s.act (fun d =>
    let ct := d.faults.journal.powerOnCt
    let d1 := d.resetState ct 1
    let d2 := d1.onTime (fun x => { x with
      ct := ct, frac := 0, rate := 175921860444, rho := 0, rOff := 0, valid := true, ct0 := min x.ct0 ct, k := 0 })
    let d3 := d2.onTime (fun x => { x with k := (ct - x.ct0) / x.tc })
    let d4 := d3.onSafety (fun x => { x with sealPins := 0, sin := 0, stoFbA := false, stoFbB := false, fbSince := 0, edmIn := 0 })
    { d4 with boot := { d4.boot with rstLow := true, pwrLow := false, role := 0, straps := 0 } })

/-- VDD_CORE_LOSS (R58, R70): reset as by PWRGOOD. -/
def execVddCoreLoss (t : Nat) (s : State) : Host.Outcome State Fault Refusal :=
  s.act (fun d => (d.advance t).reset t 2)

/-- VDD_AON_FALL (R502): AON writes the final record; the cause that the next boot reports is power-on. -/
def execVddAonFall (t : Nat) (s : State) : Host.Outcome State Fault Refusal :=
  s.act (fun d => (d.advance t).finalRecord t 1)

/-- The supervisor runs: the firmware, or the boot ROM in a host boot. -/
def Dev.supRuns (d : Dev) : Bool := (d.boot.fwRun && decide (d.power.mode ≠ .dormant)) || d.boot.hostBoot

/-- LOCKSTEP_MISMATCH (R70). -/
def execLockstepMismatch (t : Nat) (s : State) : Host.Outcome State Fault Refusal :=
  s.act (fun d => if d.supRuns then (d.advance t).reset t 4 else d.advance t)

/-- WATCHDOG_LAPSE (R501): armed while the firmware runs. STO falls, the brakes drop, the sluices close and the lease ends with
the reset of cause 0x5. -/
def execWatchdogLapse (t : Nat) (s : State) : Host.Outcome State Fault Refusal :=
  s.act (fun d => if d.boot.fwRun ∧ d.power.mode ≠ .dormant then (d.advance t).reset t 5 else d.advance t)

/-! ### The wake from DORMANT (R63, R64) -/

/-- A selected wake source is active. -/
def Dev.wakes (d : Dev) (t : Nat) (w : WakeIn) : Bool :=
  let c := d.power.wake
  (c.sources.getLsbD 0 && w.source.getLsbD 0)
    || (c.sources.getLsbD 1 && w.source.getLsbD 1 && w.gpio == c.gpio && w.edge == c.edge)
    || (c.sources.getLsbD 2 && decide (c.alarm.toNat ≤ t))

/-- The device wakes: it resumes where the resume check of the retained image and configuration passes, and boots in full where they are
not, without a RESET record. What AON recorded of the safety inputs is evaluated (R64, R491). -/
def Dev.wake (d : Dev) (t : Nat) (w : WakeIn) : Dev :=
  let d0 := d.advance t
  if d0.power.mode ≠ .dormant ∨ !d0.wakes t w then d0
  else if !d0.retainedOk w.flips then
    let d1 := d0.resetBase t d0.boot.cause true
    let d2 := d1.onBoot (fun b => { b with history := d0.boot.history, rstLow := false, pwrLow := false })
    d2.bootRom t w.boot
  else
    let bad := d0.power.dormantBad || !d0.sealOk
    let d1 := if bad then (d0.raise t 0x0F 0 false).enterMode t t .safeOff 0x0F false
      else d0.enterMode t t .ready 0 false
    let d1 := d1.bringUpLink t
    let d2 := d1.armList.foldl (fun d a => d.resetPayload a) d1
    let pairs := fun (s : Safety) => (List.range 8).foldl (fun m p =>
      if (d2.sinPair p).function = 0 then m else upd m p (fun x => x.step t (d2.sinA p) (d2.sinB p))) s.pairs
    let d3 := ((d2.onPower (fun p => { p with dormantBad := false })).onSafety (fun s => { s with pairs := pairs s })).evalDemands t
    if bad then d3.sweep t else d3

/-- WAKE_EVENT (R63, R64). -/
def execWakeEvent (t : Nat) (w : WakeIn) (s : State) : Host.Outcome State Fault Refusal := s.act (fun d => d.wake t w)

end Sys2Proof.Machine
end

