-- ==== Sys2Proof/Machine/Boundary.lean ====
section
/-! DEFINITION. The instants of a control period (spec/01_cell_time_base.md, R19 to R24): what happens at a boundary, step by
step; the mid-period instant; and the quarter points. -/

namespace Sys2Proof.Machine

/-! ### Commands that take effect at a boundary (R23) -/

/-- A waiting command takes effect at its boundary; those of the move queues have a step of their own (R120). -/
def Dev.applyWaiting (d : Dev) (b : Nat) (w : Waiting) : Dev :=
  match w.cmd with
  | .configArm _ p => d.applyConfigArm p
  | .setJointLimits _ p => d.applyJointLimits p
  | .configStep _ p => d.applyConfigStep p
  | .configChopper _ p => d.applyConfigChopper p
  | .configJointSlot _ p => d.applyConfigJointSlot p
  | .configArmSlot _ p => d.applyConfigArmSlot p
  | .configCurrentSlot _ p => d.applyConfigCurrentSlot p
  | .setArmTarget _ p => d.applyArmTarget p
  | .setSlotMode _ p => d.applySlotMode p
  | .startInjection _ p => d.applyStart b p
  | .stopInjection _ p => d.applyStop b p
  | .defineProblem _ p => d.applyDefineProblem p
  | .removeProblem _ p => d.dropProblem p.id.toNat
  | .setProblemInput _ p => d.applyProblemInput b p
  | .setObjectSource _ p => d.bindHint p
  | .setPanPlanner _ p => d.applyPanPlanner p
  | .configMotionPort _ p => d.applyMotionPort b p
  | .configDeck _ p => d.onDeck (fun k => { k with cfg := some p })
  | .setVessel _ p => d.onDeck (fun k => { k with vessel := some p })
  | .defineLoadFrame _ p => d.applyLoadFrame p
  | .setDeckLimits _ p => d.onDeck (fun k => { k with limits := put k.limits p.arm.toNat (some p) })
  | .configBallast _ p => d.applyBallast p
  | .setBallastBounds _ p => d.onDeck (fun k => { k with bounds := some p })
  | .declareLift _ p => d.openLift b p
  | .closeLift _ p => d.closeLift p.arm.toNat
  | .sendBallastRequest _ p => d.applySendBallast b p
  | .loadKernel _ p => d.applyLoadKernel p w.block
  | .removeKernel _ p => d.applyRemoveKernel p
  | .runKernel _ p => d.fire b b (0x700 + p.slot.toNat)
  | .assignVendor _ p => d.applyAssignVendor b p
  | .setTrace _ p => d.applySetTrace p
  | .arm _ => d.applyArm
  | .configPwmGroup _ p => d.applyConfigPwm p
  | .configBrake _ p => d.applyConfigBrake p
  | .configBusChannel _ p => d.applyBusChannel b p
  | .configDriveProfile _ p => d.applyDriveProfile p
  | .loadSchedule _ p => d.applySchedule b p w.block
  | .configSync _ p => d.applySync p
  | .releaseSlot _ p => d.revertSlot b p.set.toNat p.slot.toNat
  | .configHierarchy _ p => d.applyHierarchy p
  | .configPair _ p => d.applyPair b p
  | .arbitratePair _ p => d.applyArbitrate p
  | .setFaultPolicy _ p => d.applyFaultPolicy p
  | .retireChannel _ p => d.retire b p.channel
  | .clearRetirement _ p => d.applyClearRetirement b p
  | .setDomains _ p => d.applyDomains p.offMask
  | _ => d

/-- A command that starts or stops an injection. -/
def injectionAct : Instr → Bool
  | .startInjection _ _ => true
  | .stopInjection _ _ => true
  | _ => false

/-- The commands due at a boundary, of those that `f` picks, take effect in the order in which they were accepted (R23). -/
def Dev.applyPart (d : Dev) (b : Nat) (f : Instr → Bool) : Dev :=
  let due := fun (w : Waiting) => decide (w.effB ≤ b) && f w.cmd
  (d.waiting.filter due).foldl (fun d w => d.applyWaiting b w) { d with waiting := d.waiting.filter (fun w => !due w) }

/-- The commands due at a boundary, those of the move queues and the injections apart. -/
def Dev.applyDue (d : Dev) (b : Nat) : Dev := d.applyPart b (fun c => (queueAct c).isNone && !injectionAct c)

/-- The injections due at a boundary start and stop when it is settled whether TUNE ends there (R204). -/
def Dev.applyInjections (d : Dev) (b : Nat) : Dev := d.applyPart b injectionAct

/-- The reset that a DEVICE_RESET due at a boundary causes, by its link (R86). -/
def Dev.resetDue (d : Dev) (b : Nat) : Option (BitVec 8) :=
  (d.waiting.filter (fun w => decide (w.effB ≤ b))).findSome? (fun w => match w.cmd with
    | .deviceReset h _ => some (match h.link with
      | .host => 6
      | .maint => 7)
    | _ => none)

/-! ### Step 3: what was staged takes effect (R21, R24) -/

/-- The position setpoints staged during the last period take effect. Where interpolation ran in that period, a joint
without one keeps its setpoint and is missed. -/
def Dev.jointOutputs (d : Dev) (b : Nat) : Dev :=
  let ran := d.power.mode.loops && decide ((look d.disp.table 8).lastK = some d.time.k)
  d.armList.foldl (fun d a => (look d.arms a).joints.foldl (fun d j =>
    let x := look d.joints j
    match x.staged with
    | some p => d.onJoint j (fun x => { x with out := p, outVel := x.vel, staged := none })
    | none => if ran then d.missed b 8 else d) d) d

/-- What the SETPOINT frames of the new period carry for each joint with an output (R404). -/
def Dev.fixSetpoints (d : Dev) : Dev :=
  let eff := d.loop.joints.foldl (fun m e =>
    let k := match e.2.cfg with
      | some c => c.kind.toNat
      | none => 0
    match e.2.out with
    | some u =>
      if k = 0 then m
      else
        let tau := match d.armOf e.1 with
          | some a => (look d.kin a).torque.getD (d.jointPlace a e.1) 0
          | none => 0
        put m e.1 (u, if k = 1 then (look d.joints e.1).vel else 0, if k = 3 then 0 else tau)
    | none => m) []
  d.onBus (fun x => { x with eff := eff })

/-- The outputs of a boundary, under the mode of the period that ends; the MISSED record of that period; and whether a pair
unit has staged every one of them (R24, R441). -/
def Dev.outputs (d : Dev) (b : Nat) : Dev :=
  let d1 := ((d.jointOutputs b).loopOutputs b).fixSetpoints
  let d2 := if d1.faults.missed.isNone then d1.onPair (fun p => { p with stagedOk := b }) else d1
  d2.missedRecord

/-! ### Time and modes -/

/-- SET_TIMING at its boundary (R18, R19): a new Tc makes the boundary the epoch; where it has none, the count goes on.
Descriptors whose deadline no longer fits are clamped (R223), and PWM groups are looked at again (R375). -/
def Dev.timeStep (d : Dev) (b : Nat) : Dev :=
  match (d.time.pending.filter (fun p => decide (p.effB ≤ b))).getLast? with
  | none => d.onTime (fun x => { x with k := x.k + 1 })
  | some p =>
    let d1 := d.onTime (fun x => { x with nSep := p.nSep, pending := x.pending.filter (fun q => !decide (q.effB ≤ b)) })
    if p.tc = d.time.tc then d1.onTime (fun x => { x with k := x.k + 1 })
    else
      let d2 := d1.onTime (fun x => { x with tc := p.tc, ct0 := b, k := 0 })
      let d3 := d2.onDisp (fun x => { x with table := mapTab (fun _ e => { e with lastK := none }) x.table })
      let d4 := d3.solver.problems.foldl (fun d e => d.fitDeadline b e.1) d3
      d4.recheckPwm b

/-- ALIVE toggles at every boundary while the firmware runs, and is low in DORMANT (R501). -/
def Dev.toggleAlive (d : Dev) : Dev :=
  d.onBoot (fun x => { x with alive := x.fwRun && decide (d.power.mode ≠ .dormant) && !x.alive })

/-- A commanded transition takes effect (R59, R475): SAFE-OFF by command latches COMMAND, and where torque ends STO falls and
the brakes are applied at the same boundary. -/
def Dev.takeTransition (d : Dev) (b : Nat) (x : Trans) : Dev :=
  let d1 := if x.target = .safeOff then d.raise b 0x08 0 false else d
  let d2 := if x.target.torque then d1 else d1.applyBrakes b false
  d2.enterMode b b x.target (if x.target = .safeOff then 0x08 else 0) true

/-- The commanded transitions that are due at a boundary, and SHADOW for the unit of a pair whose partner holds the lease at
formation (R59, R61). -/
def Dev.modeStep (d : Dev) (b : Nat) : Dev :=
  let due := d.power.pending.filter (fun x => decide (x.effB ≤ b))
  let d1 := d.onPower (fun p => { p with
    pending := p.pending.filter (fun x => !decide (x.effB ≤ b))
    latest := p.latest.map (fun l => if l ∈ due then { l with state := .taken } else l) })
  let d2 := due.foldl (fun d x => d.takeTransition b x) d1
  match d2.pair.shadowAt with
  | some e =>
    if b < e then d2
    else
      let d3 := d2.onPair (fun p => { p with shadowAt := none })
      if d3.power.mode = .ready then d3.eventMode b .shadow 0 else d3
  | none => d2

/-! ### The boundary -/

/-- Watched stops and standstill monitoring end with the stop: outside HOLD they stay with the arms that are stopping or
STOPPED (R471, R473). -/
def Dev.dropWatch (d : Dev) : Dev :=
  if d.power.mode = .hold then d
  else d.onSafety (fun s => { s with watch := s.watch.filter (fun e =>
    let p := (look d.arms e.1).phase
    decide (p = .stopping) || decide (p = .stopped)) })

/-- The groups that restart after a takeover (R450). -/
def Dev.restartPwm (d : Dev) : Dev :=
  let one := fun (i : Nat) (g : PwmGroup) =>
    let z : PwmGroup := { g with restartB := false, phases := g.phases.map (fun x => { x with c := 0 }) }
    if !g.restartB then g else if d.power.mode.torque then z.start (d.isRetired 6 i) else z
  d.onPwm (fun p => { p with groups := mapTab one p.groups })

/-- The signal cores count the cycles of a period (R332). -/
def Dev.shiftBusy (d : Dev) : Dev :=
  let one := fun (_ : Nat) (c : Core) =>
    { c with busy := c.busyNow, busyNow := 0, busyMax := if c.busyMax.toNat < c.busyNow.toNat then c.busyNow else c.busyMax }
  d.onSig (fun s => { s with cores := mapTab one s.cores })

/-- A control item of MEMA with a double-bit error is discarded whole (R30). A schedule is one of the bus channels of its set, which
count the event, and its set is closed; no channel of R495 owns a move queue or a problem descriptor (DEDUCED, log entry 135). -/
def Dev.memError (d : Dev) (b : Nat) (x : MemItem) : Dev :=
  match x with
  | .schedule set =>
    let i := set.val
    if !(d.busSet i).loaded then d
    else ((((d.onSet i (fun s => { s with entries := [], dProp := [], loaded := false })).enterSet b i .off).faultEvent 1 (2 * i) b)
      ).faultEvent 1 (2 * i + 1) b
  | .queue arm => { d with arms := upd d.arms arm.val (fun a => { a with queue := [] }) }
  | .problem id => if (look d.solver.problems id.val).isSome then d.dropProblem id.val else d

/-- The errors that a boundary meets, in order. -/
def Dev.memErrors (d : Dev) (b : Nat) (l : List MemItem) : Dev := l.foldl (fun d x => d.memError b x) d

/-- Step 1, the commands that are due, and what a boundary finds of itself: bank errors, the end of safe stop 1, and retirements.
The transitions that these cause come before the commanded ones (R60), whose entry actions meet what has taken effect; it is then
settled which injections start (R21, R23, R59, R61, R178, R204, R470, R498). -/
def Dev.boundaryChanges (d : Dev) (b : Nat) (bankErr : List Nat) : Dev :=
  let frm := d.power.mode
  let d1 := ((((d.finishInjections b).swapStep b).applyDue b).closeLifts b).queueChanges b
  let d2 := ((d1.bankErrors b bankErr).ss1Boundary b).retireDue b
  let d2 := (d2.modeStep b).applyInjections b
  let d2 := if d2.time.k = 0 then d2.recheckPwm b else d2
  if d2.power.mode.torque ∧ !frm.torque then d2.evalDemands b else d2

/-- Step 2, and the rest of steps 3 to 5: rates, PWM and brakes (R21). -/
def Dev.boundaryDrive (d : Dev) (b : Nat) : Dev :=
  let d1 := ((d.startMoves).evalLifts b).dropWatch
  ((((d1.rateStep b).openCarriers).latchPwm b 0).restartPwm).clearTrips b

/-- The new cycle of the buses and the safety functions at a boundary. -/
def Dev.boundaryMonitor (d : Dev) (b : Nat) (tcChanged : Bool) : Dev :=
  let d1 := ((d.busCycle b tcChanged).onPair (fun p => p.newCycle d.time.k)).rateWord true
  let d2 := ((d1.paramsExpire b).releaseBrakes b).brakeReports
  let d3 := ((d2.testBoundary b).sosBoundary b).markStill b
  (d3.checkFit b).sweep b

/-- The work of the new period is released (R268, R334), and the counts of the last one are closed. -/
def Dev.boundaryWork (d : Dev) (b : Nat) : Dev :=
  let d1 := (d.deckMissing b).startPass b
  let d2 := (d1.boundaryEntries.foldl (fun d e => d.fireBoundary e) d1).shiftBusy
  (d2.evalReady b).pressureNotices b

/-- What the memories and the die report at a boundary (R30, R93): a single-bit correction sets HEALTH.SECDED, and TEMP follows
its updates. -/
def Dev.sampleHealth (d : Dev) (x : BoundaryIn) : Dev :=
  d.onHost (fun h => { h with
    healthSticky := if x.corrected then setBit h.healthSticky 0 true else h.healthSticky
    temp := x.temp.getD h.temp })

/-- The next boundary comes. During reset and boot, and in DORMANT, the time base alone counts it. -/
def Dev.onBoundary (d : Dev) (t : Nat) (x : BoundaryIn) : Dev :=
  let b := d.bNext
  let d0 := (d.advance t).cancelsBefore t
  if t < b then d0
  else if d0.power.mode = .boot ∨ d0.power.mode = .dormant then (d0.onTime (fun x => { x with k := x.k + 1 })).toggleAlive
  else
    match d0.resetDue b with
    | some cause => (d0.onTime (fun x => { x with k := x.k + 1 })).reset b cause
    | none =>
      let d1 := ((((d0.memErrors b x.memErr).missedTriggers.endRates b x.ticks).outputs b).timeStep b).boundaryChanges b x.bankErr
      let d2 := d1.toggleAlive
      if d2.power.mode = .dormant then d2
      else
        let d3 := d2.boundaryDrive b
        ((d3.boundaryMonitor b (decide (d3.time.k = 0))).boundaryWork b).sampleHealth x

/-- BOUNDARY (R21). -/
def execBoundary (t : Nat) (x : BoundaryIn) (s : State) : Host.Outcome State Fault Refusal := s.act (fun d => d.onBoundary t x)

/-! ### Inside the period -/

/-- MID_PERIOD (R380, R422): the groups of that update mode latch, and the offset correction of the cycle ends. -/
def execMidPeriod (t : Nat) (s : State) : Host.Outcome State Fault Refusal :=
  s.act (fun d =>
    let m := d.bk + d.time.tc / 2
    if t < m then d.advance t else ((d.advance t).latchPwm m 1).rateWord false)

/-- The entries with a QUARTER source. -/
def quarterEntries : List Nat := [5, 10]

/-- A quarter point (R185, R186, R334): duties that were staged latch, the QUARTER entries fire, and the current slots sample
what SD_POST delivers, and compute. -/
def Dev.quarterPoint (d : Dev) (t m : Nat) (sd : List Int) : Dev :=
  let q := d.bk + m * (d.time.tc / 4)
  if t < q then d.advance t
  else
    let d1 := ((d.advance t).cancelsBefore t).latchPwm q 2
    let d2 := quarterEntries.foldl (fun d e => if (d.entry e).kind = .quarter then d.fire q q e else d) d1
    let l := d2.loop.filtered sd
    ((d2.draw 24).currentSlots q m (droop d2.fresh l)).onLoop (fun x => { x with sd := l, sdBad := 0 })

/-- QUARTER_POINT (R185). -/
def execQuarterPoint (t : Nat) (m : Fin 4) (x : SampleIn) (s : State) : Host.Outcome State Fault Refusal :=
  s.act (fun d => d.quarterPoint t m.val x.sd)

end Sys2Proof.Machine
end

