-- ==== Sys2Proof/Machine/HostRegs.lean ====
section
/-! DEFINITION. The host registers, the data port and its spaces, and the test access port
(spec/05_host_mailboxes_data_port.md, R82, R84). -/

namespace Sys2Proof.Machine

/-- The host registers can be reached (R74, R87): not in DORMANT, nor before the link has been brought up again after a wake or
after PERST_N. -/
def Dev.hostOpen (d : Dev) : Bool :=
  decide (d.power.mode ≠ .dormant) && (decide (d.power.mode ≠ .boot) || d.boot.hostBoot)
    && decide (d.host.linkAt ≤ d.time.ct)

/-! ### The spaces of R110 -/

/-- The bytes of a skimmer record (R358). -/
def SkimRec.bytes (r : SkimRec) : List Byte :=
  leBytes 8 r.ct ++ wordBytes r.chan ++ wordBytes r.flags ++ wordBytes r.value

/-- The bytes of a trace record (R344). -/
def TraceRec.bytes (r : TraceRec) : List Byte :=
  leBytes 8 r.ct ++ wordBytes r.seq ++ wordBytes r.entry ++ wordBytes r.kind ++ wordBytes r.engine ++ wordBytes r.inst
    ++ wordBytes r.flags

/-- The size of a space; 0 where it is reserved. -/
def spaceSize : Nat → Nat
  | 0 => 0x1000000 | 1 => 0x200000 | 2 => 0x100000 | 3 => 0x100000 | 4 => 0x100000 | 5 => 0x10000 | _ => 0

/-- The domain a byte of a space lies in. -/
def spaceDomain (space off : Nat) : Nat :=
  match space with
  | 0 => if off < 0x800000 then 12 else 13
  | 1 => 11 | 2 => 2 | 4 => 7 | 5 => 12 | _ => 0

/-- A byte of a space. The hint slots fill the first 16 KiB of space 0x5 (R265). -/
def Dev.spaceByte (d : Dev) (space off : Nat) : Byte :=
  match space with
  | 0 => if off < 0x800000 then look d.host.memA off else look d.host.memB (off - 0x800000)
  | 1 => (look d.skim.store (off / 16)).bytes.getD (off % 16) 0
  | 2 => (look d.disp.trace.store (off / 16)).bytes.getD (off % 16) 0
  | 3 => d.journalByte off
  | 4 => look (look d.sig.cores (off / 0x40000)).mem (off % 0x40000)
  | 5 => if off < 0x4000 then look d.host.hints off else 0
  | _ => 0

/-- `n` bytes of a space. -/
def Dev.spaceRead (d : Dev) (space off : Nat) : Nat → List Byte
  | 0 => []
  | n + 1 => d.spaceByte space off :: d.spaceRead space (off + 1) n

/-- Bytes written into a space where the host may write. -/
def Dev.spaceWrite (d : Dev) (space off : Nat) (data : List Byte) : Dev :=
  d.onHost (fun h =>
    if space = 0 then h.writeBrine off data
    else if space = 5 then { h with hints := memWrite h.hints off (data.take (0x4000 - off)) } else h)

/-- A part of a space is closed in this state: its domain is OFF, or a host boot opens space 0x0 alone. -/
def Dev.spaceClosed (d : Dev) (space off n : Nat) : Bool :=
  (d.boot.hostBoot && decide (space ≠ 0)) ||
    decide (d.power.domains.getD (spaceDomain space off) .off = .off) ||
    decide (d.power.domains.getD (spaceDomain space (off + n - 1)) .off = .off)

/-- The host may write a part of a space. -/
def Dev.spaceWritable (d : Dev) (space off : Nat) : Bool :=
  match space with
  | 0 => decide (0x800000 ≤ off) || d.boot.hostBoot
  | 5 => true
  | _ => false

/-! ### The data port (R96, R109) -/

/-- A data-port error: the first since the last clear is kept, and IRQ_STAT.DP_ERR says that it has come. -/
def Dev.dpFail (d : Dev) (code : BitVec 4) : Dev :=
  if d.host.dpErr = 0 then (d.onHost (fun h => { h with dpErr := code })).irq 4 else d

/-- The error of a request, in the order of R96; 0 for none. -/
def Dev.dpError (d : Dev) (off n : Nat) (sizeOk write : Bool) : BitVec 4 :=
  let sp := d.host.dpSpace.toNat
  if 6 ≤ sp then 3
  else if d.spaceClosed sp off n then 5
  else if !sizeOk then 4
  else if spaceSize sp < off + n then 1
  else if write && !d.spaceWritable sp off then 2
  else 0

/-- A request of `n` bytes at DP_ADDR, aligned down: it fails whole, or transfers and advances OFFSET, whose ignored low bits do
not survive it (DESIGN CHOICE, log entry 138). -/
def Dev.dpRequest (d : Dev) (align n : Nat) (sizeOk : Bool) (write : Option (List Byte)) : Dev :=
  let off := d.host.dpOffset.toNat / align * align
  let e := d.dpError off n sizeOk write.isSome
  if e ≠ 0 then
    let d1 := d.dpFail e
    if write.isSome then d1 else d1.onHost (fun h => { h with readData := List.replicate n 0 })
  else
    let d1 := match write with
      | some b => d.spaceWrite d.host.dpSpace.toNat off (b.take n)
      | none => d.onHost (fun h => { h with readData := d.spaceRead h.dpSpace.toNat off n })
    d1.onHost (fun h => { h with dpOffset := BitVec.ofNat 28 (off + n) })

/-- One host access to DP_DATA (R109); a width that R90 does not allow has no effect and reads 0. -/
def Dev.dpAccess (d : Dev) (a : DpAccess) : Dev :=
  let step := if d.host.dpInc then 8 else 4
  if !d.hostOpen then d
  else if a.width ≠ 4 ∧ a.width ≠ 8 then
    if a.write.isSome then d else d.onHost (fun h => { h with readData := List.replicate a.width 0 })
  else d.dpRequest step a.width (decide (a.width = step)) (a.write.map (fun b => b.take a.width ++
    List.replicate (a.width - b.length) 0))

/-- The bytes that a request to the burst aperture carries: a QSPI transaction its whole words. -/
def burstBytes (qspi : Bool) (n : Nat) : Nat :=
  if qspi then min 4096 (n / 4 * 4) else if n % 4 = 0 ∧ n ≤ 4096 then n else 0

/-- The link that a request to the aperture comes over. -/
def burstQspi : DpBurst → Bool
  | .read q _ => q
  | .write q _ => q

/-- One request to the burst aperture (R109); the link that HOSTSEL does not select is inactive (R87). -/
def Dev.dpBurst (d : Dev) (a : DpBurst) : Dev :=
  if !d.hostOpen || burstQspi a != decide (d.hostSel = 1) then d
  else match a with
    | .read q n => if burstBytes q n = 0 then d else d.dpRequest 4 (burstBytes q n) true none
    | .write q b => if burstBytes q b.length = 0 then d else d.dpRequest 4 (burstBytes q b.length) true (some b)

/-- A write to DP_CTRL: INC is written, and ERR_CLR clears ERR (R96). -/
def Dev.writeDpCtrl (d : Dev) (w : BitVec 32) : Dev :=
  d.onHost (fun h => { h with dpInc := w.getLsbD 0, dpErr := if w.getLsbD 8 then 0 else h.dpErr })

/-- DP_DATA_ACCESS (R109). -/
def execDpDataAccess (t : Nat) (a : DpAccess) (s : State) : Host.Outcome State Fault Refusal :=
  s.act (fun d => (d.advance t).dpAccess a)

/-- DP_BURST_ACCESS (R109). -/
def execDpBurstAccess (t : Nat) (a : DpBurst) (s : State) : Host.Outcome State Fault Refusal :=
  s.act (fun d => (d.advance t).dpBurst a)

/-- DP_ERR_CLEAR (R96). -/
def execDpErrClear (t : Nat) (w : BitVec 32) (s : State) : Host.Outcome State Fault Refusal :=
  s.act (fun d => let d := d.advance t; if d.hostOpen then d.writeDpCtrl w else d)

/-! ### Mailbox slots and doorbells (R95, R99) -/

/-- The host writes into an inbound slot; a write into an owned slot is ignored and sets MBX_ERR. -/
def Dev.slotWrite (d : Dev) (slot offset : Nat) (data : List Byte) : Dev :=
  if !d.hostOpen then d
  else if (look d.host.slots slot).owned then d.irq 5
  else d.onHost (fun h => { h with slots := upd h.slots slot (fun s =>
    let old := s.inb ++ List.replicate (0x400 - s.inb.length) 0
    { s with inb := (old.take offset ++ data ++ old.drop (offset + data.length)).take 0x400 }) })

/-- The host writes 1 to bits of MBX_OUT_DB: each that is READY releases both its slots. -/
def Dev.outRelease (d : Dev) (w : BitVec 32) : Dev :=
  if !d.hostOpen then d
  else d.onHost (fun h => { h with slots := (List.range 8).foldl (fun t i =>
    upd t i (fun s => if w.getLsbD i ∧ s.ready then { s with ready := false, owned := false } else s)) h.slots })

/-- MBX_SLOT_WRITE (R99). -/
def execMbxSlotWrite (t : Nat) (slot : Fin 8) (offset : Nat) (data : List Byte) (s : State) :
    Host.Outcome State Fault Refusal :=
  s.act (fun d => (d.advance t).slotWrite slot.val offset data)

/-- MBX_OUT_DB_RELEASE (R95). -/
def execMbxOutDbRelease (t : Nat) (w : BitVec 32) (s : State) : Host.Outcome State Fault Refusal :=
  s.act (fun d => (d.advance t).outRelease w)

/-! ### Time latch, interrupts and health (R93, R94, R97) -/

/-- CT is latched as of the last XCLK tick before the read: how far that lies back, at most 40 LSB, is free (R94). -/
def Dev.latchCt (d : Dev) (t : Nat) : Dev :=
  if !d.hostOpen then d
  else
    let v : BitVec 64 := BitVec.ofNat 64 (t - Config.freeNat d.fresh % 41)
    (d.draw 1).onHost (fun h => { h with ctLatch := v, readData := wordBytes v })

/-- CT_LATCH_READ (R94). -/
def execCtLatchRead (t : Nat) (s : State) : Host.Outcome State Fault Refusal :=
  s.act (fun d => (d.advance t).latchCt t)

/-- W1C bits of IRQ_STAT (R97). -/
def Dev.irqClear (d : Dev) (w : BitVec 32) : Dev :=
  if d.hostOpen then d.onHost (fun h => { h with irqSticky := h.irqSticky &&& ~~~(w &&& 0x7C) }) else d

/-- A write to IRQ_EN (R97). -/
def Dev.irqEnable (d : Dev) (w : BitVec 32) : Dev :=
  if d.hostOpen then d.onHost (fun h => { h with irqEn := w &&& 0xFF }) else d

/-- The host enables MSI; where the condition already holds, one message goes at once (R97). -/
def Dev.msiEnable (d : Dev) : Dev :=
  if d.hostOpen ∧ d.hostSel = 0 then
    d.onHost (fun h => { h with msiOn := true, msiCount := if h.irqCond ∧ !h.msiOn then h.msiCount + 1 else h.msiCount })
  else d

/-- W1C bits of HEALTH (R93). -/
def Dev.healthClear (d : Dev) (w : BitVec 32) : Dev :=
  if d.hostOpen then
    d.onHost (fun h => { h with healthSticky := h.healthSticky &&& ~~~((w >>> 9).setWidth 3) })
  else d

/-- IRQ_STAT_CLEAR (R97). -/
def execIrqStatClear (t : Nat) (w : BitVec 32) (s : State) : Host.Outcome State Fault Refusal :=
  s.act (fun d => (d.advance t).irqClear w)

/-- IRQ_EN_WRITE (R97). -/
def execIrqEnWrite (t : Nat) (w : BitVec 32) (s : State) : Host.Outcome State Fault Refusal :=
  s.act (fun d => (d.advance t).irqEnable w)

/-- MSI_ENABLE (R97). -/
def execMsiEnable (t : Nat) (s : State) : Host.Outcome State Fault Refusal := s.act (fun d => (d.advance t).msiEnable)

/-- HEALTH_CLEAR (R93). -/
def execHealthClear (t : Nat) (w : BitVec 32) (s : State) : Host.Outcome State Fault Refusal :=
  s.act (fun d => (d.advance t).healthClear w)

/-- PERST_N goes low (R88): the PCIe interface, IRQ_EN, DP_ADDR and DP_CTRL are reset; slots and E are kept. The link is to be
trained again before the next access, and is ready for that 20 ms after PERST_N rises (R87, R520). -/
def Dev.perst (d : Dev) (t : Nat) : Dev :=
  if d.hostSel = 0 then (d.onHost (fun h =>
    { h with irqEn := 0, dpOffset := 0, dpSpace := 0, dpInc := false, dpErr := 0, msiOn := false })).bringUpLink (t + 20480000)
  else d

/-- PERST_N_LOW (R88). -/
def execPerstNLow (t : Nat) (s : State) : Host.Outcome State Fault Refusal := s.act (fun d => (d.advance t).perst t)

/-! ### The test access port (R82) and MAINT_READ (R84) -/

/-- What an instruction code selects (R82): IDCODE, MAINT_STATUS and MAINT_MSG always; EXTEST and SAMPLE/PRELOAD only while
RST_N is low, PWRGOOD high and MF_EXTEST 0; every other code, and an EXTEST or SAMPLE/PRELOAD outside its condition,
BYPASS. -/
def Dev.tapCode (d : Dev) (code : BitVec 5) : BitVec 5 :=
  if code = 0b00001 ∨ code = 0b01000 ∨ code = 0b01001 then code
  else if (code = 0b00000 ∨ code = 0b00010) ∧ d.boot.rstLow ∧ !d.boot.pwrLow ∧ !d.fuse 821 then code
  else 0b11111

/-- The instruction register of the test access port takes a code (R82). Of the codes that only read, MAINT_MSG has a row; IDCODE
and MAINT_STATUS have none, since a maintenance read alters no state. -/
def Dev.scan (d : Dev) (code : BitVec 5) : Dev := d.onBoot (fun b => { b with tapIr := d.tapCode code })

/-- EXTEST (R82). -/
def execExtest (t : Nat) (s : State) : Host.Outcome State Fault Refusal := s.act (fun d => (d.advance t).scan 0b00000)

/-- SAMPLE_PRELOAD (R82). -/
def execSamplePreload (t : Nat) (s : State) : Host.Outcome State Fault Refusal :=
  s.act (fun d => (d.advance t).scan 0b00010)

/-- MAINT_READ (R84): the space is checked before the offset and the length. -/
def semMaintRead (h : Hdr) (p : MaintRead) : Sem where
  op := 0x0122
  lenOk := h.length = 12
  link := .maintOnly
  range := fun _ => p.reserved == 0 && (decide (p.space.toNat ≤ 5) || p.space == 8)
  cond := fun d =>
    let sp := p.space.toNat
    let aon := decide (sp = 3) || decide (sp = 8)
    let o := p.offset.toNat
    let n := p.length.toNat
    firstFail
      [(aon || decide (d.server h.link = .firmware), .mode),
       (aon || !d.spaceClosed sp o (max n 1), .mode),
       (if sp = 8 then decide (o = 0) && decide (n = 8)
        else decide (o % 4 = 0) && decide (n % 4 = 0) && decide (4 ≤ n) && decide (n ≤ 992)
          && decide (o + n ≤ spaceSize sp), .range)]
  eff := fun d =>
    (d, some (.ok, if p.space = 8 then leBytes 8 h.stamp else d.spaceRead p.space.toNat p.offset.toNat p.length.toNat))

def execMaintRead (h : Hdr) (p : MaintRead) (s : State) : Host.Outcome State Fault Refusal :=
  s.act (runCmd (semMaintRead h p) h)

end Sys2Proof.Machine
end

