-- ==== Sys2Proof/Machine/Flags.lean ====
section
/-! DEFINITION. The status words and flags that the host reads (spec/05_host_mailboxes_data_port.md, R90 to R97): each register
of the host map as the state gives it. DEV_STATUS is in Machine/Capture.lean, IRQ_STAT in Machine/Operands.lean; the flags of a
loop sample are in Machine/LoopEngine.lean, those of a solver run in Machine/Solver.lean, and those of a signal core in
Machine/SignalCores.lean. -/

namespace Sys2Proof.Machine

/-- DEV_ID (R91). -/
def Dev.devId (d : Dev) : BitVec 32 :=
  BitVec.ofNat 32 (0x1628 + 65536 * d.fuseField 64 8 + 2 ^ 24 * d.boot.role.toNat + 2 ^ 26 * d.hostSel)

/-- HEALTH (R93). -/
def Dev.health (d : Dev) : BitVec 32 :=
  BitVec.ofNat 32 (min 255 d.retiredCount + 256 * bit d.noSpare + 512 * d.host.healthSticky.toNat + 65536 * d.host.temp.toNat)

/-- A mask of the slots that satisfy a condition. -/
def Dev.slotMask (d : Dev) (f : Slot → Bool) : Nat :=
  (List.range 8).foldl (fun m i => if f (look d.host.slots i) then m + 2 ^ i else m) 0

/-- MBX_OUT_DB (R95). -/
def Dev.mbxOutDb (d : Dev) : BitVec 32 := BitVec.ofNat 32 (d.slotMask (fun s => s.ready))

/-- MBX_STATUS (R95). -/
def Dev.mbxStatus (d : Dev) : BitVec 32 :=
  BitVec.ofNat 32 (d.slotMask (fun s => s.owned) + 65536 * d.host.expect.toNat)

/-- DP_ADDR (R96). -/
def Dev.dpAddr (d : Dev) : BitVec 32 := BitVec.ofNat 32 (d.host.dpOffset.toNat + 2 ^ 28 * d.host.dpSpace.toNat)

/-- DP_CTRL (R96). -/
def Dev.dpCtrl (d : Dev) : BitVec 32 := BitVec.ofNat 32 (bit d.host.dpInc + 16 * d.host.dpErr.toNat)

/-- The word at an offset of the register map (R90): 0 where there is no register, and through a link that is closed. A
read of CT_LATCH_LO, of DP_DATA or of the aperture has an effect of its own, and is a row of its own. -/
def Dev.regWord (d : Dev) (offset : Nat) : BitVec 32 :=
  if !d.hostOpen then 0
  else if offset = 0x00 then d.devId
  else if offset = 0x04 then d.devStatus
  else if offset = 0x08 then d.health
  else if offset = 0x10 then d.host.ctLatch.setWidth 32
  else if offset = 0x14 then (d.host.ctLatch >>> 32).setWidth 32
  else if offset = 0x24 then d.mbxOutDb
  else if offset = 0x28 then d.mbxStatus
  else if offset = 0x30 then d.dpAddr
  else if offset = 0x34 then d.dpCtrl
  else if offset = 0x40 then d.host.irqEn
  else if offset = 0x44 then d.irqStat
  else if 0x10000 ≤ offset ∧ offset < 0x14000 ∧ offset % 4 = 0 then
    let s := look d.host.slots (offset / 0x400 % 8)
    rd 32 (if offset < 0x12000 then s.inb else s.outb) (offset % 0x400)
  else 0

/-- The MAINT_STATUS fields that R82 names, as AON holds them in every mode: mode, reset cause, boot step, failure code, STO
levels, seal bits, lease and CT validity; the sampled straps that R44 reports there, and the reset history of R71 as the
number of its stamps. The spec gives the word of 256 bits no layout; that the straps and the history stand in it is the
model's choice (log entry 131). -/
def Dev.maintStatus (d : Dev) : List Nat :=
  [d.power.mode.code, d.boot.cause.toNat, d.boot.step.toNat, d.boot.fail.toNat, bit d.safety.stoA + 2 * bit d.safety.stoB,
    d.safety.sealPins.toNat, bit d.holdsLease, bit d.time.valid, (d.boot.straps &&& 0x3F).toNat, d.boot.history.length]

/-- IDCODE (R82): silicon revision, part, manufacturer code and 1. The vendor's code is not given. -/
def Dev.idcode (d : Dev) : BitVec 32 :=
  BitVec.ofNat 32 (d.fuseField 64 8 % 16 * 2 ^ 28 + 0x1628 * 2 ^ 12 + Config.vendorCode.toNat * 2 + 1)

/-- The Device ID, the class code and the size of BAR0 in bytes of the PCIe endpoint (R88). -/
def pcieIdentity : Nat × Nat × Nat := (0x1628, 0x118000, 131072)

/-- INTA is asserted: a level, while MSI is disabled (R88, R97). -/
def Dev.inta (d : Dev) : Bool := decide (d.boot.straps.toNat / 16 % 4 = 0) && !d.host.msiOn && d.host.irqCond

/-- The level of HOST_IRQ_N: low while the interrupt condition holds in the QSPI attachment (R89). -/
def Dev.hostIrqN (d : Dev) : Bool := !(decide (d.boot.straps.toNat / 16 % 4 = 1) && d.host.irqCond)

end Sys2Proof.Machine
end

