-- ==== Sys2Proof/Machine/Commands.lean ====
section
/-! DEFINITION. Messages (spec/05_host_mailboxes_data_port.md, R95 to R103; spec/04_reset_boot_fuses.md, R83): what a command
does when it comes as a message, the checks before a message is taken, the doorbell of the mailboxes, Update-DR of MAINT_MSG, and
writes to the host registers. -/

namespace Sys2Proof.Machine

/-- A command that came in a message is judged and executed (R100); an event is no message. -/
def Dev.command (i : Instr) (d : Dev) : Dev :=
  match i with
  | .echo h p => runCmd (semEcho h p) h d
  | .getNotices h p => runCmd (semGetNotices h p) h d
  | .setHostWatchdog h p => runCmd (semSetHostWatchdog h p) h d
  | .setMode h p => runCmd (semSetMode h p) h d
  | .setWake h p => runCmd (semSetWake h p) h d
  | .setDomains h p => runCmd (semSetDomains h p) h d
  | .getPowerState h => runCmd (semGetPowerState h) h d
  | .getBootReport h => runCmd (semGetBootReport h) h d
  | .getFuses h => runCmd (semGetFuses h) h d
  | .advanceRollback h => runCmd (semAdvanceRollback h) h d
  | .deviceReset h p => runCmd (semDeviceReset h p) h d
  | .bootImage h p => runCmd (semBootImage h p) h d
  | .fuseProgram h p => runCmd (semFuseProgram h p) h d
  | .setTiming h p => runCmd (semSetTiming h p) h d
  | .setPolicy h p => runCmd (semSetPolicy h p) h d
  | .maintRead h p => runCmd (semMaintRead h p) h d
  | .runSelftest h p => runCmd (semRunSelftest h p) h d
  | .configArm h p => runCmd (semConfigArm h p) h d
  | .setJointLimits h p => runCmd (semSetJointLimits h p) h d
  | .setScaling h p => runCmd (semSetScaling h p) h d
  | .appendJointMove h p => runCmd (semAppendJointMove h p) h d
  | .appendCartMove h p => runCmd (semAppendCartMove h p) h d
  | .stopArms h p => runCmd (semStopArms h p) h d
  | .resumeArms h p => runCmd (semResumeArms h p) h d
  | .flushQueue h p => runCmd (semFlushQueue h p) h d
  | .getArmState h p => runCmd (semGetArmState h p) h d
  | .configJointSlot h p => runCmd (semConfigJointSlot h p) h d
  | .configArmSlot h p => runCmd (semConfigArmSlot h p) h d
  | .configCurrentSlot h p => runCmd (semConfigCurrentSlot h p) h d
  | .setArmTarget h p => runCmd (semSetArmTarget h p) h d
  | .loadBank h p => runCmd (semLoadBank h p) h d
  | .loadBankBlock h p => runCmd (semLoadBankBlock h p) h d
  | .copyBank h => runCmd (semCopyBank h) h d
  | .swapBanks h p => runCmd (semSwapBanks h p) h d
  | .setSlotMode h p => runCmd (semSetSlotMode h p) h d
  | .getSlotState h p => runCmd (semGetSlotState h p) h d
  | .startInjection h p => runCmd (semStartInjection h p) h d
  | .stopInjection h p => runCmd (semStopInjection h p) h d
  | .getInjectionState h p => runCmd (semGetInjectionState h p) h d
  | .setRetuneBounds h p => runCmd (semSetRetuneBounds h p) h d
  | .defineProblem h p => runCmd (semDefineProblem h p) h d
  | .removeProblem h p => runCmd (semRemoveProblem h p) h d
  | .setProblemInput h p => runCmd (semSetProblemInput h p d) h d
  | .getProblemResult h p => runCmd (semGetProblemResult h p) h d
  | .getProblemDescriptor h p => runCmd (semGetProblemDescriptor h p) h d
  | .getLaneState h p => runCmd (semGetLaneState h p) h d
  | .configSeparation h p => runCmd (semConfigSeparation h p) h d
  | .definePan h p => runCmd (semDefinePan h p) h d
  | .setParamSet h p => runCmd (semSetParamSet h p) h d
  | .loadSafetyKinematics h p => runCmd (semLoadSafetyKinematics h p) h d
  | .loadCapsules h p => runCmd (semLoadCapsules h p) h d
  | .loadPairs h p => runCmd (semLoadPairs h p) h d
  | .loadIsland h p => runCmd (semLoadIsland h p) h d
  | .setObjectSource h p => runCmd (semSetObjectSource h p) h d
  | .setPanPlanner h p => runCmd (semSetPanPlanner h p) h d
  | .getPanState h p => runCmd (semGetPanState h p) h d
  | .getPairResult h p => runCmd (semGetPairResult h p) h d
  | .getObjectState h p => runCmd (semGetObjectState h p) h d
  | .configMotionPort h p => runCmd (semConfigMotionPort h p) h d
  | .configDeck h p => runCmd (semConfigDeck h p) h d
  | .setVessel h p => runCmd (semSetVessel h p) h d
  | .defineLoadFrame h p => runCmd (semDefineLoadFrame h p) h d
  | .setDeckLimits h p => runCmd (semSetDeckLimits h p) h d
  | .configBallast h p => runCmd (semConfigBallast h p) h d
  | .setBallastBounds h p => runCmd (semSetBallastBounds h p) h d
  | .declareLift h p => runCmd (semDeclareLift h p) h d
  | .closeLift h p => runCmd (semCloseLift h p) h d
  | .sendBallastRequest h p => runCmd (semSendBallastRequest h p) h d
  | .getDeckState h => runCmd (semGetDeckState h) h d
  | .getHeelState h p => runCmd (semGetHeelState h p) h d
  | .loadKernel h p => runCmd (semLoadKernel h p) h d
  | .removeKernel h p => runCmd (semRemoveKernel h p) h d
  | .runKernel h p => runCmd (semRunKernel h p) h d
  | .assignVendor h p => runCmd (semAssignVendor h p) h d
  | .getCoreState h p => runCmd (semGetCoreState h p) h d
  | .getKernelState h p => runCmd (semGetKernelState h p) h d
  | .setTrace h p => runCmd (semSetTrace h p) h d
  | .traceMark h p => runCmd (semTraceMark h p) h d
  | .getDispatchState h => runCmd (semGetDispatchState h) h d
  | .getEventEntry h p => runCmd (semGetEventEntry h p) h d
  | .cancelTask h p => runCmd (semCancelTask h p) h d
  | .configChannel h p => runCmd (semConfigChannel h p) h d
  | .configCapture h p => runCmd (semConfigCapture h p) h d
  | .setTriggers h p => runCmd (semSetTriggers h p) h d
  | .arm h => runCmd (semArm h) h d
  | .disarm h => runCmd (semDisarm h) h d
  | .forceTrigger h => runCmd (semForceTrigger h) h d
  | .getCaptureState h => runCmd (semGetCaptureState h) h d
  | .configStep h p => runCmd (semConfigStep h p) h d
  | .configChopper h p => runCmd (semConfigChopper h p) h d
  | .getRateState h p => runCmd (semGetRateState h p) h d
  | .configPwmGroup h p => runCmd (semConfigPwmGroup h p) h d
  | .setPwmDuty h p => runCmd (semSetPwmDuty h p) h d
  | .clearTrip h p => runCmd (semClearTrip h p) h d
  | .getPwmState h p => runCmd (semGetPwmState h p) h d
  | .configBrake h p => runCmd (semConfigBrake h p) h d
  | .getBrakeState h p => runCmd (semGetBrakeState h p) h d
  | .configBusChannel h p => runCmd (semConfigBusChannel h p) h d
  | .configDriveProfile h p => runCmd (semConfigDriveProfile h p) h d
  | .driveParam h p => runCmd (semDriveParam h p) h d
  | .getBusStats h p => runCmd (semGetBusStats h p) h d
  | .loadSchedule h p => runCmd (semLoadSchedule h p) h d
  | .configSync h p => runCmd (semConfigSync h p) h d
  | .grantSpare h p => runCmd (semGrantSpare h p) h d
  | .releaseSlot h p => runCmd (semReleaseSlot h p) h d
  | .getScheduleEntry h p => runCmd (semGetScheduleEntry h p) h d
  | .getSyncState h p => runCmd (semGetSyncState h p) h d
  | .configHierarchy h p => runCmd (semConfigHierarchy h p) h d
  | .configPair h p => runCmd (semConfigPair h p) h d
  | .arbitratePair h p => runCmd (semArbitratePair h p) h d
  | .dissolvePair h p => runCmd (semDissolvePair h p) h d
  | .releaseLease h p => runCmd (semReleaseLease h p) h d
  | .setExport h p => runCmd (semSafetyItem h 0x0D05 48 0 (fun _ => rangeSetExport p) (bytesSetExport p)) h d
  | .getPairState h => runCmd (semGetPairState h) h d
  | .getHierarchyState h => runCmd (semGetHierarchyState h) h d
  | .configSinPair h p => runCmd (semSafetyItem h 0x0E00 8 p.pair.toNat (fun _ => rangeConfigSinPair p) (bytesConfigSinPair p)) h d
  | .configStops h p => runCmd (semSafetyItem h 0x0E01 24 0 (fun d => rangeConfigStops d.time.tc p) (bytesConfigStops p)) h d
  | .configSls h p => runCmd (semSafetyItem h 0x0E02 580 0 (fun _ => rangeConfigSls p) (bytesConfigSls p)) h d
  | .configStoEdm h p => runCmd (semSafetyItem h 0x0E03 16 0 (fun _ => rangeConfigStoEdm p) (bytesConfigStoEdm p)) h d
  | .configSbc h p => runCmd (semSafetyItem h 0x0E04 8 0 (fun _ => rangeConfigSbc p) (bytesConfigSbc p)) h d
  | .configSafetyConn h p => runCmd (semConfigSafetyConn h p d.isArbiter) h d
  | .configSsmReaction h p => runCmd (semSafetyItem h 0x0E06 4 p.pan.toNat (fun _ => rangeConfigSsmReaction p) (bytesConfigSsmReaction p)) h d
  | .getSetCheck h => runCmd (semGetSetCheck h) h d
  | .commitSet h p => runCmd (semCommitSet h p) h d
  | .discardChanges h => runCmd (semDiscardChanges h) h d
  | .loadSetImage h p => runCmd (semLoadSetImage h p) h d
  | .saveSetImage h p => runCmd (semSaveSetImage h p) h d
  | .brakeTest h p => runCmd (semBrakeTest h p) h d
  | .getSafetyState h => runCmd (semGetSafetyState h) h d
  | .getConnState h p => runCmd (semGetConnState h p) h d
  | .setFaultPolicy h p => runCmd (semSetFaultPolicy h p) h d
  | .retireChannel h p => runCmd (semRetireChannel h p) h d
  | .clearRetirement h p => runCmd (semClearRetirement h p) h d
  | .getChannelState h p => runCmd (semGetChannelState h p) h d
  | .getJournalState h => runCmd (semGetJournalState h) h d
  | .journalMark h p => runCmd (semJournalMark h p) h d
  | _ => d

/-- A taken message: DEADLINE, then UNKNOWN_OPCODE for an opcode that is not defined, or MODE where AON or the boot ROM answers
(R74, R83, R100), else the command. -/
def Dev.takenMessage (d : Dev) (h : Hdr) (op : BitVec 16) (payload : List Byte) : Dev :=
  match parseCommand h op payload with
  | some c => d.command c
  | none =>
    let st : Status := if h.ct ≠ 0 ∧ h.ct < h.stamp then .deadline
      else if d.server h.link = .firmware then .unknownOpcode else .mode
    (d.take h).reply h op.toNat st []

/-- The header of a message (R98). -/
def msgHdr (link : Link) (slot t : Nat) (m : List Byte) : Hdr :=
  let n := (rd 16 m 4).toNat
  { link := link, slot := slot, seq := rd 16 m 2, flags := rd 16 m 6, ct := (rd 64 m 8).toNat, length := n,
    crc := rd 32 m (16 + n), stamp := t }

/-- Steps 1 and 2 of R100: the length, and the check value over what it covers. -/
def msgBad (m : List Byte) : Option Status :=
  let n := (rd 16 m 4).toNat
  firstFail [(decide (n ≤ 1004) && decide (n % 4 = 0), .length), (crc32c (m.take (16 + n)) == rd 32 m (16 + n), .check)]

/-- The 1,024 bytes of an inbound slot; what the host has not written since reset reads 0. -/
def Slot.message (s : Slot) : List Byte := s.inb ++ List.replicate (0x400 - s.inb.length) 0

/-- A message of the host link that is not taken is answered with a status (R99). -/
def Dev.refuseMsg (d : Dev) (slot t : Nat) (m : List Byte) (st : Status) : Dev :=
  d.onHost (fun h => h.putReply slot (replyBytes (rd 16 m 0).toNat (rd 16 m 2) false false t st []))

/-- The message in an inbound slot is handled (R100, R101); `busy` says that the mailbox source is back-pressured. -/
def Dev.hostMessage (d : Dev) (t slot : Nat) (busy : Bool) : Dev :=
  let m := (look d.host.slots slot).message
  let h := msgHdr .host slot t m
  match msgBad m with
  | some st => d.refuseMsg slot t m st
  | none =>
    if h.seq = d.host.expect then
      if busy then d.refuseMsg slot t m .busy
      else d.takenMessage h (rd 16 m 0) ((m.drop 16).take h.length)
    else if d.host.anyTaken ∧ h.seq + 1 = d.host.expect ∧ h.crc = d.host.lastCrc then
      match d.host.last with
      | some r => d.onHost (fun x => x.putReply slot (asRepeat r))
      | none => d.onHost (fun x => { x with slots := upd x.slots slot (fun s => { s with held := some h.seq }) })
    else d.refuseMsg slot t m .seq

/-- MBX_IN_DB is written (R95, R99, R341): the rung slots in ascending order; an owned one is ignored and sets MBX_ERR. The
mailbox source of the dispatch unit fires once for the write; where it is back-pressured, the messages are refused with BUSY. -/
def Dev.ring (d : Dev) (t : Nat) (w : BitVec 32) : Dev :=
  if !d.hostOpen then d
  else
    let rung := (List.range 8).filter (fun i => w.getLsbD i)
    let owned := rung.filter (fun i => (look d.host.slots i).owned)
    let free := rung.filter (fun i => !(look d.host.slots i).owned)
    let d := if rung.isEmpty then d else d.wakeDisp t
    let d1 := if owned.isEmpty then d else d.irq 5
    if free.isEmpty then d1
    else
      let d2 := d1.onHost (fun h => { h with
        slots := free.foldl (fun m i => upd m i (fun s => { s with owned := true })) h.slots })
      let busy := d2.pressedNow 13
      let d3 := d2.fire t t 13
      free.foldl (fun d i => d.hostMessage t i busy) d3

/-- MBX_IN_DB_RING (R95, R100). -/
def execMbxInDbRing (t : Nat) (w : BitVec 32) (s : State) : Host.Outcome State Fault Refusal :=
  s.act (fun d => (d.advance t).ring t w)

/-- The maintenance register changed by a function. -/
def Dev.onMaint (d : Dev) (f : Maint → Maint) : Dev := d.onHost (fun h => { h with maint := f h.maint })

/-- A rung maintenance message (R83, R100, R101): the steps of the host link, with its own expected sequence; a reply is held
until the next accepted ring. -/
def Dev.maintMessage (d : Dev) (t : Nat) (m : List Byte) : Dev :=
  let h := msgHdr .maint 0 t m
  let d1 := d.onMaint (fun x => { x with owned := true, reply := none })
  let answer := fun (r : List Byte) => d1.onMaint (fun x => { x with owned := false, reply := some r })
  let refuse := fun (st : Status) => answer (replyBytes (rd 16 m 0).toNat h.seq false false t st [])
  let k := d.host.maint
  match msgBad m with
  | some st => refuse st
  | none =>
    if h.seq = k.expect then
      if d.pressedNow 13 then refuse .busy else d1.takenMessage h (rd 16 m 0) ((m.drop 16).take h.length)
    else if k.anyTaken ∧ h.seq + 1 = k.expect ∧ h.crc = k.lastCrc then
      match k.last with
      | some r => answer (asRepeat r)
      | none => d1.onMaint (fun x => { x with repeatHeld := true })
    else refuse .seq

/-- Update-DR of MAINT_MSG (R83), which the instruction register holds then: RING rings the message, unless one is still
unanswered. -/
def Dev.updateDr (d0 : Dev) (t : Nat) (b : List Byte) : Dev :=
  let d := d0.scan 0b01001
  if (b.getD 1024 0).getLsbD 0 ∧ !d.host.maint.owned then d.maintMessage t (b.take 1024) else d

/-- MAINT_MSG_UPDATE_DR (R83). -/
def execMaintMsgUpdateDr (t : Nat) (b : List Byte) (s : State) : Host.Outcome State Fault Refusal :=
  s.act (fun d => (d.advance t).updateDr t b)

/-- What Capture-DR of MAINT_MSG loads (R83): the held reply or zeros, then the control word. -/
def Dev.captureDr (d : Dev) : List Byte :=
  let k := d.host.maint
  let r := k.reply.getD []
  (r ++ List.replicate (1024 - r.length) 0).take 1024
    ++ leBytes 4 (2 * bit k.reply.isSome + 4 * bit k.owned + 65536 * k.expect.toNat)

/-- What Capture-DR loads once an instruction code has been scanned in (R82, R83): IDCODE, the status fields, the maintenance
message, or a single 0 for BYPASS. -/
def Dev.tapData (d : Dev) (code : BitVec 5) : List Nat :=
  let ir := d.tapCode code
  if ir = 0b00001 then [d.idcode.toNat]
  else if ir = 0b01000 then d.maintStatus
  else if ir = 0b01001 then d.captureDr.map BitVec.toNat
  else [0]

/-- The host writes an aligned word to the register map (R90): each register takes it as its own rule says; DP_ADDR is a plain
register, and a write anywhere else is ignored. The upper half of DP_DATA takes no 4-byte access (DESIGN CHOICE, log entry
142). -/
def Dev.writeReg (d : Dev) (t offset : Nat) (w : BitVec 32) : Dev :=
  if !d.hostOpen ∨ offset % 4 ≠ 0 then d
  else if offset = 0x08 then d.healthClear w
  else if offset = 0x20 then d.ring t w
  else if offset = 0x24 then d.outRelease w
  else if offset = 0x30 then d.onHost (fun h => { h with dpOffset := w.setWidth 28, dpSpace := (w >>> 28).setWidth 4 })
  else if offset = 0x34 then d.writeDpCtrl w
  else if offset = 0x38 then d.dpAccess { width := 4, write := some (wordBytes w) }
  else if offset = 0x40 then d.irqEnable w
  else if offset = 0x44 then d.irqClear w
  else if 0x8000 ≤ offset ∧ offset < 0x9000 then d.dpBurst (.write (decide (d.hostSel = 1)) (wordBytes w))
  else if 0x10000 ≤ offset ∧ offset < 0x12000 then d.slotWrite (offset / 0x400 % 8) (offset % 0x400) (wordBytes w)
  else d

/-- The address after a word of one transaction: in QSPI it wraps within its page of 4 KiB (R89). -/
def Dev.nextOffset (d : Dev) (offset : Nat) : Nat :=
  if d.hostSel = 1 then offset / 4096 * 4096 + (offset + 4) % 4096 else offset + 4

/-- The words of a transaction at rising addresses (R89). Two words from DP_DATA on are one access of 8 bytes (R90). -/
def Dev.writeFrom (d : Dev) (t o : Nat) : List (BitVec 32) → Dev
  | [] => d
  | [w] => d.writeReg t o w
  | w :: w2 :: rest =>
    if o = 0x38 then
      (if d.hostOpen then d.dpAccess { width := 8, write := some (wordBytes w ++ wordBytes w2) } else d).writeFrom t
        (d.nextOffset (d.nextOffset o)) rest
    else
      let d1 := d.writeReg t o w
      d1.writeFrom t (d1.nextOffset o) (w2 :: rest)

/-- A write transaction to the registers: to the burst aperture it is one request for all its words (R109), elsewhere its words
go to rising addresses, at its end (R89). -/
def Dev.writeWords (d : Dev) (t offset : Nat) (w : BitVec 32) (more : List (BitVec 32)) : Dev :=
  if d.hostOpen ∧ offset % 4 = 0 ∧ 0x8000 ≤ offset ∧ offset < 0x9000
  then d.dpBurst (.write (decide (d.hostSel = 1)) ((w :: more).flatMap wordBytes))
  else d.writeFrom t offset (w :: more)

/-- REGISTER_WRITE (R90). -/
def execRegisterWrite (t : Nat) (offset : BitVec 32) (w : RegWords) (s : State) : Host.Outcome State Fault Refusal :=
  s.act (fun d => (d.advance t).writeWords t offset.toNat w.word w.more)

end Sys2Proof.Machine
end

