-- ==== Sys2Proof/Machine/Dispatch.lean ====
section
/-! DEFINITION. The dispatch of a command or event to its meaning, one arm per row of spec/opcode_table.json. -/

namespace Sys2Proof.Machine

/-- The effect of a command or event on everything but the queue. -/
def exec (i : Instr) (s : State) : Host.Outcome State Fault Refusal :=
  match i with
  | .echo h p => Sys2Proof.Machine.execEcho h p s
  | .getNotices h p => Sys2Proof.Machine.execGetNotices h p s
  | .setHostWatchdog h p => Sys2Proof.Machine.execSetHostWatchdog h p s
  | .setMode h p => Sys2Proof.Machine.execSetMode h p s
  | .setWake h p => Sys2Proof.Machine.execSetWake h p s
  | .setDomains h p => Sys2Proof.Machine.execSetDomains h p s
  | .getPowerState h => Sys2Proof.Machine.execGetPowerState h s
  | .getBootReport h => Sys2Proof.Machine.execGetBootReport h s
  | .getFuses h => Sys2Proof.Machine.execGetFuses h s
  | .advanceRollback h => Sys2Proof.Machine.execAdvanceRollback h s
  | .deviceReset h p => Sys2Proof.Machine.execDeviceReset h p s
  | .bootImage h p => Sys2Proof.Machine.execBootImage h p s
  | .fuseProgram h p => Sys2Proof.Machine.execFuseProgram h p s
  | .setTiming h p => Sys2Proof.Machine.execSetTiming h p s
  | .setPolicy h p => Sys2Proof.Machine.execSetPolicy h p s
  | .maintRead h p => Sys2Proof.Machine.execMaintRead h p s
  | .runSelftest h p => Sys2Proof.Machine.execRunSelftest h p s
  | .selftestDone t r => Sys2Proof.Machine.execSelftestDone t r s
  | .configArm h p => Sys2Proof.Machine.execConfigArm h p s
  | .setJointLimits h p => Sys2Proof.Machine.execSetJointLimits h p s
  | .setScaling h p => Sys2Proof.Machine.execSetScaling h p s
  | .appendJointMove h p => Sys2Proof.Machine.execAppendJointMove h p s
  | .appendCartMove h p => Sys2Proof.Machine.execAppendCartMove h p s
  | .stopArms h p => Sys2Proof.Machine.execStopArms h p s
  | .resumeArms h p => Sys2Proof.Machine.execResumeArms h p s
  | .flushQueue h p => Sys2Proof.Machine.execFlushQueue h p s
  | .getArmState h p => Sys2Proof.Machine.execGetArmState h p s
  | .configJointSlot h p => Sys2Proof.Machine.execConfigJointSlot h p s
  | .configArmSlot h p => Sys2Proof.Machine.execConfigArmSlot h p s
  | .configCurrentSlot h p => Sys2Proof.Machine.execConfigCurrentSlot h p s
  | .setArmTarget h p => Sys2Proof.Machine.execSetArmTarget h p s
  | .loadBank h p => Sys2Proof.Machine.execLoadBank h p s
  | .loadBankBlock h p => Sys2Proof.Machine.execLoadBankBlock h p s
  | .copyBank h => Sys2Proof.Machine.execCopyBank h s
  | .swapBanks h p => Sys2Proof.Machine.execSwapBanks h p s
  | .setSlotMode h p => Sys2Proof.Machine.execSetSlotMode h p s
  | .getSlotState h p => Sys2Proof.Machine.execGetSlotState h p s
  | .startInjection h p => Sys2Proof.Machine.execStartInjection h p s
  | .stopInjection h p => Sys2Proof.Machine.execStopInjection h p s
  | .getInjectionState h p => Sys2Proof.Machine.execGetInjectionState h p s
  | .setRetuneBounds h p => Sys2Proof.Machine.execSetRetuneBounds h p s
  | .identResult t slot => Sys2Proof.Machine.execIdentResult t slot s
  | .retune t slot => Sys2Proof.Machine.execRetune t slot s
  | .defineProblem h p => Sys2Proof.Machine.execDefineProblem h p s
  | .removeProblem h p => Sys2Proof.Machine.execRemoveProblem h p s
  | .setProblemInput h p => Sys2Proof.Machine.execSetProblemInput h p s
  | .getProblemResult h p => Sys2Proof.Machine.execGetProblemResult h p s
  | .getProblemDescriptor h p => Sys2Proof.Machine.execGetProblemDescriptor h p s
  | .getLaneState h p => Sys2Proof.Machine.execGetLaneState h p s
  | .configSeparation h p => Sys2Proof.Machine.execConfigSeparation h p s
  | .definePan h p => Sys2Proof.Machine.execDefinePan h p s
  | .setParamSet h p => Sys2Proof.Machine.execSetParamSet h p s
  | .loadSafetyKinematics h p => Sys2Proof.Machine.execLoadSafetyKinematics h p s
  | .loadCapsules h p => Sys2Proof.Machine.execLoadCapsules h p s
  | .loadPairs h p => Sys2Proof.Machine.execLoadPairs h p s
  | .loadIsland h p => Sys2Proof.Machine.execLoadIsland h p s
  | .setObjectSource h p => Sys2Proof.Machine.execSetObjectSource h p s
  | .setPanPlanner h p => Sys2Proof.Machine.execSetPanPlanner h p s
  | .getPanState h p => Sys2Proof.Machine.execGetPanState h p s
  | .getPairResult h p => Sys2Proof.Machine.execGetPairResult h p s
  | .getObjectState h p => Sys2Proof.Machine.execGetObjectState h p s
  | .configMotionPort h p => Sys2Proof.Machine.execConfigMotionPort h p s
  | .configDeck h p => Sys2Proof.Machine.execConfigDeck h p s
  | .setVessel h p => Sys2Proof.Machine.execSetVessel h p s
  | .defineLoadFrame h p => Sys2Proof.Machine.execDefineLoadFrame h p s
  | .setDeckLimits h p => Sys2Proof.Machine.execSetDeckLimits h p s
  | .configBallast h p => Sys2Proof.Machine.execConfigBallast h p s
  | .setBallastBounds h p => Sys2Proof.Machine.execSetBallastBounds h p s
  | .declareLift h p => Sys2Proof.Machine.execDeclareLift h p s
  | .closeLift h p => Sys2Proof.Machine.execCloseLift h p s
  | .sendBallastRequest h p => Sys2Proof.Machine.execSendBallastRequest h p s
  | .getDeckState h => Sys2Proof.Machine.execGetDeckState h s
  | .getHeelState h p => Sys2Proof.Machine.execGetHeelState h p s
  | .loadKernel h p => Sys2Proof.Machine.execLoadKernel h p s
  | .removeKernel h p => Sys2Proof.Machine.execRemoveKernel h p s
  | .runKernel h p => Sys2Proof.Machine.execRunKernel h p s
  | .assignVendor h p => Sys2Proof.Machine.execAssignVendor h p s
  | .getCoreState h p => Sys2Proof.Machine.execGetCoreState h p s
  | .getKernelState h p => Sys2Proof.Machine.execGetKernelState h p s
  | .setTrace h p => Sys2Proof.Machine.execSetTrace h p s
  | .traceMark h p => Sys2Proof.Machine.execTraceMark h p s
  | .getDispatchState h => Sys2Proof.Machine.execGetDispatchState h s
  | .getEventEntry h p => Sys2Proof.Machine.execGetEventEntry h p s
  | .cancelTask h p => Sys2Proof.Machine.execCancelTask h p s
  | .configChannel h p => Sys2Proof.Machine.execConfigChannel h p s
  | .configCapture h p => Sys2Proof.Machine.execConfigCapture h p s
  | .setTriggers h p => Sys2Proof.Machine.execSetTriggers h p s
  | .arm h => Sys2Proof.Machine.execArm h s
  | .disarm h => Sys2Proof.Machine.execDisarm h s
  | .forceTrigger h => Sys2Proof.Machine.execForceTrigger h s
  | .getCaptureState h => Sys2Proof.Machine.execGetCaptureState h s
  | .configStep h p => Sys2Proof.Machine.execConfigStep h p s
  | .configChopper h p => Sys2Proof.Machine.execConfigChopper h p s
  | .getRateState h p => Sys2Proof.Machine.execGetRateState h p s
  | .configPwmGroup h p => Sys2Proof.Machine.execConfigPwmGroup h p s
  | .setPwmDuty h p => Sys2Proof.Machine.execSetPwmDuty h p s
  | .clearTrip h p => Sys2Proof.Machine.execClearTrip h p s
  | .getPwmState h p => Sys2Proof.Machine.execGetPwmState h p s
  | .configBrake h p => Sys2Proof.Machine.execConfigBrake h p s
  | .getBrakeState h p => Sys2Proof.Machine.execGetBrakeState h p s
  | .configBusChannel h p => Sys2Proof.Machine.execConfigBusChannel h p s
  | .configDriveProfile h p => Sys2Proof.Machine.execConfigDriveProfile h p s
  | .driveParam h p => Sys2Proof.Machine.execDriveParam h p s
  | .getBusStats h p => Sys2Proof.Machine.execGetBusStats h p s
  | .loadSchedule h p => Sys2Proof.Machine.execLoadSchedule h p s
  | .configSync h p => Sys2Proof.Machine.execConfigSync h p s
  | .grantSpare h p => Sys2Proof.Machine.execGrantSpare h p s
  | .releaseSlot h p => Sys2Proof.Machine.execReleaseSlot h p s
  | .getScheduleEntry h p => Sys2Proof.Machine.execGetScheduleEntry h p s
  | .getSyncState h p => Sys2Proof.Machine.execGetSyncState h p s
  | .configHierarchy h p => Sys2Proof.Machine.execConfigHierarchy h p s
  | .configPair h p => Sys2Proof.Machine.execConfigPair h p s
  | .arbitratePair h p => Sys2Proof.Machine.execArbitratePair h p s
  | .dissolvePair h p => Sys2Proof.Machine.execDissolvePair h p s
  | .releaseLease h p => Sys2Proof.Machine.execReleaseLease h p s
  | .setExport h p => Sys2Proof.Machine.execSetExport h p s
  | .getPairState h => Sys2Proof.Machine.execGetPairState h s
  | .getHierarchyState h => Sys2Proof.Machine.execGetHierarchyState h s
  | .configSinPair h p => Sys2Proof.Machine.execConfigSinPair h p s
  | .configStops h p => Sys2Proof.Machine.execConfigStops h p s
  | .configSls h p => Sys2Proof.Machine.execConfigSls h p s
  | .configStoEdm h p => Sys2Proof.Machine.execConfigStoEdm h p s
  | .configSbc h p => Sys2Proof.Machine.execConfigSbc h p s
  | .configSafetyConn h p => Sys2Proof.Machine.execConfigSafetyConn h p s
  | .configSsmReaction h p => Sys2Proof.Machine.execConfigSsmReaction h p s
  | .getSetCheck h => Sys2Proof.Machine.execGetSetCheck h s
  | .commitSet h p => Sys2Proof.Machine.execCommitSet h p s
  | .discardChanges h => Sys2Proof.Machine.execDiscardChanges h s
  | .loadSetImage h p => Sys2Proof.Machine.execLoadSetImage h p s
  | .saveSetImage h p => Sys2Proof.Machine.execSaveSetImage h p s
  | .brakeTest h p => Sys2Proof.Machine.execBrakeTest h p s
  | .getSafetyState h => Sys2Proof.Machine.execGetSafetyState h s
  | .getConnState h p => Sys2Proof.Machine.execGetConnState h p s
  | .setFaultPolicy h p => Sys2Proof.Machine.execSetFaultPolicy h p s
  | .retireChannel h p => Sys2Proof.Machine.execRetireChannel h p s
  | .clearRetirement h p => Sys2Proof.Machine.execClearRetirement h p s
  | .getChannelState h p => Sys2Proof.Machine.execGetChannelState h p s
  | .getJournalState h => Sys2Proof.Machine.execGetJournalState h s
  | .journalMark h p => Sys2Proof.Machine.execJournalMark h p s
  | .mbxSlotWrite t slot offset data => Sys2Proof.Machine.execMbxSlotWrite t slot offset data s
  | .mbxOutDbRelease t w => Sys2Proof.Machine.execMbxOutDbRelease t w s
  | .ctLatchRead t => Sys2Proof.Machine.execCtLatchRead t s
  | .dpDataAccess t a => Sys2Proof.Machine.execDpDataAccess t a s
  | .dpBurstAccess t a => Sys2Proof.Machine.execDpBurstAccess t a s
  | .dpErrClear t w => Sys2Proof.Machine.execDpErrClear t w s
  | .irqStatClear t w => Sys2Proof.Machine.execIrqStatClear t w s
  | .irqEnWrite t w => Sys2Proof.Machine.execIrqEnWrite t w s
  | .msiEnable t => Sys2Proof.Machine.execMsiEnable t s
  | .healthClear t w => Sys2Proof.Machine.execHealthClear t w s
  | .registerWrite t offset w => Sys2Proof.Machine.execRegisterWrite t offset w s
  | .extest t => Sys2Proof.Machine.execExtest t s
  | .samplePreload t => Sys2Proof.Machine.execSamplePreload t s
  | .rstNLow t lowNs => Sys2Proof.Machine.execRstNLow t lowNs s
  | .boot t b => Sys2Proof.Machine.execBoot t b s
  | .pwrgoodLow t lowNs => Sys2Proof.Machine.execPwrgoodLow t lowNs s
  | .powerOn => Sys2Proof.Machine.execPowerOn s
  | .vddCoreLoss t => Sys2Proof.Machine.execVddCoreLoss t s
  | .vddAonFall t => Sys2Proof.Machine.execVddAonFall t s
  | .lockstepMismatch t => Sys2Proof.Machine.execLockstepMismatch t s
  | .watchdogLapse t => Sys2Proof.Machine.execWatchdogLapse t s
  | .xclkMissing t lastEdge => Sys2Proof.Machine.execXclkMissing t lastEdge s
  | .perstNLow t => Sys2Proof.Machine.execPerstNLow t s
  | .wakeEvent t w => Sys2Proof.Machine.execWakeEvent t w s
  | .domainWake t d => Sys2Proof.Machine.execDomainWake t d s
  | .domainStop t d => Sys2Proof.Machine.execDomainStop t d s
  | .boundary t b => Sys2Proof.Machine.execBoundary t b s
  | .midPeriod t => Sys2Proof.Machine.execMidPeriod t s
  | .quarterPoint t m x => Sys2Proof.Machine.execQuarterPoint t m x s
  | .taskRelease t e => Sys2Proof.Machine.execTaskRelease t e s
  | .taskDispatch t => Sys2Proof.Machine.execTaskDispatch t s
  | .taskComplete t e x => Sys2Proof.Machine.execTaskComplete t e x s
  | .taskDeadline t => Sys2Proof.Machine.execTaskDeadline t s
  | .backpressureRelease t e => Sys2Proof.Machine.execBackpressureRelease t e s
  | .traceRecordWrite t => Sys2Proof.Machine.execTraceRecordWrite t s
  | .ikMissLimit t arm => Sys2Proof.Machine.execIkMissLimit t arm s
  | .feedbackMissLimit t slot => Sys2Proof.Machine.execFeedbackMissLimit t slot s
  | .problemRunEnd t lane mismatches => Sys2Proof.Machine.execProblemRunEnd t lane mismatches s
  | .problemDeadline t id pos => Sys2Proof.Machine.execProblemDeadline t id pos s
  | .laneTest t lane pass => Sys2Proof.Machine.execLaneTest t lane pass s
  | .separationInputsComplete t => Sys2Proof.Machine.execSeparationInputsComplete t s
  | .sepMonitorDecision t => Sys2Proof.Machine.execSepMonitorDecision t s
  | .passOverrun t => Sys2Proof.Machine.execPassOverrun t s
  | .islandDecision t => Sys2Proof.Machine.execIslandDecision t s
  | .msnDrdyEdge t port => Sys2Proof.Machine.execMsnDrdyEdge t port s
  | .motionReadDone t port data copy => Sys2Proof.Machine.execMotionReadDone t port data copy s
  | .motionPortSilence t port => Sys2Proof.Machine.execMotionPortSilence t port s
  | .deckInvalidTimeout t => Sys2Proof.Machine.execDeckInvalidTimeout t s
  | .loadFrameStale t => Sys2Proof.Machine.execLoadFrameStale t s
  | .ballastStatusStale t => Sys2Proof.Machine.execBallastStatusStale t s
  | .coreInterrupt t core src => Sys2Proof.Machine.execCoreInterrupt t core src s
  | .kernelBudget t slot fault => Sys2Proof.Machine.execKernelBudget t slot fault s
  | .syncFrame t f => Sys2Proof.Machine.execSyncFrame t f s
  | .feedbackFrame t f => Sys2Proof.Machine.execFeedbackFrame t f s
  | .safetyContainer t f => Sys2Proof.Machine.execSafetyContainer t f s
  | .paramResponse t f => Sys2Proof.Machine.execParamResponse t f s
  | .appFrame t f => Sys2Proof.Machine.execAppFrame t f s
  | .claimFrame t f => Sys2Proof.Machine.execClaimFrame t f s
  | .dataFrame t f => Sys2Proof.Machine.execDataFrame t f s
  | .bucketDecay t ch => Sys2Proof.Machine.execBucketDecay t ch s
  | .slotTransmit t set slot echoOk => Sys2Proof.Machine.execSlotTransmit t set slot echoOk s
  | .syncCorrection t set => Sys2Proof.Machine.execSyncCorrection t set s
  | .listenTimeout t set => Sys2Proof.Machine.execListenTimeout t set s
  | .backoffEnd t set => Sys2Proof.Machine.execBackoffEnd t set s
  | .phyLinkPoll t ch up => Sys2Proof.Machine.execPhyLinkPoll t ch up s
  | .workerLost t cell => Sys2Proof.Machine.execWorkerLost t cell s
  | .leaseGrant t m => Sys2Proof.Machine.execLeaseGrant t m s
  | .leaseRefuse t m => Sys2Proof.Machine.execLeaseRefuse t m s
  | .leaseRequestMsg t m => Sys2Proof.Machine.execLeaseRequestMsg t m s
  | .leaseHealthMsg t m => Sys2Proof.Machine.execLeaseHealthMsg t m s
  | .leaseReleaseMsg t m => Sys2Proof.Machine.execLeaseReleaseMsg t m s
  | .arbiterDecision t cell => Sys2Proof.Machine.execArbiterDecision t cell s
  | .leaseExpiry t => Sys2Proof.Machine.execLeaseExpiry t s
  | .mirrorLinkUp t lanes roundTrip => Sys2Proof.Machine.execMirrorLinkUp t lanes roundTrip s
  | .mirrorPart t p => Sys2Proof.Machine.execMirrorPart t p s
  | .mirrorAck t period pledge => Sys2Proof.Machine.execMirrorAck t period pledge s
  | .mirrorNack t period part => Sys2Proof.Machine.execMirrorNack t period part s
  | .mirrorRelease t => Sys2Proof.Machine.execMirrorRelease t s
  | .mirrorLate t => Sys2Proof.Machine.execMirrorLate t s
  | .hostWatchdog t => Sys2Proof.Machine.execHostWatchdog t s
  | .sealAccepted t bit v => Sys2Proof.Machine.execSealAccepted t bit v s
  | .sinChange t pin level => Sys2Proof.Machine.execSinChange t pin level s
  | .sinDiscrepancy t pair => Sys2Proof.Machine.execSinDiscrepancy t pair s
  | .stoFbMismatch t => Sys2Proof.Machine.execStoFbMismatch t s
  | .stoTestPulse t b low => Sys2Proof.Machine.execStoTestPulse t b low s
  | .edmMismatch t => Sys2Proof.Machine.execEdmMismatch t s
  | .permitLapse t => Sys2Proof.Machine.execPermitLapse t s
  | .crossMismatch t since => Sys2Proof.Machine.execCrossMismatch t since s
  | .connectionFailed t conn => Sys2Proof.Machine.execConnectionFailed t conn s
  | .ss1TimeExpiry t => Sys2Proof.Machine.execSs1TimeExpiry t s
  | .stopDeadline t => Sys2Proof.Machine.execStopDeadline t s
  | .brakeTestPhase t => Sys2Proof.Machine.execBrakeTestPhase t s
  | .brakeTestDue t b => Sys2Proof.Machine.execBrakeTestDue t b s
  | .brakePullInEnd t b => Sys2Proof.Machine.execBrakePullInEnd t b s
  | .brkFbChange t b level => Sys2Proof.Machine.execBrkFbChange t b level s
  | .brakeFbLate t b => Sys2Proof.Machine.execBrakeFbLate t b s
  | .tripNFall t g lowNs => Sys2Proof.Machine.execTripNFall t g lowNs s
  | .pwmCarrierCycle t g gates => Sys2Proof.Machine.execPwmCarrierCycle t g gates s
  | .pwmCoarse t g span => Sys2Proof.Machine.execPwmCoarse t g span s
  | .stepPulse t m ticks => Sys2Proof.Machine.execStepPulse t m ticks s
  | .chopIsnsHigh t c coil => Sys2Proof.Machine.execChopIsnsHigh t c coil s
  | .chopBlankEnd t c coil isns => Sys2Proof.Machine.execChopBlankEnd t c coil isns s
  | .chopOffTimeEnd t c coil => Sys2Proof.Machine.execChopOffTimeEnd t c coil s
  | .chopOnTimeLimit t c coil => Sys2Proof.Machine.execChopOnTimeLimit t c coil s
  | .holdDelay t c => Sys2Proof.Machine.execHoldDelay t c s
  | .sdInputSilence t ch => Sys2Proof.Machine.execSdInputSilence t ch s
  | .pinChannelChange t ch level => Sys2Proof.Machine.execPinChannelChange t ch level s
  | .skimRecordStore t => Sys2Proof.Machine.execSkimRecordStore t s
  | .postTimeExpiry t => Sys2Proof.Machine.execPostTimeExpiry t s
  | .armLineFall t => Sys2Proof.Machine.execArmLineFall t s
  | .armLineRise t => Sys2Proof.Machine.execArmLineRise t s
  | .fireLineFall t => Sys2Proof.Machine.execFireLineFall t s
  | .firePulseEnd t => Sys2Proof.Machine.execFirePulseEnd t s
  | .journalWrite t => Sys2Proof.Machine.execJournalWrite t s
  | .mbxInDbRing t w => Sys2Proof.Machine.execMbxInDbRing t w s
  | .maintMsgUpdateDr t m => Sys2Proof.Machine.execMaintMsgUpdateDr t m s
  | .stoFbChange t b level => Sys2Proof.Machine.execStoFbChange t b level s
  | .edmInChange t ch level => Sys2Proof.Machine.execEdmInChange t ch level s
  | .pwmCoarseClear t g span => Sys2Proof.Machine.execPwmCoarseClear t g span s
  | .analogThresholdChange t ch word => Sys2Proof.Machine.execAnalogThresholdChange t ch word s
  | .chopRefPwmPeriod t c ticks => Sys2Proof.Machine.execChopRefPwmPeriod t c ticks s

end Sys2Proof.Machine
end

