-- ==== Sys2Proof/Machine/Pins.lean ====
section
/-! DEFINITION. The levels of the output pins (R37, R38, R41, R152, R154, R155, R157, R385, R397): what each pin carries, as
a function of the state; and which clocks run (R51). A pin that toggles faster than the rows of the table shows `clock` or `data`. -/

namespace Sys2Proof.Machine

/-- What an output or bidirectional pin carries. -/
inductive PinLevel where
  | low
  | high
  | highZ              -- not driven: a bidirectional pin used as input, an open-drain pin released
  | clock              -- a running clock
  | data               -- bits of a transfer in progress
  | duty (n : Nat)     -- a PWM with a duty of n/1,024
deriving DecidableEq, Repr, Inhabited

/-- The outputs and bidirectional pins of R37 with digital levels, by group. -/
inductive Pin where
  | tdo
  | hqIo
  | hostIrqN
  | bqClk
  | bqCsN
  | bqIo
  | msSck (port : Fin 2)
  | msMosi (port : Fin 2)
  | msCsN (port : Fin 2)
  | txd (chan : Fin 10)
  | txen (chan : Fin 10)
  | mdc
  | mdio
  | sdClk (n : Fin 3)
  | step (m : Fin 16)
  | dir (m : Fin 16)
  | stepEn (m : Fin 16)
  | chop (c : Fin 8) (k : Coil) (gate : Fin 4)      -- HH, HL, LH, LL
  | pwmg (g : Fin 8) (gate : Fin 6)                 -- UH, UL, VH, VL, WH, WL
  | brkOut (b : Fin 16)
  | stoA
  | stoB
  | xtrg (line : Fin 4)
  | leaseOut
  | alive
  | faultN
  | gpio (n : Fin 32)
deriving DecidableEq, Repr

/-- The reset state of a pin (R37). -/
def Pin.atReset : Pin → PinLevel
  | .tdo | .hqIo | .hostIrqN | .bqIo | .mdio | .xtrg _ | .gpio _ => .highZ
  | .bqCsN | .msCsN _ => .high
  | _ => .low

/-- The pins that AON drives (R38): the bank 1 outputs and TXEN. They keep their function in DORMANT. -/
def Pin.aon : Pin → Bool
  | .tdo | .brkOut _ | .stoA | .stoB | .leaseOut | .alive | .faultN | .txen _ => true
  | _ => false

/-- A Boolean level. -/
def PinLevel.of (b : Bool) : PinLevel := if b then .high else .low

/-- The chopper channel and the coil whose reference leaves on a GPIO pin (R157). -/
def Dev.refCoil (d : Dev) (n : Nat) : Option CoilState :=
  if n < 16 ∧ d.chopEnabled (n / 2)
  then some ((look d.chops (n / 2)).coil (if n % 2 = 0 then .a else .b)) else none

/-- What a pin carries once the firmware runs and outside DORMANT, or where AON drives it. A row of the table is a whole host
burst, scan, flash read or PHY access, so HQ_IO, TDO, BQ and MDIO are at rest between rows; the times at which SD_CLK and
DB_MDC run are the model's (log entry 155). -/
def Dev.pinFunction (d : Dev) (t : Nat) : Pin → PinLevel
  | .tdo | .hqIo | .bqIo | .mdio => .highZ
  | .hostIrqN => if d.hostIrqN then .highZ else .low
  | .bqClk => .low
  | .bqCsN => .high
  | .msSck p => if (d.deck.ports.getD p.val default).reading then .clock else .low
  | .msMosi p => if (d.deck.ports.getD p.val default).reading then .data else .low
  | .msCsN p => .of !(d.deck.ports.getD p.val default).reading
  | .txd ch => if d.txen ch.val && decide ((look d.bus.chans ch.val).mode = .line) then .data else .low
  | .txen ch => .of (d.txen ch.val && decide ((look d.bus.chans ch.val).mode = .line))
  | .mdc => if (List.range 10).any (fun ch => decide ((look d.bus.chans ch).mode = .phy)) then .clock else .low
  | .sdClk _ => if d.power.domains.getD 3 .off = .running ∧ d.power.domains.getD 8 .off = .running then .clock else .low
  | .step m =>
    match (look d.mults m.val).step with
    | some c => .of (d.power.mode.torque && (decide (0 < (look d.mults m.val).gen.active) ^^ c.flags.getLsbD 0))
    | none => .low
  | .dir m =>
    match (look d.mults m.val).step with
    | some c => .of (d.power.mode.torque && ((look d.mults m.val).gen.dirPos ^^ c.flags.getLsbD 1))
    | none => .low
  | .stepEn m => .of (d.power.mode.torque && (look d.mults m.val).step.isSome)
  | .chop c k g => .of (d.chopOn c.val && (((look d.chops c.val).coil k).gatesAt (d.chopCfg c.val) t).getD g.val false)
  | .pwmg g i => .of (((look d.pwm.groups g.val).gatesAt t).getLsbD i.val)
  | .brkOut b => .of ((look d.pwm.brakes b.val).outAt t)
  | .stoA => .of d.safety.stoA
  | .stoB => .of d.safety.stoB
  | .xtrg i => if (d.skim.armOut && d.skim.cap.armLine == i.val) || (d.skim.fireOut && d.skim.cap.fireLine == i.val)
      then .low else .highZ
  | .leaseOut => .of d.holdsLease
  | .alive => .of d.boot.alive
  | .faultN => if d.boot.faultN then .highZ else .low
  | .gpio n =>
    match d.refCoil n.val with
    | some x => .duty x.ref.natAbs
    | none => .highZ

/-- The level of a pin at an instant (R38): its reset state while RST_N or PWRGOOD is low and, of a pin that AON does not
drive, until the firmware runs and in DORMANT. -/
def Dev.pin (d : Dev) (t : Nat) (p : Pin) : PinLevel :=
  if d.boot.rstLow ∨ d.boot.pwrLow then p.atReset
  else if p.aon then d.pinFunction t p
  else if !d.boot.fwRun ∨ d.power.mode = .dormant then p.atReset
  else d.pinFunction t p

/-- Every pin shows its reset state while RST_N or PWRGOOD is low. -/
theorem pin_held (d : Dev) (t : Nat) (p : Pin) (h : d.boot.rstLow = true ∨ d.boot.pwrLow = true) :
    d.pin t p = p.atReset := if_pos h

/-! ### The clocks (R51) -/

/-- The clocks of R51, less the PLLs of the links. -/
inductive Clock where
  | xclk | iosc | fpll | f1200 | f600 | f400 | f300 | f200
deriving DecidableEq, Repr

/-- The domains that a clock made on demand serves; the clocks that run by themselves serve none here. -/
def Clock.serves : Clock → List Nat
  | .f1200 => [7]
  | .f600 => [3, 4, 5, 6]
  | .f400 => [8]
  | .f300 => [1, 2, 11, 12, 13]
  | _ => []

/-- A clock runs: XCLK and IOSC always, FPLL and F200 outside DORMANT, and one on demand while a domain that it serves does. -/
def Dev.clockRuns (d : Dev) (c : Clock) : Bool :=
  match c with
  | .xclk | .iosc => true
  | .fpll | .f200 => decide (d.power.mode ≠ .dormant)
  | _ => c.serves.any (fun i => decide (d.power.domains.getD i .off = .running))

end Sys2Proof.Machine
end

