-- ==== Sys2Proof/Safety.lean ====
section
/-! DEFINITION. The terms that claims use: what a settled device is, when a message of a command is served and accepted,
the state in which it is answered, and what counts as safe: torque only in a mode that has torque, and no blown fuse
healed. -/

namespace Sys2Proof

open Machine

/-- Torque is permitted only in RUN, HOLD and TUNE (R57). -/
def TorqueOnlyWhereAllowed (s : State) : Prop :=
  (s.dev.safety.stoA = true ∨ s.dev.safety.stoB = true) → s.dev.power.mode.torque = true

/-- Every fuse that is blown in one state is blown in another (R78). -/
def FusesKept (s t : State) : Prop :=
  ∀ r i : Nat, (s.dev.fuses.rows.getD r 0).getLsbD i = true → (t.dev.fuses.rows.getD r 0).getLsbD i = true

/-- A device whose outputs say what its state says: the pin FAULT_N is low exactly while FAULT_N is asserted (R501), and the
interrupt condition is that of R97. -/
def Settled (s : State) : Prop :=
  s.dev.boot.faultN = !s.dev.faultAsserted ∧ s.dev.host.irqCond = decide (s.dev.irqStat &&& s.dev.host.irqEn ≠ 0)

/-- The memories and stores that the data port shows are in canonical form. -/
def MemoriesCanonical (s : State) : Prop :=
  Tab.wf s.dev.host.memA ∧ Tab.wf s.dev.host.memB ∧ Tab.wf s.dev.host.hints

/-- A message passes steps 5 to 8 of R100, has the length of its command's structure, and no flag set: it is on time, the
firmware answers its link, no fuse forbids the command's class, the link rule of R527 lets it through, and the mode is one
that the command allows. -/
def Serves (op len : Nat) (link : LinkRule) (modes : List Mode) (h : Hdr) (s : State) : Prop :=
  (h.ct = 0 ∨ h.stamp ≤ h.ct) ∧ s.dev.server h.link = .firmware ∧ s.dev.classForbidden (op / 256) = false ∧
    link.judge s.dev h.link = none ∧ s.dev.power.mode ∈ modes ∧ h.length = len ∧ h.flags = 0

/-- A command's fields are in range and its own conditions hold (steps 10 and 11 of R100), at its acceptance. -/
def Accepted (m : Sem) (h : Hdr) (s : State) : Prop :=
  m.range (s.dev.take h) = true ∧ m.cond (s.dev.take h) = none

/-- The state in which a command is answered with OK and data, its effect having left the device as `d`. -/
def answered (s : State) (h : Hdr) (op : Nat) (d : Dev) (data : List Byte) : State := s.after (d.reply h op .ok data)

/-- A run of steps that meets no refusal. -/
def RunsTo : Nat → State → State → Prop
  | 0, s, t => s = t
  | n + 1, s, t => ∃ m, step s = .next m ∧ RunsTo n m t

end Sys2Proof
end

