-- ==== Sys2Proof/Certificates/Slice0/Obligations.lean ====
section
/-! DEFINITION. The statements for the provers, each one proposition about the model. Where a statement speaks of a
command, it gives the whole next state: what it does not name there is unchanged, as the effects it is written with say. -/

open Sys2Proof Sys2Proof.Machine

/-- Reads of power, boot, fuses and echo answer with the stated data and change nothing else. A served ECHO returns its
data unchanged; GET_POWER_STATE returns 32 bytes after the status, GET_BOOT_REPORT 44, GET_FUSES the sixteen rows as
sensed, MAINT_READ of space 8 the acceptance stamp, and MAINT_READ of another space the bytes of that space. Nothing
but the message bookkeeping changes. Each of these rows completes, exec answering the next state given: ECHO,
GET_POWER_STATE, GET_BOOT_REPORT, GET_FUSES, MAINT_READ. (R68, R81, R84, R86, R114, R529) -/
def Obligations.HostReadsAnswerWithTheTableLength : Prop :=
  (∀ (h : Hdr) (p : Echo) (s : State), h.length ≤ 1000 → Serves 0x0100 h.length .both awake h s →
      exec (.echo h p) s = .next (answered s h 0x0100 (s.dev.take h) p.data))
  ∧ (∀ (h : Hdr) (s : State), Serves 0x0113 0 (.both) awake h s → Accepted (semGetPowerState h) h s →
      let d := s.dev.take h
      ∃ data : List Byte, data.length = 32 ∧ exec (.getPowerState h) s = .next (answered s h 0x0113 (d) data))
  ∧ (∀ (h : Hdr) (s : State), Serves 0x0114 0 (.both) awake h s → Accepted (semGetBootReport h) h s →
      let d := s.dev.take h
      ∃ data : List Byte, data.length = 44 ∧ exec (.getBootReport h) s = .next (answered s h 0x0114 (d) data))
  ∧ (∀ (h : Hdr) (s : State), Serves 0x0115 0 (.both) awake h s → Accepted (semGetFuses h) h s →
      let d := s.dev.take h
      exec (.getFuses h) s = .next (answered s h 0x0115 (d) (d.fuses.sensed.flatMap (fun r => wordBytes r))))
  ∧ (∀ (h : Hdr) (p : MaintRead) (s : State), Serves 0x0122 12 (.maintOnly) awake h s → Accepted (semMaintRead h p) h s → p.space = 8 →
      let d := s.dev.take h
      exec (.maintRead h p) s = .next (answered s h 0x0122 (d) (leBytes 8 h.stamp)))
  ∧ (∀ (h : Hdr) (p : MaintRead) (s : State), Serves 0x0122 12 (.maintOnly) awake h s → Accepted (semMaintRead h p) h s → p.space ≠ 8 →
      let d := s.dev.take h
      exec (.maintRead h p) s = .next (answered s h 0x0122 (d) (d.spaceRead p.space.toNat p.offset.toNat p.length.toNat)))

/-- Reads of arms, problems, lanes, pans, kernels, dispatch and injections answer without an effect. Each served and
accepted read of an arm, an injection, a problem, a lane, a pan, a pair entry, an object, a core, a kernel, the
dispatch unit or an event entry is answered OK with as many bytes as its table gives (the object record and the
injection record as the state holds them), and nothing but the message bookkeeping changes. Each of these rows
completes, exec answering the next state given: GET_ARM_STATE, GET_PROBLEM_RESULT, GET_PROBLEM_DESCRIPTOR,
GET_LANE_STATE, GET_PAN_STATE, GET_PAIR_RESULT, GET_OBJECT_STATE, GET_INJECTION_STATE, GET_CORE_STATE,
GET_KERNEL_STATE, GET_DISPATCH_STATE, GET_EVENT_ENTRY. (R145, R212, R240, R241, R284, R332, R351) -/
def Obligations.EngineReadsAnswerAndChangeNothing : Prop :=
  (∀ (h : Hdr) (p : GetArmState) (s : State), Serves 0x0230 4 (.both) awake h s → Accepted (semGetArmState h p) h s →
      let d := s.dev.take h
      ∃ data : List Byte, data.length = 136 ∧ exec (.getArmState h p) s = .next (answered s h 0x0230 (d) data))
  ∧ (∀ (h : Hdr) (p : GetProblemResult) (s : State) (q : Problem), look s.dev.solver.problems p.id.toNat = some q →
      Serves 0x0510 4 .both awake h s → Accepted (semGetProblemResult h p) h s →
      exec (.getProblemResult h p) s = .next (answered s h 0x0510 (s.dev.take h)
        (wordBytes q.res.status ++ wordBytes q.res.flags ++ wordBytes q.res.iters ++ wordBytes q.res.lane ++ [0, 0]
          ++ leBytes 8 q.res.ended ++ leBytes 8 q.res.validAt ++ intBytes 4 q.res.residual
          ++ (List.range 12).flatMap (fun i => intBytes 4 (q.res.sol.getD i 0)))))
  ∧ (∀ (h : Hdr) (p : GetProblemDescriptor) (s : State) (q : Problem), look s.dev.solver.problems p.id.toNat = some q →
      Serves 0x0511 4 .both awake h s → Accepted (semGetProblemDescriptor h p) h s →
      exec (.getProblemDescriptor h p) s = .next (answered s h 0x0511 (s.dev.take h) (descriptorBytes q.desc)))
  ∧ (∀ (h : Hdr) (p : GetLaneState) (s : State), Serves 0x0512 4 (.both) awake h s → Accepted (semGetLaneState h p) h s →
      let d := s.dev.take h
      ∃ data : List Byte, data.length = 16 ∧ exec (.getLaneState h p) s = .next (answered s h 0x0512 (d) data))
  ∧ (∀ (h : Hdr) (p : GetPanState) (s : State), Serves 0x0610 4 (.both) awake h s → Accepted (semGetPanState h p) h s →
      let d := s.dev.take h
      ∃ data : List Byte, data.length = 52 ∧ exec (.getPanState h p) s = .next (answered s h 0x0610 (d) data))
  ∧ (∀ (h : Hdr) (p : GetPairResult) (s : State), Serves 0x0611 4 (.both) awake h s → Accepted (semGetPairResult h p) h s →
      let d := s.dev.take h
      ∃ data : List Byte, data.length = 40 ∧ exec (.getPairResult h p) s = .next (answered s h 0x0611 (d) data))
  ∧ (∀ (h : Hdr) (p : GetObjectState) (s : State), Serves 0x0612 4 (.both) awake h s → Accepted (semGetObjectState h p) h s →
      let d := s.dev.take h
      exec (.getObjectState h p) s = .next (answered s h 0x0612 (d) ([(d.objSource p.object.toNat).source, BitVec.ofNat 8 (look d.sep.objs p.object.toNat).phase.code, 0, 0] ++ leBytes 8 (look d.sep.objs p.object.toNat).now.stamp ++ (look d.sep.objs p.object.toNat).now.bytes)))
  ∧ (∀ (h : Hdr) (p : GetInjectionState) (s : State), Serves 0x0402 4 (.both) awake h s → Accepted (semGetInjectionState h p) h s →
      let d := s.dev.take h
      ∃ data : List Byte, data.length = 20 + max 216 (look d.tuning.inj (slotKey p.kind p.index)).record.length ∧ exec (.getInjectionState h p) s = .next (answered s h 0x0402 (d) data))
  ∧ (∀ (h : Hdr) (p : GetCoreState) (s : State), Serves 0x0810 4 (.both) awake h s → Accepted (semGetCoreState h p) h s →
      let d := s.dev.take h
      ∃ data : List Byte, data.length = 24 ∧ exec (.getCoreState h p) s = .next (answered s h 0x0810 (d) data))
  ∧ (∀ (h : Hdr) (p : GetKernelState) (s : State), Serves 0x0811 4 (.both) awake h s → Accepted (semGetKernelState h p) h s →
      let d := s.dev.take h
      ∃ data : List Byte, data.length = 20 ∧ exec (.getKernelState h p) s = .next (answered s h 0x0811 (d) data))
  ∧ (∀ (h : Hdr) (s : State), Serves 0x0910 0 (.both) awake h s → Accepted (semGetDispatchState h) h s →
      let d := s.dev.take h
      ∃ data : List Byte, data.length = 48 ∧ exec (.getDispatchState h) s = .next (answered s h 0x0910 (d) data))
  ∧ (∀ (h : Hdr) (p : GetEventEntry) (s : State), Serves 0x0911 4 (.both) awake h s → Accepted (semGetEventEntry h p) h s →
      let d := s.dev.take h
      ∃ data : List Byte, data.length = 32 ∧ exec (.getEventEntry h p) s = .next (answered s h 0x0911 (d) data))

/-- Reads of deck, capture, PWM, brakes, schedule, pair, safety, channels and journal answer without an effect. Each
served and accepted read of the deck state, the heel state, the capture, a PWM group, a brake, a schedule entry, a
channel set, the pair, the safety state, a fault channel or the journal is answered OK with the bytes of its table,
and nothing but the message bookkeeping changes. Each of these rows completes, exec answering the next state given:
GET_DECK_STATE, GET_HEEL_STATE, GET_CAPTURE_STATE, GET_PWM_STATE, GET_BRAKE_STATE, GET_SCHEDULE_ENTRY, GET_SYNC_STATE,
GET_PAIR_STATE, GET_SAFETY_STATE, GET_CHANNEL_STATE, GET_JOURNAL_STATE. (R306, R372, R393, R395, R435, R458, R494,
R510) -/
def Obligations.PeripheralReadsAnswerAndChangeNothing : Prop :=
  (∀ (h : Hdr) (s : State), Serves 0x0720 0 (.both) awake h s → Accepted (semGetDeckState h) h s →
      let d := s.dev.take h
      exec (.getDeckState h) s = .next (answered s h 0x0720 (d) (d.deck.est.bytes ++ (List.range 16).flatMap (fun a => intBytes 4 (look d.deck.fPred a) ++ leBytes 4 (look d.arms a).sDeck))))
  ∧ (∀ (h : Hdr) (p : GetHeelState) (s : State), Serves 0x0721 4 (.both) awake h s → Accepted (semGetHeelState h p) h s →
      let d := s.dev.take h
      ∃ data : List Byte, data.length = 132 ∧ exec (.getHeelState h p) s = .next (answered s h 0x0721 (d) data))
  ∧ (∀ (h : Hdr) (s : State), Serves 0x0A20 0 (.both) awake h s → Accepted (semGetCaptureState h) h s →
      let d := s.dev.take h
      ∃ data : List Byte, data.length = 44 ∧ exec (.getCaptureState h) s = .next (answered s h 0x0A20 (d) data))
  ∧ (∀ (h : Hdr) (p : GetPwmState) (s : State), Serves 0x0B43 4 (.both) awake h s → Accepted (semGetPwmState h p) h s →
      let d := s.dev.take h
      ∃ data : List Byte, data.length = 23 + 7 * (look d.pwm.groups p.group.toNat).phases.length ∧ exec (.getPwmState h p) s = .next (answered s h 0x0B43 (d) data))
  ∧ (∀ (h : Hdr) (p : GetBrakeState) (s : State), Serves 0x0B51 4 (.both) awake h s → Accepted (semGetBrakeState h p) h s →
      let d := s.dev.take h
      ∃ data : List Byte, data.length = 20 ∧ exec (.getBrakeState h p) s = .next (answered s h 0x0B51 (d) data))
  ∧ (∀ (h : Hdr) (p : GetScheduleEntry) (s : State), Serves 0x0C50 4 (.both) awake h s → Accepted (semGetScheduleEntry h p) h s →
      let d := s.dev.take h
      ∃ data : List Byte, data.length = 10 ∧ exec (.getScheduleEntry h p) s = .next (answered s h 0x0C50 (d) data))
  ∧ (∀ (h : Hdr) (p : GetSyncState) (s : State), Serves 0x0C51 4 (.both) awake h s → Accepted (semGetSyncState h p) h s →
      let d := s.dev.take h
      ∃ data : List Byte, data.length = 40 ∧ exec (.getSyncState h p) s = .next (answered s h 0x0C51 (d) data))
  ∧ (∀ (h : Hdr) (s : State), Serves 0x0D10 0 (.both) awake h s → Accepted (semGetPairState h) h s →
      let d := s.dev.take h
      ∃ data : List Byte, data.length = 44 ∧ exec (.getPairState h) s = .next (answered s h 0x0D10 (d) data))
  ∧ (∀ (h : Hdr) (s : State), Serves 0x0E30 0 (.both) awake h s → Accepted (semGetSafetyState h) h s →
      let d := s.dev.take h
      ∃ data : List Byte, data.length = 24 ∧ exec (.getSafetyState h) s = .next (answered s h 0x0E30 (d) data))
  ∧ (∀ (h : Hdr) (p : GetChannelState) (s : State), Serves 0x0F10 4 (.both) awake h s → Accepted (semGetChannelState h p) h s →
      let d := s.dev.take h
      ∃ data : List Byte, data.length = 28 ∧ exec (.getChannelState h p) s = .next (answered s h 0x0F10 (d) data))
  ∧ (∀ (h : Hdr) (s : State), Serves 0x0F11 0 (.both) awake h s → Accepted (semGetJournalState h) h s →
      let d := s.dev.take h
      ∃ data : List Byte, data.length = 24 ∧ exec (.getJournalState h) s = .next (answered s h 0x0F11 (d) data))

/-- Reads of notices, slots, rates, bus counters, connections and the set check have the effect their rule gives. A served
and accepted GET_NOTICES takes the reported notices out of the queue and clears the lost count; GET_SLOT_STATE clears
the sticky flags of the slot; GET_RATE_STATE clears OVERRUN and CHOP_OPEN; GET_BUS_STATS with clear 1 clears the
counters and with 0 changes nothing; GET_CONN_STATE, GET_SET_CHECK and GET_HIERARCHY_STATE draw free values where the
spec states none and change nothing else. Each of these rows completes, exec answering the next state given:
GET_NOTICES, GET_SLOT_STATE, GET_RATE_STATE, GET_BUS_STATS, GET_CONN_STATE, GET_SET_CHECK, GET_HIERARCHY_STATE. (R114,
R164, R197, R410, R458, R494) -/
def Obligations.ReadsThatClearClearWhatTheyReport : Prop :=
  (∀ (h : Hdr) (p : GetNotices) (s : State), Serves 0x0101 4 (.both) awake h s → Accepted (semGetNotices h p) h s →
      let d := s.dev.take h
      ∃ data : List Byte, data.length = 8 + 16 * (d.host.notices.take p.max.toNat).length ∧ exec (.getNotices h p) s = .next (answered s h 0x0101 (d.onHost (fun x => { x with notices := x.notices.drop p.max.toNat, lost := 0 })) data))
  ∧ (∀ (h : Hdr) (p : GetSlotState) (s : State), Serves 0x0330 4 (.both) awake h s → Accepted (semGetSlotState h p) h s → p.kind = 0 →
      let d := s.dev.take h
      exec (.getSlotState h p) s = .next (answered s h 0x0330 (d.onLoop (fun l => { l with joints := upd l.joints p.index.toNat (fun j => { j with sticky := 0, satSaid := false }) })) (let j := look d.loop.joints p.index.toNat
          let pass := match j.cfg with
            | some c => c.kind == 1
            | none => false
          leBytes 1 (if pass then (if d.power.mode.torque then 0 else 2) else if d.power.mode.loops then (d.slotRun p.index.toNat).code else 2)
            ++ leBytes 1 (bit d.loop.activeB) ++ wordBytes j.sticky ++ intBytes 8 j.last ++ (if pass then [] else d.slotBlocks 0 p.index.toNat))))
  ∧ (∀ (h : Hdr) (p : GetSlotState) (s : State), Serves 0x0330 4 (.both) awake h s → Accepted (semGetSlotState h p) h s → p.kind = 1 →
      let d := s.dev.take h
      exec (.getSlotState h p) s = .next (answered s h 0x0330 ((d.draw 1).onLoop (fun l => { l with arms := upd l.arms p.index.toNat (fun j => { j with sticky := 0, satSaid := false }) })) (leBytes 1 (if d.power.mode.torque then 0 else 2) ++ leBytes 1 (bit d.loop.activeB) ++ wordBytes (look d.loop.arms p.index.toNat).sticky
          ++ wordBytes (Config.freeWord d.fresh 64) ++ d.slotBlocks 1 p.index.toNat)))
  ∧ (∀ (h : Hdr) (p : GetSlotState) (s : State), Serves 0x0330 4 (.both) awake h s → Accepted (semGetSlotState h p) h s → p.kind = 2 →
      let d := s.dev.take h
      exec (.getSlotState h p) s = .next (answered s h 0x0330 ((d.draw 1).onLoop (fun l => { l with currents := upd l.currents p.index.toNat (fun j => { j with sticky := 0, satSaid := false }) })) (leBytes 1 (if d.power.mode.torque then 0 else 2) ++ leBytes 1 (bit d.loop.activeB) ++ wordBytes (look d.loop.currents p.index.toNat).sticky
          ++ wordBytes (Config.freeWord d.fresh 64) ++ d.slotBlocks 2 p.index.toNat)))
  ∧ (∀ (h : Hdr) (p : GetRateState) (s : State), Serves 0x0B02 4 (.both) awake h s → Accepted (semGetRateState h p) h s →
      let d := s.dev.take h
      ∃ data : List Byte, data.length = 26 ∧ exec (.getRateState h p) s = .next (answered s h 0x0B02 (d.onMult p.channel.toNat (fun m => { m with overrun := false, chopOpen := false })) data))
  ∧ (∀ (h : Hdr) (p : GetBusStats) (s : State), Serves 0x0C20 4 (.both) awake h s → Accepted (semGetBusStats h p) h s → p.clear = 1 →
      let d := s.dev.take h
      exec (.getBusStats h p) s = .next (answered s h 0x0C20 (d.onChan p.channel.toNat (fun c => { mode := c.mode, phyAddr := c.phyAddr, linkUp := c.linkUp, area := c.area })) ((look d.bus.chans p.channel.toNat).stats)))
  ∧ (∀ (h : Hdr) (p : GetBusStats) (s : State), Serves 0x0C20 4 (.both) awake h s → Accepted (semGetBusStats h p) h s → p.clear = 0 →
      let d := s.dev.take h
      exec (.getBusStats h p) s = .next (answered s h 0x0C20 (d) ((look d.bus.chans p.channel.toNat).stats)))
  ∧ (∀ (h : Hdr) (p : GetConnState) (s : State), Serves 0x0E31 4 (.both) awake h s → Accepted (semGetConnState h p) h s →
      let d := s.dev.take h
      ∃ data : List Byte, data.length = 16 + 4 * (look d.safety.conns p.conn.toNat).rejects.length ∧ exec (.getConnState h p) s = .next (answered s h 0x0E31 (d.draw 1) data))
  ∧ (∀ (h : Hdr) (s : State), Serves 0x0E10 0 (.both) awake h s → Accepted (semGetSetCheck h) h s →
      let d := s.dev.take h
      ∃ data : List Byte, data.length = 16 ∧ exec (.getSetCheck h) s = .next (answered s h 0x0E10 (d.draw 1) data))
  ∧ (∀ (h : Hdr) (s : State), Serves 0x0D11 0 (.both) awake h s → Accepted (semGetHierarchyState h) h s →
      let d := s.dev.take h
      ∃ data : List Byte, data.length = 192 ∧ exec (.getHierarchyState h) s = .next (answered s h 0x0D11 (d.draw 16) data))

/-- The system commands of class 0x01 have the effect of their rule. Served and accepted: SET_HOST_WATCHDOG sets the
period, the action and the deadline stamp + period (none at 0); SET_MODE puts a pending transition with its stamp and
effect boundary last in the queue and answers both; SET_WAKE keeps its parameters; SET_DOMAINS and DEVICE_RESET wait
for their boundary; SET_TIMING joins the pending timings with its boundary, which it answers; SET_POLICY configures
the level; RUN_SELFTEST starts the tests and is answered later. Each of these rows completes, exec answering the next
state given: SET_HOST_WATCHDOG, SET_MODE, SET_WAKE, SET_DOMAINS, DEVICE_RESET, SET_TIMING, SET_POLICY, RUN_SELFTEST.
(R50, R60, R64, R65, R66, R67, R86, R106, R114, R528) -/
def Obligations.SystemCommandsTakeEffect : Prop :=
  (∀ (h : Hdr) (p : SetHostWatchdog) (s : State), Serves 0x0102 8 (.hostOnly) [.ready, .commission, .safeOff] h s → Accepted (semSetHostWatchdog h p) h s →
      let d := s.dev.take h
      exec (.setHostWatchdog h p) s = .next (answered s h 0x0102 (d.onHost (fun x => { x with wd := { period := p.period.toNat, action := p.action, deadline := if p.period = 0 then none else some (h.stamp + p.period.toNat) } })) ([])))
  ∧ (∀ (h : Hdr) (p : SetMode) (s : State), Serves 0x0110 4 (.write 816 true (p.target == 6)) awake h s → Accepted (semSetMode h p) h s →
      let d := s.dev.take h
      exec (.setMode h p) s = .next (answered s h 0x0110 (d.onPower (fun x => { x with
        pending := x.pending ++ [{ target := Mode.ofCode p.target.toNat, stamp := h.stamp, effB := d.effectAt h.stamp, state := .pending }]
        latest := some { target := Mode.ofCode p.target.toNat, stamp := h.stamp, effB := d.effectAt h.stamp, state := .pending } })) (leBytes 8 h.stamp ++ leBytes 8 (d.effectAt h.stamp))))
  ∧ (∀ (h : Hdr) (p : SetWake) (s : State), Serves 0x0111 12 (.hostOnly) [.ready, .safeOff] h s → Accepted (semSetWake h p) h s →
      let d := s.dev.take h
      exec (.setWake h p) s = .next (answered s h 0x0111 (d.onPower (fun x => { x with wake := p })) ([])))
  ∧ (∀ (h : Hdr) (p : SetDomains) (s : State), Serves 0x0112 4 (.hostOnly) [.ready] h s → Accepted (semSetDomains h p) h s →
      let d := s.dev.take h
      exec (.setDomains h p) s = .next (answered s h 0x0112 (d.await h.stamp (.setDomains h p)) ([])))
  ∧ (∀ (h : Hdr) (p : DeviceReset) (s : State), Serves 0x0117 4 (.write 818 true true) [.ready, .safeOff] h s → Accepted (semDeviceReset h p) h s →
      let d := s.dev.take h
      exec (.deviceReset h p) s = .next (answered s h 0x0117 (d.await h.stamp (.deviceReset h p)) ([])))
  ∧ (∀ (h : Hdr) (p : SetTiming) (s : State), Serves 0x0120 4 (.hostOnly) [.ready] h s → Accepted (semSetTiming h p) h s →
      let d := s.dev.take h
      exec (.setTiming h p) s = .next (answered s h 0x0120 (d.onTime (fun x => { x with pending := x.pending ++ [{ effB := d.effectAt h.stamp, tc := tcOfCode p.tc.toNat, nSep := p.nSep.toNat }] })) (leBytes 8 (d.effectAt h.stamp))))
  ∧ (∀ (h : Hdr) (p : SetPolicy) (s : State), Serves 0x0121 4 (.hostOnly) [.commission] h s → Accepted (semSetPolicy h p) h s →
      let d := s.dev.take h
      exec (.setPolicy h p) s = .next (answered s h 0x0121 (d.onTime (fun x => { x with policy := if p.level = 1 then .autonomous else .mechanism })) ([])))
  ∧ (∀ (h : Hdr) (p : RunSelftest) (s : State), Serves 0x0123 4 (.write 819 false true) [.ready] h s → Accepted (semRunSelftest h p) h s →
      let d := s.dev.take h
      exec (.runSelftest h p) s = .next (s.after (d.onHost (fun x => { x with selftest := some { hdr := h, blocks := p.blocks, stamp := h.stamp } }))))

/-- FUSE_PROGRAM and ADVANCE_ROLLBACK blow exactly the bits their rule names. A served and accepted FUSE_PROGRAM blows the
bits of its mask in its row and counts one programming; a served ADVANCE_ROLLBACK blows the bits from C up to the
security version of the running image in the ROLLBACK row and in both shadow rows. Everything else but the message
bookkeeping is unchanged. Served or not, no message of either heals a blown fuse. Each of these rows completes, exec
answering the next state given: FUSE_PROGRAM, ADVANCE_ROLLBACK. (R78, R81, R86) -/
def Obligations.FuseCommandsBlowTheirBits : Prop :=
  (∀ (h : Hdr) (p : FuseProgram) (s : State), Serves 0x0119 12 (.write 822 false true) [.ready, .safeOff] h s → Accepted (semFuseProgram h p) h s →
      let d := s.dev.take h
      exec (.fuseProgram h p) s = .next (answered s h 0x0119 (d.onFuses (fun f => { f with
        rows := f.rows.modify p.row.toNat (· ||| p.mask)
        programmed := f.programmed.modify p.row.toNat (· + 1) })) ([])))
  ∧ (∀ (h : Hdr) (s : State), Serves 0x0116 0 (.bothUnless 822) [.commission] h s → Accepted (semAdvanceRollback h) h s →
      let d := s.dev.take h
      exec (.advanceRollback h) s = .next (answered s h 0x0116 (d.onFuses (fun f =>
        let m : BitVec 64 := BitVec.ofNat 64 ((2 ^ (d.boot.image.secver.toNat - d.rollback) - 1) * 2 ^ d.rollback)
        { f with rows := f.rows.modify 10 (· ||| m), shadow0 := f.shadow0 ||| m, shadow1 := f.shadow1 ||| m })) ([])))
  ∧ (∀ (h : Hdr) (p : FuseProgram) (s t : State), exec (.fuseProgram h p) s = .next t → FusesKept s t)
  ∧ (∀ (h : Hdr) (s t : State), exec (.advanceRollback h) s = .next t → FusesKept s t)

/-- The arm commands of class 0x02 wait for their boundary or join the move queue. Served and accepted, CONFIG_ARM,
SET_JOINT_LIMITS, SET_SCALING, STOP_ARMS, RESUME_ARMS and FLUSH_QUEUE wait for the effect boundary of their stamp
(R23) and are answered OK; APPEND_JOINT_MOVE and APPEND_CART_MOVE append to the arm a move with its fractions, blend
time, target, stamp, sequence and the boundary from which it is eligible. Each of these rows completes, exec answering
the next state given: CONFIG_ARM, SET_JOINT_LIMITS, SET_SCALING, STOP_ARMS, RESUME_ARMS, FLUSH_QUEUE,
APPEND_JOINT_MOVE, APPEND_CART_MOVE. (R23, R119, R120, R136, R137, R138, R139, R140, R141, R142, R143, R144) -/
def Obligations.ArmCommandsQueueTheirEffect : Prop :=
  (∀ (h : Hdr) (p : ConfigArm) (s : State), Serves 0x0200 24 (.hostOnly) [.ready] h s → Accepted (semConfigArm h p) h s →
      let d := s.dev.take h
      exec (.configArm h p) s = .next (answered s h 0x0200 (d.await h.stamp (.configArm h p)) ([])))
  ∧ (∀ (h : Hdr) (p : SetJointLimits) (s : State), Serves 0x0201 28 (.hostOnly) [.ready] h s → Accepted (semSetJointLimits h p) h s →
      let d := s.dev.take h
      exec (.setJointLimits h p) s = .next (answered s h 0x0201 (d.await h.stamp (.setJointLimits h p)) ([])))
  ∧ (∀ (h : Hdr) (p : SetScaling) (s : State), Serves 0x0202 8 (.hostOnly) [.ready, .run, .hold, .tune] h s → Accepted (semSetScaling h p) h s →
      let d := s.dev.take h
      exec (.setScaling h p) s = .next (answered s h 0x0202 (d.await h.stamp (.setScaling h p)) ([])))
  ∧ (∀ (h : Hdr) (p : StopArms) (s : State), Serves 0x0220 4 (.hostOnly) [.run, .hold] h s → Accepted (semStopArms h p) h s →
      let d := s.dev.take h
      exec (.stopArms h p) s = .next (answered s h 0x0220 (d.await h.stamp (.stopArms h p)) ([])))
  ∧ (∀ (h : Hdr) (p : ResumeArms) (s : State), Serves 0x0221 4 (.hostOnly) [.run] h s → Accepted (semResumeArms h p) h s →
      let d := s.dev.take h
      exec (.resumeArms h p) s = .next (answered s h 0x0221 (d.await h.stamp (.resumeArms h p)) ([])))
  ∧ (∀ (h : Hdr) (p : FlushQueue) (s : State), Serves 0x0222 4 (.hostOnly) [.ready, .run, .hold, .safeOff] h s → Accepted (semFlushQueue h p) h s →
      let d := s.dev.take h
      exec (.flushQueue h p) s = .next (answered s h 0x0222 (d.await h.stamp (.flushQueue h p)) ([])))
  ∧ (∀ (h : Hdr) (p : AppendJointMove) (s : State), Serves 0x0210 112 (.hostOnly) [.ready, .run, .hold] h s → Accepted (semAppendJointMove h p) h s →
      let d := s.dev.take h
      exec (.appendJointMove h p) s = .next (answered s h 0x0210 (d.append p.arm.toNat { notify := p.flags.getLsbD 0, id := p.id, vfrac := p.vfrac.toNat, afrac := p.afrac.toNat, blend := p.blend.toNat, stamp := h.stamp, seq := h.seq, effB := d.effectAt h.stamp, goal := .joint ((p.targets.take (armJoints (d.armView p.arm.toNat)).length).map BitVec.toInt) }) ([])))
  ∧ (∀ (h : Hdr) (p : AppendCartMove) (s : State), Serves 0x0211 48 (.hostOnly) [.ready, .run, .hold] h s → Accepted (semAppendCartMove h p) h s →
      let d := s.dev.take h
      exec (.appendCartMove h p) s = .next (answered s h 0x0211 (d.append p.arm.toNat { notify := p.flags.getLsbD 0, id := p.id, vfrac := p.vfrac.toNat, afrac := p.afrac.toNat, blend := p.blend.toNat, stamp := h.stamp, seq := h.seq, effB := d.effectAt h.stamp, goal := .cart p.frame [p.x.toInt, p.y.toInt, p.z.toInt] [p.qw.toInt, p.qx.toInt, p.qy.toInt, p.qz.toInt] }) ([])))

/-- The loop and injection commands have the effect of their rule. Served and accepted: the three slot configurations
stamp the slot and wait for their boundary; SET_ARM_TARGET, SET_SLOT_MODE and STOP_INJECTION wait; LOAD_BANK puts its
record into the inactive bank with its stamp, COPY_BANK copies the active bank, SWAP_BANKS records the swap with its
boundary, which it answers; START_INJECTION of a slot without a running injection makes it pending; SET_RETUNE_BOUNDS
keeps its bounds. Each of these rows completes, exec answering the next state given: CONFIG_JOINT_SLOT,
CONFIG_ARM_SLOT, CONFIG_CURRENT_SLOT, SET_ARM_TARGET, SET_SLOT_MODE, LOAD_BANK, LOAD_BANK_BLOCK, COPY_BANK,
SWAP_BANKS, START_INJECTION, STOP_INJECTION, SET_RETUNE_BOUNDS. (R177, R178, R190, R191, R192, R193, R194, R195, R196,
R208, R210, R211) -/
def Obligations.LoopAndTuningCommandsTakeEffect : Prop :=
  (∀ (h : Hdr) (p : ConfigJointSlot) (s : State), Serves 0x0300 16 (.hostOnly) [.ready] h s → Accepted (semConfigJointSlot h p) h s →
      let d := s.dev.take h
      exec (.configJointSlot h p) s = .next (answered s h 0x0300 ((d.onLoop (fun l => { l with joints := upd l.joints p.joint.toNat (fun x => { x with cfgStamp := h.stamp }) })).await h.stamp (.configJointSlot h p)) ([])))
  ∧ (∀ (h : Hdr) (p : ConfigArmSlot) (s : State), Serves 0x0301 12 (.hostOnly) [.ready] h s → Accepted (semConfigArmSlot h p) h s →
      let d := s.dev.take h
      exec (.configArmSlot h p) s = .next (answered s h 0x0301 ((d.onLoop (fun l => { l with arms := upd l.arms p.arm.toNat (fun x => { x with cfgStamp := h.stamp }) })).await h.stamp (.configArmSlot h p)) ([])))
  ∧ (∀ (h : Hdr) (p : ConfigCurrentSlot) (s : State), Serves 0x0302 24 (.hostOnly) [.ready] h s → Accepted (semConfigCurrentSlot h p) h s →
      let d := s.dev.take h
      exec (.configCurrentSlot h p) s = .next (answered s h 0x0302 ((d.onLoop (fun l => { l with currents := upd l.currents p.group.toNat (fun x => { x with cfgStamp := h.stamp }) })).await h.stamp (.configCurrentSlot h p)) ([])))
  ∧ (∀ (h : Hdr) (p : SetArmTarget) (s : State), Serves 0x0303 28 (.hostOnly) [.run, .hold, .tune] h s → Accepted (semSetArmTarget h p) h s →
      let d := s.dev.take h
      exec (.setArmTarget h p) s = .next (answered s h 0x0303 (d.await h.stamp (.setArmTarget h p)) ([])))
  ∧ (∀ (h : Hdr) (p : SetSlotMode) (s : State), Serves 0x0320 8 (.hostOnly) [.run, .tune] h s → Accepted (semSetSlotMode h p) h s →
      let d := s.dev.take h
      exec (.setSlotMode h p) s = .next (answered s h 0x0320 (d.await h.stamp (.setSlotMode h p)) ([])))
  ∧ (∀ (h : Hdr) (p : LoadBank) (s : State), Serves 0x0310 (4 + recordSize p.kind.toNat) (.hostOnly) bankModes h s → Accepted (semLoadBank h p) h s → p.kind.toNat ≤ 2 →
      let d := s.dev.take h
      exec (.loadBank h p) s = .next (answered s h 0x0310 (d.onLoop (fun l => l.load (256 * p.kind.toNat + p.index.toNat) { bytes := p.record, stamp := some h.stamp })) ([])))
  ∧ (∀ (h : Hdr) (p : LoadBankBlock) (s : State), Serves 0x0311 16 (.hostOnly) bankModes h s → Accepted (semLoadBankBlock h p) h s →
      let d := s.dev.take h
      exec (.loadBankBlock h p) s = .next (answered s h 0x0311 (d.onLoop (fun l => (chunks 224 p.count.toNat (d.blockBytes p.offset p.length)).foldl (fun l e =>
        l.load (256 * (rd 8 e 0).toNat + (rd 8 e 1).toNat) { bytes := part e 4 (recordSize (rd 8 e 0).toNat), stamp := some h.stamp }) l)) ([])))
  ∧ (∀ (h : Hdr) (s : State), Serves 0x0312 0 (.hostOnly) bankModes h s → Accepted (semCopyBank h) h s →
      let d := s.dev.take h
      exec (.copyBank h) s = .next (answered s h 0x0312 (d.onLoop Loop.copy) ([])))
  ∧ (∀ (h : Hdr) (p : SwapBanks) (s : State), Serves 0x0313 4 (.hostOnly) bankModes h s → Accepted (semSwapBanks h p) h s →
      let d := s.dev.take h
      exec (.swapBanks h p) s = .next (answered s h 0x0313 (d.onLoop (fun l => { l with swap := some (d.effectAt h.stamp, p.preset == 1) })) (leBytes 8 (d.effectAt h.stamp))))
  ∧ (∀ (h : Hdr) (p : StartInjection) (s : State), Serves 0x0400 96 (.hostOnly) [.tune] h s → Accepted (semStartInjection h p) h s → (look s.dev.tuning.inj (slotKey p.kind p.index)).phase ≠ .running →
      let d := s.dev.take h
      exec (.startInjection h p) s = .next (answered s h 0x0400 ((d.onTuning (fun x => { x with inj := put x.inj (slotKey p.kind p.index) { p := p, phase := .pending, effB := d.effectAt h.stamp } })).await h.stamp (.startInjection h p)) ([])))
  ∧ (∀ (h : Hdr) (p : StopInjection) (s : State), Serves 0x0401 4 (.hostOnly) [.tune] h s → Accepted (semStopInjection h p) h s →
      let d := s.dev.take h
      exec (.stopInjection h p) s = .next (answered s h 0x0401 (d.await h.stamp (.stopInjection h p)) ([])))
  ∧ (∀ (h : Hdr) (p : SetRetuneBounds) (s : State), Serves 0x0410 36 (.hostOnly) [.ready, .hold, .tune] h s → Accepted (semSetRetuneBounds h p) h s →
      let d := s.dev.take h
      exec (.setRetuneBounds h p) s = .next (answered s h 0x0410 (d.onTuning (fun u => { u with bounds := put u.bounds p.joint.toNat (some p) })) ([])))

/-- The problem, kernel, dispatch and trace commands have the effect of their rule. Served and accepted: DEFINE_PROBLEM,
REMOVE_PROBLEM, SET_PROBLEM_INPUT, REMOVE_KERNEL, ASSIGN_VENDOR and SET_TRACE wait for their boundary; LOAD_KERNEL
waits with the block it copied; RUN_KERNEL marks the kernel pending and waits, and is answered BUSY with its source
pressed where the kernel is pending or running or has a task that waits; TRACE_MARK writes a MARK record at its stamp;
CANCEL_TASK waits for its dispatch cycle, which begins at most 1 µs after the stamp, and is answered there: in that
cycle no task gives NONE, a waiting one ANNULLED or CANCELLED as it may be ready or not, a ready one ANNULLED where it
became ready in this cycle and CANCELLED before, a running one STOPPED. Each of these rows completes, exec answering
the next state given: DEFINE_PROBLEM, REMOVE_PROBLEM, SET_PROBLEM_INPUT, LOAD_KERNEL, REMOVE_KERNEL, RUN_KERNEL,
ASSIGN_VENDOR, SET_TRACE, TRACE_MARK, CANCEL_TASK. (R239, R330, R331, R346, R348, R349, R350) -/
def Obligations.SolverAndKernelCommandsTakeEffect : Prop :=
  (∀ (h : Hdr) (p : DefineProblem) (s : State), Serves 0x0500 48 (.hostOnly) [.ready] h s → Accepted (semDefineProblem h p) h s →
      let d := s.dev.take h
      exec (.defineProblem h p) s = .next (answered s h 0x0500 (d.await h.stamp (.defineProblem h p)) ([])))
  ∧ (∀ (h : Hdr) (p : RemoveProblem) (s : State), Serves 0x0501 4 (.hostOnly) [.ready] h s → Accepted (semRemoveProblem h p) h s →
      let d := s.dev.take h
      exec (.removeProblem h p) s = .next (answered s h 0x0501 (d.await h.stamp (.removeProblem h p)) ([])))
  ∧ (∀ (h : Hdr) (p : SetProblemInput) (s : State) (q : DefineProblem), s.dev.problemView p.id.toNat = some q →
      Serves 0x0502 (4 + 4 * inputWords q.n.toNat) .hostOnly [.commission, .ready, .run, .tune, .hold, .safeOff] h s →
      Accepted (semSetProblemInput h p s.dev) h s →
      exec (.setProblemInput h p) s = .next (answered s h 0x0502 ((s.dev.take h).await h.stamp (.setProblemInput h p)) []))
  ∧ (∀ (h : Hdr) (p : LoadKernel) (s : State), Serves 0x0800 28 (.hostOnly) [.ready] h s → Accepted (semLoadKernel h p) h s →
      let d := s.dev.take h
      exec (.loadKernel h p) s = .next (answered s h 0x0800 (d.awaitBlock h.stamp (.loadKernel h p) (d.blockBytes p.offset p.length)) ([])))
  ∧ (∀ (h : Hdr) (p : RemoveKernel) (s : State), Serves 0x0801 4 (.hostOnly) [.ready] h s → Accepted (semRemoveKernel h p) h s →
      let d := s.dev.take h
      exec (.removeKernel h p) s = .next (answered s h 0x0801 (d.await h.stamp (.removeKernel h p)) ([])))
  ∧ (∀ (h : Hdr) (p : RunKernel) (s : State), Serves 0x0802 4 (.hostOnly) working h s → Accepted (semRunKernel h p) h s → ((look (s.dev.take h).sig.kernels p.slot.toNat).pending || (look (s.dev.take h).sig.kernels p.slot.toNat).running || (s.dev.take h).pressedNow (0x700 + p.slot.toNat)) = false →
      let d := s.dev.take h
      exec (.runKernel h p) s = .next (answered s h 0x0802 ((d.onSig (fun x => { x with kernels := upd x.kernels p.slot.toNat (fun k => { k with pending := true }) })).await h.stamp (.runKernel h p)) ([])))
  ∧ (∀ (h : Hdr) (p : RunKernel) (s : State), Serves 0x0802 4 .hostOnly working h s → Accepted (semRunKernel h p) h s →
      ((look (s.dev.take h).sig.kernels p.slot.toNat).pending || (look (s.dev.take h).sig.kernels p.slot.toNat).running || (s.dev.take h).pressedNow (0x700 + p.slot.toNat)) = true →
      exec (.runKernel h p) s = .next (s.after (((s.dev.take h).pressHostRun h.stamp (0x700 + p.slot.toNat)).reply h 0x0802 .busy [])))
  ∧ (∀ (h : Hdr) (p : AssignVendor) (s : State), Serves 0x0803 8 (.hostOnly) [.ready, .safeOff] h s → Accepted (semAssignVendor h p) h s →
      let d := s.dev.take h
      exec (.assignVendor h p) s = .next (answered s h 0x0803 (d.await h.stamp (.assignVendor h p)) ([])))
  ∧ (∀ (h : Hdr) (p : SetTrace) (s : State), Serves 0x0900 8 (.write 820 true true) working h s → Accepted (semSetTrace h p) h s →
      let d := s.dev.take h
      exec (.setTrace h p) s = .next (answered s h 0x0900 (d.await h.stamp (.setTrace h p)) ([])))
  ∧ (∀ (h : Hdr) (p : TraceMark) (s : State), Serves 0x0901 4 (.write 820 true true) awake h s → Accepted (semTraceMark h p) h s →
      let d := s.dev.take h
      exec (.traceMark h p) s = .next (answered s h 0x0901 (d.trace h.stamp 0x0D p.mark 0 0 0) ([])))
  ∧ (∀ (h : Hdr) (p : CancelTask) (s : State), Serves 0x0920 4 (.hostOnly) working h s → Accepted (semCancelTask h p) h s →
      let d := s.dev.take h
      exec (.cancelTask h p) s = .next (s.after ((d.draw 1).onDisp (fun x => { x with cancels := x.cancels ++
        [{ hdr := h, entry := if p.kind = 0 then 0x600 + p.id.toNat else 0x700 + p.id.toNat, cycle := h.stamp + Config.freeNat d.fresh % 1025 }] }))))
  ∧ (∀ (d : Dev) (q : CancelReq) (x : Task), let answer := fun (y : Dev) (n : Nat) => y.reply q.hdr 0x0920 .ok (leBytes 1 n ++ [0, 0, 0] ++ leBytes 8 q.cycle)
      (d.taskOf q.entry = none → d.applyCancel q = answer d 0)
      ∧ (d.taskOf q.entry = some x → x.phase = .waiting → d.mayBeReady x = true →
          d.applyCancel q = answer ((d.traceEntry q.cycle 0x02 q.entry 0 8).removeTask q.cycle x 8) 2)
      ∧ (d.taskOf q.entry = some x → x.phase = .waiting → d.mayBeReady x = false → d.applyCancel q = answer (d.removeTask q.cycle x 0) 1)
      ∧ (d.taskOf q.entry = some x → x.phase = .ready → (x.readyAt ≠ q.cycle ∨ x.preempted = true) →
          d.applyCancel q = answer (d.removeTask q.cycle x 0) 1)
      ∧ (d.taskOf q.entry = some x → x.phase = .ready → x.readyAt = q.cycle → x.preempted = false →
          d.applyCancel q = answer ((d.onDisp (fun y => { y with trace := y.trace.annul q.entry q.cycle })).removeTask q.cycle x 8) 2)
      ∧ (d.taskOf q.entry = some x → x.phase = .running → d.applyCancel q = answer (d.removeTask q.cycle x 0) 3))

/-- The commands of the safety parameter set edit the candidate set and nothing else. Served and accepted, each item
command of the safety set puts its bytes into the candidate set under its opcode and key (an empty item is removed), a
block command puts one item for each record of its block, LOAD_SET_IMAGE replaces the candidate by the set of its
image, DISCARD_CHANGES makes it the committed set, and SAVE_SET_IMAGE writes the image of the committed set to MEMB
and answers its length and check value. Each of these rows completes, exec answering the next state given:
CONFIG_SEPARATION, DEFINE_PAN, SET_PARAM_SET, LOAD_SAFETY_KINEMATICS, LOAD_CAPSULES, LOAD_PAIRS, LOAD_ISLAND,
SET_OBJECT_SOURCE, LOAD_SET_IMAGE, DISCARD_CHANGES, SAVE_SET_IMAGE. (R258, R259, R260, R261, R267, R274, R280, R281,
R486, R490, R492) -/
def Obligations.SafetySetCommandsEditTheCandidate : Prop :=
  (∀ (h : Hdr) (p : ConfigSeparation) (s : State), Serves 0x0600 8 (.hostOnly) [.commission] h s → Accepted (semConfigSeparation h p) h s →
      let d := s.dev.take h
      exec (.configSeparation h p) s = .next (answered s h 0x0600 (d.putItem 0x0600 0 (bytesConfigSeparation p)) ([])))
  ∧ (∀ (h : Hdr) (p : DefinePan) (s : State), Serves 0x0601 4 (.hostOnly) [.commission] h s → Accepted (semDefinePan h p) h s →
      let d := s.dev.take h
      exec (.definePan h p) s = .next (answered s h 0x0601 (d.putItem 0x0601 p.pan.toNat (if p.arms = 0 then [] else bytesDefinePan p)) ([])))
  ∧ (∀ (h : Hdr) (p : SetParamSet) (s : State), Serves 0x0602 36 (.hostOnly) [.commission] h s → Accepted (semSetParamSet h p) h s →
      let d := s.dev.take h
      exec (.setParamSet h p) s = .next (answered s h 0x0602 (d.putItem 0x0602 p.set.toNat (bytesSetParamSet p)) ([])))
  ∧ (∀ (h : Hdr) (p : LoadSafetyKinematics) (s : State), Serves 0x0603 16 (.hostOnly) [.commission] h s → Accepted (semLoadSafetyKinematics h p) h s →
      let d := s.dev.take h
      exec (.loadSafetyKinematics h p) s = .next (answered s h 0x0603 ((chunks 512 p.count.toNat (d.blockBytes p.offset p.length)).foldl (fun d r => d.putItem 0x0603 (rd 8 r 0).toNat (r.take (32 + 40 * (rd 8 r 1).toNat))) d) ([])))
  ∧ (∀ (h : Hdr) (p : LoadCapsules) (s : State), Serves 0x0604 16 (.hostOnly) [.commission] h s → Accepted (semLoadCapsules h p) h s →
      let d := s.dev.take h
      exec (.loadCapsules h p) s = .next (answered s h 0x0604 ((chunks 32 p.count.toNat (d.blockBytes p.offset p.length)).foldl (fun d r => d.putItem 0x0604 (rd 8 r 0).toNat r) d) ([])))
  ∧ (∀ (h : Hdr) (p : LoadPairs) (s : State), Serves 0x0605 16 (.hostOnly) [.commission] h s → Accepted (semLoadPairs h p) h s →
      let d := s.dev.take h
      exec (.loadPairs h p) s = .next (answered s h 0x0605 (((rdWords 64 (d.blockBytes p.offset p.length)).zipIdx).foldl (fun d e => d.putItem 0x0605 (p.first.toNat + e.2) (if e.1 = 0 then [] else wordBytes e.1)) d) ([])))
  ∧ (∀ (h : Hdr) (p : LoadIsland) (s : State), Serves 0x0606 16 (.hostOnly) [.commission] h s → Accepted (semLoadIsland h p) h s →
      let d := s.dev.take h
      exec (.loadIsland h p) s = .next (answered s h 0x0606 (d.putItem 0x0606 0 (wordBytes p.spheres ++ wordBytes p.pairs ++ d.blockBytes p.offset p.length)) ([])))
  ∧ (∀ (h : Hdr) (p : SetObjectSource) (s : State), Serves 0x0607 12 (.hostOnly) [.commission, .ready] h s → Accepted (semSetObjectSource h p) h s → s.dev.power.mode = .ready →
      let d := s.dev.take h
      exec (.setObjectSource h p) s = .next (answered s h 0x0607 (d.await h.stamp (.setObjectSource h p)) ([])))
  ∧ (∀ (h : Hdr) (p : SetObjectSource) (s : State), Serves 0x0607 12 (.hostOnly) [.commission, .ready] h s → Accepted (semSetObjectSource h p) h s → s.dev.power.mode ≠ .ready →
      let d := s.dev.take h
      exec (.setObjectSource h p) s = .next (answered s h 0x0607 ((d.putItem 0x0607 p.object.toNat (if p.source = 1 then bytesSetObjectSource p else [])).onSep (fun x => { x with hintsNext := x.hintsNext ++ [p] })) ([])))
  ∧ (∀ (h : Hdr) (p : LoadSetImage) (s : State), Serves 0x0E13 12 (.hostOnly) [.commission] h s → Accepted (semLoadSetImage h p) h s →
      let d := s.dev.take h
      exec (.loadSetImage h p) s = .next (answered s h 0x0E13 (d.onSafety (fun x => { x with candidate := (d.imageSet (d.blockBytes p.offset p.length)).getD x.candidate })) ([])))
  ∧ (∀ (h : Hdr) (s : State), Serves 0x0E12 0 (.hostOnly) [.commission] h s → Accepted (semDiscardChanges h) h s →
      let d := s.dev.take h
      exec (.discardChanges h) s = .next (answered s h 0x0E12 ((d.onSafety (fun x => { x with candidate := x.committed })).onSep (fun x => { x with hintsNext := [] })) ([])))
  ∧ (∀ (h : Hdr) (p : SaveSetImage) (s : State), Serves 0x0E14 4 (.hostOnly) [.ready, .safeOff, .commission] h s → Accepted (semSaveSetImage h p) h s →
      let d := s.dev.take h
      exec (.saveSetImage h p) s = .next (answered s h 0x0E14 (d.onHost (fun x => { x with memB := memWrite x.memB p.offset.toNat d.safety.committed.image })) (leBytes 4 d.safety.committed.image.length ++ wordBytes d.safety.committed.check)))

/-- The items of the safety functions go into the candidate set; COMMIT_SET puts it in force. Served and accepted in
COMMISSION, CONFIG_SIN_PAIR, CONFIG_STOPS, CONFIG_SLS, CONFIG_STO_EDM, CONFIG_SBC, CONFIG_SSM_REACTION, SET_EXPORT and
CONFIG_SAFETY_CONN put their bytes into the candidate set. COMMIT_SET of a set without an invalid entry commits it.
BRAKE_TEST starts the test, which is answered when it ends. In the ARBITER role CONFIG_SAFETY_CONN is in force at once
(log entry 73, the model's reading). Each of these rows completes, exec answering the next state given: SET_EXPORT,
CONFIG_SIN_PAIR, CONFIG_STOPS, CONFIG_SLS, CONFIG_STO_EDM, CONFIG_SBC, CONFIG_SSM_REACTION, CONFIG_SAFETY_CONN,
COMMIT_SET, BRAKE_TEST. (R438, R478, R486, R489, R490, R491) -/
def Obligations.SafetyFunctionItemsEditTheCandidate : Prop :=
  (∀ (h : Hdr) (p : SetExport) (s : State), Serves 0x0D05 48 .hostOnly [.commission] h s → Accepted (semSafetyItem h 0x0D05 48 0 (fun _ => rangeSetExport p) (bytesSetExport p)) h s →
      exec (.setExport h p) s = .next (answered s h 0x0D05 ((s.dev.take h).putItem 0x0D05 0 (bytesSetExport p)) []))
  ∧ (∀ (h : Hdr) (p : ConfigSinPair) (s : State), Serves 0x0E00 8 .hostOnly [.commission] h s → Accepted (semSafetyItem h 0x0E00 8 p.pair.toNat (fun _ => rangeConfigSinPair p) (bytesConfigSinPair p)) h s →
      exec (.configSinPair h p) s = .next (answered s h 0x0E00 ((s.dev.take h).putItem 0x0E00 p.pair.toNat (bytesConfigSinPair p)) []))
  ∧ (∀ (h : Hdr) (p : ConfigStops) (s : State), Serves 0x0E01 24 .hostOnly [.commission] h s → Accepted (semSafetyItem h 0x0E01 24 0 (fun d => rangeConfigStops d.time.tc p) (bytesConfigStops p)) h s →
      exec (.configStops h p) s = .next (answered s h 0x0E01 ((s.dev.take h).putItem 0x0E01 0 (bytesConfigStops p)) []))
  ∧ (∀ (h : Hdr) (p : ConfigSls) (s : State), Serves 0x0E02 580 .hostOnly [.commission] h s → Accepted (semSafetyItem h 0x0E02 580 0 (fun _ => rangeConfigSls p) (bytesConfigSls p)) h s →
      exec (.configSls h p) s = .next (answered s h 0x0E02 ((s.dev.take h).putItem 0x0E02 0 (bytesConfigSls p)) []))
  ∧ (∀ (h : Hdr) (p : ConfigStoEdm) (s : State), Serves 0x0E03 16 .hostOnly [.commission] h s → Accepted (semSafetyItem h 0x0E03 16 0 (fun _ => rangeConfigStoEdm p) (bytesConfigStoEdm p)) h s →
      exec (.configStoEdm h p) s = .next (answered s h 0x0E03 ((s.dev.take h).putItem 0x0E03 0 (bytesConfigStoEdm p)) []))
  ∧ (∀ (h : Hdr) (p : ConfigSbc) (s : State), Serves 0x0E04 8 .hostOnly [.commission] h s → Accepted (semSafetyItem h 0x0E04 8 0 (fun _ => rangeConfigSbc p) (bytesConfigSbc p)) h s →
      exec (.configSbc h p) s = .next (answered s h 0x0E04 ((s.dev.take h).putItem 0x0E04 0 (bytesConfigSbc p)) []))
  ∧ (∀ (h : Hdr) (p : ConfigSsmReaction) (s : State), Serves 0x0E06 4 .hostOnly [.commission] h s → Accepted (semSafetyItem h 0x0E06 4 p.pan.toNat (fun _ => rangeConfigSsmReaction p) (bytesConfigSsmReaction p)) h s →
      exec (.configSsmReaction h p) s = .next (answered s h 0x0E06 ((s.dev.take h).putItem 0x0E06 p.pan.toNat (bytesConfigSsmReaction p)) []))
  ∧ (∀ (h : Hdr) (p : ConfigSafetyConn) (s : State), s.dev.isArbiter = false → Serves 0x0E05 20 .hostOnly [.commission] h s →
      Accepted (semConfigSafetyConn h p false) h s →
      exec (.configSafetyConn h p) s
        = .next (answered s h 0x0E05 ((s.dev.take h).putItem 0x0E05 p.conn.toNat (if p.dir = 0 then [] else bytesConfigSafetyConn p)) []))
  ∧ (∀ (h : Hdr) (p : ConfigSafetyConn) (s : State), s.dev.isArbiter = true → Serves 0x0E05 20 .hostOnly [.ready] h s →
      Accepted (semConfigSafetyConn h p true) h s →
      let b := if p.dir = 0 then [] else bytesConfigSafetyConn p
      exec (.configSafetyConn h p) s
        = .next (answered s h 0x0E05 (((s.dev.take h).putItem 0x0E05 p.conn.toNat b).onSafety (fun x => { x with
            committed := put x.committed (itemKey 0x0E05 p.conn.toNat) b
            conns := put x.conns p.conn.toNat { lastRx := if p.dir = 1 then h.stamp else 0 } })) []))
  ∧ (∀ (h : Hdr) (p : CommitSet) (s : State), Serves 0x0E11 4 .hostOnly [.commission] h s → Accepted (semCommitSet h p) h s →
      (s.dev.take h).badEntry s.dev.safety.candidate = none →
      exec (.commitSet h p) s = .next (answered s h 0x0E11 ((s.dev.take h).commit h.stamp) []))
  ∧ (∀ (h : Hdr) (p : BrakeTest) (s : State), Serves 0x0E20 16 (.hostOnly) [.hold] h s → Accepted (semBrakeTest h p) h s →
      let d := s.dev.take h
      exec (.brakeTest h p) s = .next (s.after (d.onSafety (fun x => { x with test := some { hdr := h, p := p, joint := (d.testJoint p).getD 0, until_ := d.effectAt h.stamp } }))))

/-- The deck and ballast commands of class 0x07 wait for their boundary. Served and accepted, CONFIG_MOTION_PORT,
CONFIG_DECK, SET_VESSEL, DEFINE_LOAD_FRAME, SET_DECK_LIMITS, CONFIG_BALLAST, SET_BALLAST_BOUNDS, DECLARE_LIFT,
CLOSE_LIFT, SEND_BALLAST_REQUEST and SET_PAN_PLANNER wait for the effect boundary of their stamp and are answered OK.
Each of these rows completes, exec answering the next state given: CONFIG_MOTION_PORT, CONFIG_DECK, SET_VESSEL,
DEFINE_LOAD_FRAME, SET_DECK_LIMITS, CONFIG_BALLAST, SET_BALLAST_BOUNDS, DECLARE_LIFT, CLOSE_LIFT,
SEND_BALLAST_REQUEST, SET_PAN_PLANNER. (R23, R283, R304, R305) -/
def Obligations.DeckCommandsWaitForTheirBoundary : Prop :=
  (∀ (h : Hdr) (p : ConfigMotionPort) (s : State), Serves 0x0700 52 (.hostOnly) [.ready] h s → Accepted (semConfigMotionPort h p) h s →
      let d := s.dev.take h
      exec (.configMotionPort h p) s = .next (answered s h 0x0700 (d.await h.stamp (.configMotionPort h p)) ([])))
  ∧ (∀ (h : Hdr) (p : ConfigDeck) (s : State), Serves 0x0701 32 (.hostOnly) [.ready] h s → Accepted (semConfigDeck h p) h s →
      let d := s.dev.take h
      exec (.configDeck h p) s = .next (answered s h 0x0701 (d.await h.stamp (.configDeck h p)) ([])))
  ∧ (∀ (h : Hdr) (p : SetVessel) (s : State), Serves 0x0702 32 (.hostOnly) [.ready, .run, .hold] h s → Accepted (semSetVessel h p) h s →
      let d := s.dev.take h
      exec (.setVessel h p) s = .next (answered s h 0x0702 (d.await h.stamp (.setVessel h p)) ([])))
  ∧ (∀ (h : Hdr) (p : DefineLoadFrame) (s : State), Serves 0x0703 12 (.hostOnly) [.ready] h s → Accepted (semDefineLoadFrame h p) h s →
      let d := s.dev.take h
      exec (.defineLoadFrame h p) s = .next (answered s h 0x0703 (d.await h.stamp (.defineLoadFrame h p)) ([])))
  ∧ (∀ (h : Hdr) (p : SetDeckLimits) (s : State), Serves 0x0704 20 (.hostOnly) [.ready] h s → Accepted (semSetDeckLimits h p) h s →
      let d := s.dev.take h
      exec (.setDeckLimits h p) s = .next (answered s h 0x0704 (d.await h.stamp (.setDeckLimits h p)) ([])))
  ∧ (∀ (h : Hdr) (p : ConfigBallast) (s : State), Serves 0x0710 (8 + 16 * p.count.toNat) (.hostOnly) [.ready] h s → Accepted (semConfigBallast h p) h s →
      let d := s.dev.take h
      exec (.configBallast h p) s = .next (answered s h 0x0710 (d.await h.stamp (.configBallast h p)) ([])))
  ∧ (∀ (h : Hdr) (p : SetBallastBounds) (s : State), Serves 0x0711 8 (.hostOnly) [.ready] h s → Accepted (semSetBallastBounds h p) h s →
      let d := s.dev.take h
      exec (.setBallastBounds h p) s = .next (answered s h 0x0711 (d.await h.stamp (.setBallastBounds h p)) ([])))
  ∧ (∀ (h : Hdr) (p : DeclareLift) (s : State), Serves 0x0712 40 (.hostOnly) [.ready, .run, .hold] h s → Accepted (semDeclareLift h p) h s →
      let d := s.dev.take h
      exec (.declareLift h p) s = .next (answered s h 0x0712 (d.await h.stamp (.declareLift h p)) ([])))
  ∧ (∀ (h : Hdr) (p : CloseLift) (s : State), Serves 0x0713 4 (.hostOnly) [.ready, .run, .hold] h s → Accepted (semCloseLift h p) h s →
      let d := s.dev.take h
      exec (.closeLift h p) s = .next (answered s h 0x0713 (d.await h.stamp (.closeLift h p)) ([])))
  ∧ (∀ (h : Hdr) (p : SendBallastRequest) (s : State), Serves 0x0714 (8 + 4 * p.count.toNat) (.hostOnly) [.ready, .run, .hold] h s → Accepted (semSendBallastRequest h p) h s →
      let d := s.dev.take h
      exec (.sendBallastRequest h p) s = .next (answered s h 0x0714 (d.await h.stamp (.sendBallastRequest h p)) ([])))
  ∧ (∀ (h : Hdr) (p : SetPanPlanner) (s : State), Serves 0x0608 32 (.hostOnly) [.ready] h s → Accepted (semSetPanPlanner h p) h s →
      let d := s.dev.take h
      exec (.setPanPlanner h p) s = .next (answered s h 0x0608 (d.await h.stamp (.setPanPlanner h p)) ([])))

/-- The rate, PWM, brake and skimmer commands have the effect of their rule. Served and accepted: CONFIG_STEP,
CONFIG_CHOPPER, CONFIG_PWM_GROUP and CONFIG_BRAKE wait for their boundary; SET_PWM_DUTY stores the three words with
the boundary from which they may latch; CLEAR_TRIP marks the tripped groups of its mask with its boundary, or the
earlier one that they wait for; CONFIG_CHANNEL, CONFIG_CAPTURE and SET_TRIGGERS configure the skimmer; ARM waits, with
a held capture in REARM; DISARM of an armed skimmer makes it IDLE, in POST it ends the capture, and elsewhere it
changes nothing; FORCE_TRIGGER triggers with source mask 64. Each of these rows completes, exec answering the next
state given: CONFIG_STEP, CONFIG_CHOPPER, CONFIG_PWM_GROUP, CONFIG_BRAKE, SET_PWM_DUTY, CLEAR_TRIP, CONFIG_CHANNEL,
CONFIG_CAPTURE, SET_TRIGGERS, ARM, DISARM, FORCE_TRIGGER. (R161, R162, R163, R360, R366, R367, R371, R390, R391, R392,
R394) -/
def Obligations.OutputCommandsTakeEffect : Prop :=
  (∀ (h : Hdr) (p : ConfigStep) (s : State), Serves 0x0B00 16 (.hostOnly) [.ready] h s → Accepted (semConfigStep h p) h s →
      let d := s.dev.take h
      exec (.configStep h p) s = .next (answered s h 0x0B00 (d.await h.stamp (.configStep h p)) ([])))
  ∧ (∀ (h : Hdr) (p : ConfigChopper) (s : State), Serves 0x0B01 24 (.hostOnly) [.ready] h s → Accepted (semConfigChopper h p) h s →
      let d := s.dev.take h
      exec (.configChopper h p) s = .next (answered s h 0x0B01 (d.await h.stamp (.configChopper h p)) ([])))
  ∧ (∀ (h : Hdr) (p : ConfigPwmGroup) (s : State), Serves 0x0B40 24 (.hostOnly) [.ready] h s → Accepted (semConfigPwmGroup h p) h s →
      let d := s.dev.take h
      exec (.configPwmGroup h p) s = .next (answered s h 0x0B40 (d.await h.stamp (.configPwmGroup h p)) ([])))
  ∧ (∀ (h : Hdr) (p : ConfigBrake) (s : State), Serves 0x0B50 16 (.hostOnly) [.ready] h s → Accepted (semConfigBrake h p) h s →
      let d := s.dev.take h
      exec (.configBrake h p) s = .next (answered s h 0x0B50 (d.await h.stamp (.configBrake h p)) ([])))
  ∧ (∀ (h : Hdr) (p : SetPwmDuty) (s : State), Serves 0x0B41 12 (.hostOnly) [.ready, .run, .hold, .tune] h s → Accepted (semSetPwmDuty h p) h s →
      let d := s.dev.take h
      exec (.setPwmDuty h p) s = .next (answered s h 0x0B41 (d.onGroup p.group.toNat (fun y => { y with waits := y.waits.filter (fun w => decide (w.1 < d.effectAt h.stamp)) ++ [(d.effectAt h.stamp, [p.dU, p.dV, p.dW])] })) ([])))
  ∧ (∀ (h : Hdr) (p : ClearTrip) (s : State), Serves 0x0B42 4 (.hostOnly) [.commission, .ready, .run, .tune, .hold, .safeOff] h s → Accepted (semClearTrip h p) h s →
      let d := s.dev.take h
      exec (.clearTrip h p) s = .next (answered s h 0x0B42 (d.onPwm (fun y => { y with groups := mapTab (fun g x => if p.groups.getLsbD g ∧ x.trip then { x with clearAt := some (x.clearAt.elim (d.effectAt h.stamp) (min (d.effectAt h.stamp))) } else x) y.groups })) ([])))
  ∧ (∀ (h : Hdr) (p : ConfigChannel) (s : State), Serves 0x0A00 16 (.write 820 true true) awake h s → Accepted (semConfigChannel h p) h s →
      let d := s.dev.take h
      exec (.configChannel h p) s = .next (answered s h 0x0A00 (d.onSkim (fun k => { k with chans := put k.chans p.channel.toNat (if p.kind = 0 then {} else { cfg := p }) })) ([])))
  ∧ (∀ (h : Hdr) (p : ConfigCapture) (s : State), Serves 0x0A01 16 (.write 820 true true) awake h s → Accepted (semConfigCapture h p) h s →
      let d := s.dev.take h
      exec (.configCapture h p) s = .next (answered s h 0x0A01 (d.onSkim (fun k => { k with cap := p })) ([])))
  ∧ (∀ (h : Hdr) (p : SetTriggers) (s : State), Serves 0x0A02 52 (.write 820 true true) awake h s → Accepted (semSetTriggers h p) h s →
      let d := s.dev.take h
      exec (.setTriggers h p) s = .next (answered s h 0x0A02 (d.onSkim (fun k => { k with trig := p })) ([])))
  ∧ (∀ (h : Hdr) (s : State), Serves 0x0A10 0 (.write 820 true true) awake h s → Accepted (semArm h) h s →
      let d := s.dev.take h
      exec (.arm h) s = .next (answered s h 0x0A10 ((d.onSkim (fun k => { k with phase := if k.phase = .held then .rearm else k.phase })).await h.stamp (.arm h)) ([])))
  ∧ (∀ (h : Hdr) (s : State), Serves 0x0A11 0 (.write 820 true true) awake h s → Accepted (semDisarm h) h s → (s.dev.take h).skim.phase = .armed →
      let d := s.dev.take h
      exec (.disarm h) s = .next (answered s h 0x0A11 (d.onSkim (fun k => { k with phase := .idle, queue := [], armOut := false })) ([])))
  ∧ (∀ (h : Hdr) (s : State), Serves 0x0A11 0 (.write 820 true true) awake h s → Accepted (semDisarm h) h s → (s.dev.take h).skim.phase = .post →
      let d := s.dev.take h
      exec (.disarm h) s = .next (answered s h 0x0A11 (d.cutCapture h.stamp) ([])))
  ∧ (∀ (h : Hdr) (s : State), Serves 0x0A11 0 (.write 820 true true) awake h s → Accepted (semDisarm h) h s → (s.dev.take h).skim.phase ≠ .armed → (s.dev.take h).skim.phase ≠ .post →
      let d := s.dev.take h
      exec (.disarm h) s = .next (answered s h 0x0A11 (d) ([])))
  ∧ (∀ (h : Hdr) (s : State), Serves 0x0A12 0 (.write 820 true true) awake h s → Accepted (semForceTrigger h) h s →
      let d := s.dev.take h
      ∃ data : List Byte, data.length = 1 ∧ exec (.forceTrigger h) s = .next (answered s h 0x0A12 (d.skimTrigger h.stamp 64) data))

/-- The bus and schedule commands of class 0x0C have the effect of their rule. Served and accepted: CONFIG_BUS_CHANNEL,
CONFIG_DRIVE_PROFILE, CONFIG_SYNC and RELEASE_SLOT wait for their boundary; LOAD_SCHEDULE of a table without a failing
entry waits with its block; DRIVE_PARAM opens a transaction with the next identity and the deadline stamp + timeout,
answered later; GRANT_SPARE of a waiting claim takes the claim out and grants it the slot and owner. Each of these
rows completes, exec answering the next state given: CONFIG_BUS_CHANNEL, CONFIG_DRIVE_PROFILE, CONFIG_SYNC,
RELEASE_SLOT, LOAD_SCHEDULE, DRIVE_PARAM, GRANT_SPARE. (R408, R410, R415, R430, R431, R432, R433, R434) -/
def Obligations.BusCommandsTakeEffect : Prop :=
  (∀ (h : Hdr) (p : ConfigBusChannel) (s : State), Serves 0x0C00 4 (.hostOnly) [.ready] h s → Accepted (semConfigBusChannel h p) h s →
      let d := s.dev.take h
      exec (.configBusChannel h p) s = .next (answered s h 0x0C00 (d.await h.stamp (.configBusChannel h p)) ([])))
  ∧ (∀ (h : Hdr) (p : ConfigDriveProfile) (s : State), Serves 0x0C01 12 (.hostOnly) [.ready] h s → Accepted (semConfigDriveProfile h p) h s →
      let d := s.dev.take h
      exec (.configDriveProfile h p) s = .next (answered s h 0x0C01 (d.await h.stamp (.configDriveProfile h p)) ([])))
  ∧ (∀ (h : Hdr) (p : ConfigSync) (s : State), Serves 0x0C41 16 (.hostOnly) [.ready] h s → Accepted (semConfigSync h p) h s →
      let d := s.dev.take h
      exec (.configSync h p) s = .next (answered s h 0x0C41 (d.await h.stamp (.configSync h p)) ([])))
  ∧ (∀ (h : Hdr) (p : ReleaseSlot) (s : State), Serves 0x0C43 4 (.hostOnly) grantModes h s → Accepted (semReleaseSlot h p) h s →
      let d := s.dev.take h
      exec (.releaseSlot h p) s = .next (answered s h 0x0C43 (d.await h.stamp (.releaseSlot h p)) ([])))
  ∧ (∀ (h : Hdr) (p : LoadSchedule) (s : State), Serves 0x0C40 16 (.hostOnly) [.ready] h s → Accepted (semLoadSchedule h p) h s → badSlot ((rdWords 64 ((s.dev.take h).blockBytes p.offset p.length)).take 128) (formOf (s.dev.take h).chansView p.set.toNat) ((s.dev.take h).guardView p.set.toNat) (s.dev.take h).cycleTicks = none →
      let d := s.dev.take h
      exec (.loadSchedule h p) s = .next (answered s h 0x0C40 (d.awaitBlock h.stamp (.loadSchedule h p) (d.blockBytes p.offset p.length)) ([])))
  ∧ (∀ (h : Hdr) (p : DriveParam) (s : State), Serves 0x0C10 (12 + if p.op = 2 then p.n.toNat else 0) (.hostOnly) grantModes h s → Accepted (semDriveParam h p) h s →
      let d := s.dev.take h
      exec (.driveParam h p) s = .next (s.after (d.onBus (fun b => { b with nextTid := b.nextTid + 1, params := b.params ++ [{ hdr := h, p := p, tid := b.nextTid, deadline := h.stamp + p.timeout.toNat }] }))))
  ∧ (∀ (h : Hdr) (p : GrantSpare) (s : State) (c : Claim), Serves 0x0C42 12 .hostOnly grantModes h s → Accepted (semGrantSpare h p) h s →
      ((s.dev.take h).busSet p.set.toNat).claims.find? (fun c => c.id = p.claimId) = some c →
      exec (.grantSpare h p) s = .next (answered s h 0x0C42 ((s.dev.take h).onSet p.set.toNat (fun x => { x with
        claims := x.claims.filter (fun y => y.id ≠ p.claimId)
        grants := x.grants ++ [{ claim := c, slot := p.slot.toNat, owner := p.owner.toNat, dProp := p.dProp }] })) []))

/-- The hierarchy, pair, fault and journal commands have the effect of their rule. Served and accepted: CONFIG_HIERARCHY,
CONFIG_PAIR, ARBITRATE_PAIR, SET_FAULT_POLICY, RETIRE_CHANNEL and CLEAR_RETIREMENT wait for their boundary;
DISSOLVE_PAIR marks the pair of its cell for dissolution; RELEASE_LEASE releases the lease at its stamp; JOURNAL_MARK
journals its mark. Each of these rows completes, exec answering the next state given: CONFIG_HIERARCHY, CONFIG_PAIR,
ARBITRATE_PAIR, SET_FAULT_POLICY, RETIRE_CHANNEL, CLEAR_RETIREMENT, DISSOLVE_PAIR, RELEASE_LEASE, JOURNAL_MARK. (R444,
R454, R455, R456, R457, R506, R509) -/
def Obligations.PairAndFaultCommandsTakeEffect : Prop :=
  (∀ (h : Hdr) (p : ConfigHierarchy) (s : State), Serves 0x0D00 4 (.hostOnly) [.ready] h s → Accepted (semConfigHierarchy h p) h s →
      let d := s.dev.take h
      exec (.configHierarchy h p) s = .next (answered s h 0x0D00 (d.await h.stamp (.configHierarchy h p)) ([])))
  ∧ (∀ (h : Hdr) (p : ConfigPair) (s : State), Serves 0x0D01 8 (.hostOnly) [.ready] h s → Accepted (semConfigPair h p) h s →
      let d := s.dev.take h
      exec (.configPair h p) s = .next (answered s h 0x0D01 (d.await h.stamp (.configPair h p)) ([])))
  ∧ (∀ (h : Hdr) (p : ArbitratePair) (s : State), Serves 0x0D02 8 (.hostOnly) [.ready] h s → Accepted (semArbitratePair h p) h s →
      let d := s.dev.take h
      exec (.arbitratePair h p) s = .next (answered s h 0x0D02 (d.await h.stamp (.arbitratePair h p)) ([])))
  ∧ (∀ (h : Hdr) (p : SetFaultPolicy) (s : State), Serves 0x0F00 8 (.hostOnly) [.ready] h s → Accepted (semSetFaultPolicy h p) h s →
      let d := s.dev.take h
      exec (.setFaultPolicy h p) s = .next (answered s h 0x0F00 (d.await h.stamp (.setFaultPolicy h p)) ([])))
  ∧ (∀ (h : Hdr) (p : RetireChannel) (s : State), Serves 0x0F01 4 (.hostOnly) [.ready, .run, .hold, .tune, .safeOff] h s → Accepted (semRetireChannel h p) h s →
      let d := s.dev.take h
      exec (.retireChannel h p) s = .next (answered s h 0x0F01 (d.await h.stamp (.retireChannel h p)) ([])))
  ∧ (∀ (h : Hdr) (p : ClearRetirement) (s : State), Serves 0x0F02 4 (.write 817 false true) [.commission, .ready] h s → Accepted (semClearRetirement h p) h s →
      let d := s.dev.take h
      exec (.clearRetirement h p) s = .next (answered s h 0x0F02 (d.await h.stamp (.clearRetirement h p)) ([])))
  ∧ (∀ (h : Hdr) (p : DissolvePair) (s : State), Serves 0x0D03 4 (.hostOnly) [.ready, .run, .hold, .safeOff] h s → Accepted (semDissolvePair h p) h s →
      let d := s.dev.take h
      exec (.dissolvePair h p) s = .next (answered s h 0x0D03 (d.onCell p.cell.toNat (fun c => { c with dissolve := true })) ([])))
  ∧ (∀ (h : Hdr) (p : ReleaseLease) (s : State), Serves 0x0D04 4 (.hostOnly) [.commission, .ready, .run, .tune, .hold, .safeOff] h s → Accepted (semReleaseLease h p) h s →
      let d := s.dev.take h
      exec (.releaseLease h p) s = .next (answered s h 0x0D04 (d.releaseLease h.stamp) ([])))
  ∧ (∀ (h : Hdr) (p : JournalMark) (s : State), Serves 0x0F12 4 (.hostOnly) awake h s → Accepted (semJournalMark h p) h s →
      let d := s.dev.take h
      exec (.journalMark h p) s = .next (answered s h 0x0F12 (d.journal 11 0 h.stamp 0x0F07 (wordBytes p.mark ++ [0, 0, 0, 0])) ([])))

/-- Accesses to the host registers and mailbox slots have the effect of their rule. While the host interface is open
(R89): a slot write puts its bytes into an inbound slot that the host owns, and into an owned one it only sets IRQ 5;
OUT_DB releases the slots whose reply is ready; CT_LATCH latches a value at most 40 LSB old; DP_CTRL, IRQ_STAT, IRQ_EN
and HEALTH take the bits of their rule; enabling MSI raises one message if the condition holds and it was off. Closed,
none of them has an effect. PERST_N low resets the PCIe link state. While the interface is open, REGISTER_WRITE at
offset 0x08 clears health bits, at 0x20 rings, at 0x24 releases replies, at 0x30 sets the data port address, at 0x34
DP_CTRL, at 0x38 writes through the data port, at 0x40 IRQ_EN, at 0x44 clears IRQ_STAT; at any offset not a multiple
of 4, and at the read-only offset 0x00, it changes nothing. A transaction of two words to the burst aperture is one
request for both; elsewhere the second word goes to the next address. Each of these rows completes, exec answering the
next state given: MBX_SLOT_WRITE, MBX_OUT_DB_RELEASE, CT_LATCH_READ, DP_ERR_CLEAR, IRQ_STAT_CLEAR, IRQ_EN_WRITE,
MSI_ENABLE, HEALTH_CLEAR, PERST_N_LOW, REGISTER_WRITE. (R88, R89, R90, R93, R94, R95, R96, R97, R99, R109) -/
def Obligations.HostRegisterAccessesTakeEffect : Prop :=
  (∀ (t : Nat) (slot : Fin 8) (offset : Nat) (data : List Byte) (s : State), let d := s.dev.advance t
      d.hostOpen = true →
      (look d.host.slots slot.val).owned = true →
      exec (.mbxSlotWrite t slot offset data) s = .next (s.after (d.irq 5)))
  ∧ (∀ (t : Nat) (slot : Fin 8) (offset : Nat) (data : List Byte) (s : State), let d := s.dev.advance t
      d.hostOpen = true →
      (look d.host.slots slot.val).owned = false →
      exec (.mbxSlotWrite t slot offset data) s = .next (s.after (d.onHost (fun h => { h with slots := upd h.slots slot.val (fun x =>
          let old := x.inb ++ List.replicate (0x400 - x.inb.length) 0
          { x with inb := (old.take offset ++ data ++ old.drop (offset + data.length)).take 0x400 }) }))))
  ∧ (∀ (t : Nat) (w : BitVec 32) (s : State), let d := s.dev.advance t
      d.hostOpen = true →
      exec (.mbxOutDbRelease t w) s = .next (s.after (d.onHost (fun h => { h with slots := (List.range 8).foldl (fun m i =>
          upd m i (fun x => if w.getLsbD i ∧ x.ready then { x with ready := false, owned := false } else x)) h.slots }))))
  ∧ (∀ (t : Nat) (s : State), let d := s.dev.advance t
      d.hostOpen = true →
      exec (.ctLatchRead t) s = .next (s.after ((d.draw 1).onHost (fun h => { h with
          ctLatch := BitVec.ofNat 64 (t - Config.freeNat d.fresh % 41), readData := wordBytes (BitVec.ofNat 64 (t - Config.freeNat d.fresh % 41)) }))))
  ∧ (∀ (t : Nat) (w : BitVec 32) (s : State), let d := s.dev.advance t
      d.hostOpen = true →
      exec (.dpErrClear t w) s = .next (s.after (d.onHost (fun h => { h with dpInc := w.getLsbD 0, dpErr := if w.getLsbD 8 then 0 else h.dpErr }))))
  ∧ (∀ (t : Nat) (w : BitVec 32) (s : State), let d := s.dev.advance t
      d.hostOpen = true →
      exec (.irqStatClear t w) s = .next (s.after (d.onHost (fun h => { h with irqSticky := h.irqSticky &&& ~~~(w &&& 0x7C) }))))
  ∧ (∀ (t : Nat) (w : BitVec 32) (s : State), let d := s.dev.advance t
      d.hostOpen = true →
      exec (.irqEnWrite t w) s = .next (s.after (d.onHost (fun h => { h with irqEn := w &&& 0xFF }))))
  ∧ (∀ (t : Nat) (s : State), let d := s.dev.advance t
      d.hostOpen = true →
      d.hostSel = 0 →
      exec (.msiEnable t) s = .next (s.after (d.onHost (fun h => { h with msiOn := true, msiCount := if h.irqCond ∧ !h.msiOn then h.msiCount + 1 else h.msiCount }))))
  ∧ (∀ (t : Nat) (w : BitVec 32) (s : State), let d := s.dev.advance t
      d.hostOpen = true →
      exec (.healthClear t w) s = .next (s.after (d.onHost (fun h => { h with healthSticky := h.healthSticky &&& ~~~((w >>> 9).setWidth 3) }))))
  ∧ (∀ (t : Nat) (w : BitVec 32) (slot : Fin 8) (o : Nat) (b : List Byte) (s : State), let d := s.dev.advance t
      d.hostOpen = false →
      exec (.mbxSlotWrite t slot o b) s = .next (s.after d) ∧ exec (.mbxOutDbRelease t w) s = .next (s.after d)
        ∧ exec (.ctLatchRead t) s = .next (s.after d) ∧ exec (.dpErrClear t w) s = .next (s.after d)
        ∧ exec (.irqStatClear t w) s = .next (s.after d) ∧ exec (.irqEnWrite t w) s = .next (s.after d)
        ∧ exec (.msiEnable t) s = .next (s.after d) ∧ exec (.healthClear t w) s = .next (s.after d))
  ∧ (∀ (t : Nat) (s : State), let d := s.dev.advance t
      d.hostSel = 0 →
      exec (.perstNLow t) s = .next (s.after ((d.onHost (fun h => { h with irqEn := 0, dpOffset := 0, dpSpace := 0, dpInc := false, dpErr := 0, msiOn := false })).bringUpLink (t + 20480000))))
  ∧ (∀ (t : Nat) (s : State), let d := s.dev.advance t
      d.hostSel ≠ 0 →
      exec (.perstNLow t) s = .next (s.after (d)))
  ∧ (∀ (t : Nat) (offset w : BitVec 32) (s : State), let d := s.dev.advance t
      d.hostOpen = true →
      offset = 0x08 →
      exec (.registerWrite t offset { word := w }) s = .next (s.after (d.healthClear w)))
  ∧ (∀ (t : Nat) (offset w : BitVec 32) (s : State), let d := s.dev.advance t
      d.hostOpen = true →
      offset = 0x20 →
      exec (.registerWrite t offset { word := w }) s = .next (s.after (d.ring t w)))
  ∧ (∀ (t : Nat) (offset w : BitVec 32) (s : State), let d := s.dev.advance t
      d.hostOpen = true →
      offset = 0x24 →
      exec (.registerWrite t offset { word := w }) s = .next (s.after (d.outRelease w)))
  ∧ (∀ (t : Nat) (offset w : BitVec 32) (s : State), let d := s.dev.advance t
      d.hostOpen = true →
      offset = 0x30 →
      exec (.registerWrite t offset { word := w }) s = .next (s.after (d.onHost (fun h => { h with dpOffset := w.setWidth 28, dpSpace := (w >>> 28).setWidth 4 }))))
  ∧ (∀ (t : Nat) (offset w : BitVec 32) (s : State), let d := s.dev.advance t
      d.hostOpen = true →
      offset = 0x34 →
      exec (.registerWrite t offset { word := w }) s = .next (s.after (d.writeDpCtrl w)))
  ∧ (∀ (t : Nat) (offset w : BitVec 32) (s : State), let d := s.dev.advance t
      d.hostOpen = true →
      offset = 0x38 →
      exec (.registerWrite t offset { word := w }) s = .next (s.after (d.dpAccess { width := 4, write := some (wordBytes w) })))
  ∧ (∀ (t : Nat) (offset w : BitVec 32) (s : State), let d := s.dev.advance t
      d.hostOpen = true →
      offset = 0x40 →
      exec (.registerWrite t offset { word := w }) s = .next (s.after (d.irqEnable w)))
  ∧ (∀ (t : Nat) (offset w : BitVec 32) (s : State), let d := s.dev.advance t
      d.hostOpen = true →
      offset = 0x44 →
      exec (.registerWrite t offset { word := w }) s = .next (s.after (d.irqClear w)))
  ∧ (∀ (t : Nat) (offset w : BitVec 32) (s : State), let d := s.dev.advance t
      d.hostOpen = true →
      offset.toNat % 4 ≠ 0 →
      exec (.registerWrite t offset { word := w }) s = .next (s.after (d)))
  ∧ (∀ (t : Nat) (offset w : BitVec 32) (s : State), let d := s.dev.advance t
      d.hostOpen = true →
      offset = 0x00 →
      exec (.registerWrite t offset { word := w }) s = .next (s.after (d)))
  ∧ (∀ (t : Nat) (o w x : BitVec 32) (s : State), let d := s.dev.advance t
      d.hostOpen = true → o.toNat % 4 = 0 →
      (0x8000 ≤ o.toNat ∧ o.toNat < 0x9000 → exec (.registerWrite t o { word := w, more := [x] }) s
          = .next (s.after (d.dpBurst (.write (decide (d.hostSel = 1)) (wordBytes w ++ wordBytes x)))))
        ∧ (o.toNat = 0x38 → exec (.registerWrite t o { word := w, more := [x] }) s
          = .next (s.after (d.dpAccess { width := 8, write := some (wordBytes w ++ wordBytes x) })))
        ∧ ((o.toNat < 0x8000 ∨ 0x9000 ≤ o.toNat) ∧ o.toNat ≠ 0x38 → exec (.registerWrite t o { word := w, more := [x] }) s
          = .next (s.after ((d.writeReg t o.toNat w).writeReg t ((d.writeReg t o.toNat w).nextOffset o.toNat) x))))

/-- A data port access without an error moves its bytes and advances DP_ADDR; with an error it only records it. While the
interface is open: a data access of the size that DP_CTRL selects, which meets no error of R96, reads its bytes from
the space or writes them to it and advances the offset by its width; a read or write that meets an error e has the
effect of the failure e alone, and a failed read returns zeros. A burst does the same with its own size. Each of these
rows completes, exec answering the next state given: DP_DATA_ACCESS, DP_BURST_ACCESS. (R96, R109) -/
def Obligations.DataPortAccessesMoveTheirBytes : Prop :=
  (∀ (t : Nat) (a : DpAccess) (s : State), let d := s.dev.advance t
      d.hostOpen = true →
      a.write = none →
      a.width = (if d.host.dpInc then 8 else 4) →
      d.dpError (d.host.dpOffset.toNat / a.width * a.width) a.width true false = 0 →
      exec (.dpDataAccess t a) s = .next (s.after ((d.onHost (fun h => { h with readData := d.spaceRead h.dpSpace.toNat (d.host.dpOffset.toNat / a.width * a.width) a.width })).onHost
        (fun h => { h with dpOffset := BitVec.ofNat 28 (d.host.dpOffset.toNat / a.width * a.width + a.width) }))))
  ∧ (∀ (t : Nat) (a : DpAccess) (b : List Byte) (s : State), let d := s.dev.advance t
      d.hostOpen = true →
      a.write = some b →
      b.length = a.width →
      a.width = (if d.host.dpInc then 8 else 4) →
      d.dpError (d.host.dpOffset.toNat / a.width * a.width) a.width true true = 0 →
      exec (.dpDataAccess t a) s = .next (s.after ((d.spaceWrite d.host.dpSpace.toNat (d.host.dpOffset.toNat / a.width * a.width) b).onHost
        (fun h => { h with dpOffset := BitVec.ofNat 28 (d.host.dpOffset.toNat / a.width * a.width + a.width) }))))
  ∧ (∀ (t : Nat) (a : DpAccess) (n : Nat) (s : State), let d := s.dev.advance t
      d.hostOpen = true →
      a.write = none →
      a.width = 4 ∨ a.width = 8 →
      n = (if d.host.dpInc then 8 else 4) →
      d.dpError (d.host.dpOffset.toNat / n * n) a.width (decide (a.width = n)) false ≠ 0 →
      exec (.dpDataAccess t a) s = .next (s.after ((d.dpFail (d.dpError (d.host.dpOffset.toNat / n * n) a.width (decide (a.width = n)) false)).onHost
        (fun h => { h with readData := List.replicate a.width 0 }))))
  ∧ (∀ (t : Nat) (q : Bool) (n : Nat) (s : State), let d := s.dev.advance t
      d.hostOpen = true →
      q = decide (d.hostSel = 1) →
      burstBytes q n ≠ 0 →
      d.dpError (d.host.dpOffset.toNat / 4 * 4) (burstBytes q n) true false = 0 →
      exec (.dpBurstAccess t (.read q n)) s = .next (s.after ((d.onHost (fun h => { h with readData := d.spaceRead h.dpSpace.toNat (d.host.dpOffset.toNat / 4 * 4) (burstBytes q n) })).onHost
        (fun h => { h with dpOffset := BitVec.ofNat 28 (d.host.dpOffset.toNat / 4 * 4 + burstBytes q n) }))))
  ∧ (∀ (t : Nat) (q : Bool) (b : List Byte) (s : State), let d := s.dev.advance t
      d.hostOpen = true →
      q = decide (d.hostSel = 1) →
      burstBytes q b.length ≠ 0 →
      d.dpError (d.host.dpOffset.toNat / 4 * 4) (burstBytes q b.length) true true = 0 →
      exec (.dpBurstAccess t (.write q b)) s = .next (s.after ((d.spaceWrite d.host.dpSpace.toNat (d.host.dpOffset.toNat / 4 * 4) (b.take (burstBytes q b.length))).onHost
        (fun h => { h with dpOffset := BitVec.ofNat 28 (d.host.dpOffset.toNat / 4 * 4 + burstBytes q b.length) }))))

/-- A ring takes the messages of the free rung slots; a maintenance ring takes its message. While the interface is open,
ringing only slots that the device owns sets IRQ 5 and takes nothing; ringing free slots makes them the device's,
fires entry 13, and takes their messages in slot order, as those that find entry 13 under back-pressure where it is;
with owned slots among those rung both happen. Ringing none changes nothing. A MAINT_MSG update with RING set takes
the message when no earlier one is unanswered; without RING it changes nothing. Each of these rows completes, exec
answering the next state given: MBX_IN_DB_RING, MAINT_MSG_UPDATE_DR. (R83, R95, R99, R100, R341) -/
def Obligations.RingsTakeTheirMessages : Prop :=
  (∀ (t : Nat) (w : BitVec 32) (s : State), let d := s.dev.advance t
      d.hostOpen = true →
      (List.range 8).filter (fun i => w.getLsbD i && !(look d.host.slots i).owned) = [] →
      (List.range 8).filter (fun i => w.getLsbD i && (look d.host.slots i).owned) ≠ [] →
      exec (.mbxInDbRing t w) s = .next (s.after ((d.wakeDisp t).irq 5)))
  ∧ (∀ (t : Nat) (w : BitVec 32) (rung : List Nat) (s : State), let d := s.dev.advance t
      d.hostOpen = true →
      (List.range 8).filter (fun i => w.getLsbD i) = rung →
      rung ≠ [] →
      rung.all (fun i => !(look d.host.slots i).owned) = true →
      exec (.mbxInDbRing t w) s = .next (s.after (let d2 := (d.wakeDisp t).onHost (fun h => { h with slots := rung.foldl (fun m i => upd m i (fun x => { x with owned := true })) h.slots })
        rung.foldl (fun d i => d.hostMessage t i (d2.pressedNow 13)) (d2.fire t t 13))))
  ∧ (∀ (t : Nat) (w : BitVec 32) (own free : List Nat) (s : State), let d := s.dev.advance t
      d.hostOpen = true → (List.range 8).filter (fun i => w.getLsbD i && (look d.host.slots i).owned) = own →
      (List.range 8).filter (fun i => w.getLsbD i && !(look d.host.slots i).owned) = free → own ≠ [] → free ≠ [] →
      let d2 := ((d.wakeDisp t).irq 5).onHost (fun h => { h with slots := free.foldl (fun m i => upd m i (fun x => { x with owned := true })) h.slots })
      exec (.mbxInDbRing t w) s = .next (s.after (free.foldl (fun d i => d.hostMessage t i (d2.pressedNow 13)) (d2.fire t t 13))))
  ∧ (∀ (t : Nat) (b : List Byte) (s : State), let d := s.dev.advance t
      (b.getD 1024 0).getLsbD 0 = true →
      d.host.maint.owned = false →
      exec (.maintMsgUpdateDr t b) s = .next (s.after ((d.scan 0b01001).maintMessage t (b.take 1024))))
  ∧ (∀ (t : Nat) (b : List Byte) (s : State), let d := s.dev.advance t
      (b.getD 1024 0).getLsbD 0 = false ∨ d.host.maint.owned = true →
      exec (.maintMsgUpdateDr t b) s = .next (s.after (d.scan 0b01001)))

/-- Resets, boot, DORMANT wakes and the test access have the effect of their rule. A low of RST_N or PWRGOOD of at least 1
µs that starts is a reset with cause 3 or 2; loss of VDD_CORE is a reset with cause 2; a lockstep mismatch of a
running supervisor is a reset with cause 4, a lapse of the watchdog with cause 5; a fall of VDD_AON writes the final
record; POWER_ON is the cold reset state with the time base restored; a release from reset runs the boot ROM; EXTEST
and SAMPLE select their register only while RST_N alone is low and fuse 821 is clear; a missing XCLK makes CT invalid
with reaction STO; a wake condition of a DORMANT device wakes it to READY, or SAFE-OFF with trigger 0x0F where the
seal no longer allows operation, or to a full boot where the retained image or configuration is not as it was; the
wake controller starts a domain that has work or will have it at the next boundary, and stops one that has none.
BOOT_IMAGE served by the ROM verifies the image. Each of these rows completes, exec answering the next state given:
RST_N_LOW, PWRGOOD_LOW, VDD_CORE_LOSS, LOCKSTEP_MISMATCH, WATCHDOG_LAPSE, VDD_AON_FALL, POWER_ON, BOOT, EXTEST,
SAMPLE_PRELOAD, XCLK_MISSING, WAKE_EVENT, DOMAIN_WAKE, DOMAIN_STOP, BOOT_IMAGE. (R10, R56, R58, R63, R70, R72, R74,
R82, R86, R501, R502) -/
def Obligations.ResetsBootAndWakes : Prop :=
  (∀ (t : Nat) (lowNs : Nat) (s : State), let d := s.dev.advance t
      s.dev.boot.rstLow = false →
      1000 ≤ lowNs →
      exec (.rstNLow t lowNs) s = .next (s.after ((d.draw 1).reset t 3)))
  ∧ (∀ (t : Nat) (lowNs : Nat) (s : State), let d := s.dev.advance t
      s.dev.boot.pwrLow = false →
      1000 ≤ lowNs →
      exec (.pwrgoodLow t lowNs) s = .next (s.after ((d.draw 1).reset t 2)))
  ∧ (∀ (t : Nat) (s : State), let d := s.dev.advance t
      exec (.vddCoreLoss t) s = .next (s.after (d.reset t 2)))
  ∧ (∀ (t : Nat) (s : State), let d := s.dev.advance t
      s.dev.supRuns = true →
      exec (.lockstepMismatch t) s = .next (s.after (d.reset t 4)))
  ∧ (∀ (t : Nat) (s : State), let d := s.dev.advance t
      s.dev.supRuns = false →
      exec (.lockstepMismatch t) s = .next (s.after (d)))
  ∧ (∀ (t : Nat) (s : State), let d := s.dev.advance t
      s.dev.boot.fwRun = true →
      s.dev.power.mode ≠ .dormant →
      exec (.watchdogLapse t) s = .next (s.after (d.reset t 5)))
  ∧ (∀ (t : Nat) (s : State), let d := s.dev.advance t
      exec (.vddAonFall t) s = .next (s.after (d.finalRecord t 1)))
  ∧ (∀ s : State, ∃ d : Dev, exec .powerOn s = .next (s.after d) ∧ d.power.mode = .boot ∧ d.boot.cause = 1
      ∧ d.boot.rstLow = true ∧ d.boot.pwrLow = false ∧ d.time.ct = s.dev.faults.journal.powerOnCt ∧ d.time.valid = true
      ∧ d.waiting = [] ∧ d.host = {} ∧ d.safety.stoA = false ∧ d.safety.stoB = false)
  ∧ (∀ (t : Nat) (b : BootIn) (s : State), let d := s.dev.advance t
      s.dev.power.mode = .boot →
      s.dev.boot.stopped = false →
      s.dev.boot.hostBoot = false →
      s.dev.boot.step = 1 →
      exec (.boot t b) s = .next (s.after (((d.onTime (fun x => { x with valid := (x.valid && decide (s.dev.boot.cause ≠ 1)) || b.xclkRuns })).onBoot (fun x => { x with
          straps := if x.cause = 1 ∨ x.cause = 2 ∨ x.cause = 3 then b.straps else x.straps, rstLow := false, pwrLow := false
          tapIr := if x.tapIr = 0 ∨ x.tapIr = 2 then 0b11111 else x.tapIr })).bootRom t b)))
  ∧ (∀ (t : Nat) (s : State), let d := s.dev.advance t
      d.boot.rstLow = true →
      d.boot.pwrLow = false →
      d.fuse 821 = false →
      exec (.extest t) s = .next (s.after (d.onBoot (fun b => { b with tapIr := 0b00000 }))))
  ∧ (∀ (t : Nat) (s : State), let d := s.dev.advance t
      d.boot.rstLow = true →
      d.boot.pwrLow = false →
      d.fuse 821 = false →
      exec (.samplePreload t) s = .next (s.after (d.onBoot (fun b => { b with tapIr := 0b00010 }))))
  ∧ (∀ (t : Nat) (s : State), let d := s.dev.advance t
      d.boot.rstLow = false ∨ d.boot.pwrLow = true ∨ d.fuse 821 = true →
      exec (.extest t) s = .next (s.after (d.onBoot (fun b => { b with tapIr := 0b11111 }))))
  ∧ (∀ (t : Nat) (s : State), let d := s.dev.advance t
      d.boot.rstLow = false ∨ d.boot.pwrLow = true ∨ d.fuse 821 = true →
      exec (.samplePreload t) s = .next (s.after (d.onBoot (fun b => { b with tapIr := 0b11111 }))))
  ∧ (∀ (t : Nat) (lastEdge : Nat) (s : State), let d := s.dev.advance t
      d.time.valid = true →
      exec (.xclkMissing t lastEdge) s = .next (s.after ((d.onTime (fun x => { x with valid := false, lastGood := lastEdge })).stoReaction t 0x09 0 false)))
  ∧ (∀ (t : Nat) (w : WakeIn) (s : State), let d := s.dev.advance t
      d.power.mode = .dormant →
      d.wakes t w = true →
      d.retainedOk w.flips = true →
      d.power.dormantBad = false →
      d.sealOk = true →
      exec (.wakeEvent t w) s = .next (s.after (let d1 := (d.enterMode t t .ready 0 false).bringUpLink t
        let d2 := d1.armList.foldl (fun d a => d.resetPayload a) d1
        let pairs := fun (y : Safety) => (List.range 8).foldl (fun m p =>
          if (d2.sinPair p).function = 0 then m else upd m p (fun x => x.step t (d2.sinA p) (d2.sinB p))) y.pairs
        ((d2.onPower (fun p => { p with dormantBad := false })).onSafety (fun y => { y with pairs := pairs y })).evalDemands t)))
  ∧ (∀ (t : Nat) (w : WakeIn) (s : State), let d := s.dev.advance t
      d.power.mode = .dormant →
      d.wakes t w = true →
      d.retainedOk w.flips = true →
      d.power.dormantBad = true ∨ d.sealOk = false →
      exec (.wakeEvent t w) s = .next (s.after (let d1 := ((d.raise t 0x0F 0 false).enterMode t t .safeOff 0x0F false).bringUpLink t
        let d2 := d1.armList.foldl (fun d a => d.resetPayload a) d1
        let pairs := fun (y : Safety) => (List.range 8).foldl (fun m p =>
          if (d2.sinPair p).function = 0 then m else upd m p (fun x => x.step t (d2.sinA p) (d2.sinB p))) y.pairs
        (((d2.onPower (fun p => { p with dormantBad := false })).onSafety (fun y => { y with pairs := pairs y })).evalDemands t).sweep t)))
  ∧ (∀ (t : Nat) (w : WakeIn) (s : State), let d := s.dev.advance t
      d.power.mode = .dormant →
      d.wakes t w = true →
      d.retainedOk w.flips = false →
      exec (.wakeEvent t w) s = .next (s.after (((d.resetBase t d.boot.cause true).onBoot (fun b => { b with history := d.boot.history, rstLow := false, pwrLow := false })).bootRom t w.boot)))
  ∧ (∀ (t : Nat) (w : WakeIn) (s : State), let d := s.dev.advance t
      d.wakes t w = false →
      exec (.wakeEvent t w) s = .next (s.after (d)))
  ∧ (∀ (t : Nat) (w : WakeIn) (s : State), let d := s.dev.advance t
      d.power.mode ≠ .dormant →
      exec (.wakeEvent t w) s = .next (s.after (d)))
  ∧ (∀ (t : Nat) (i : Fin 14) (s : State), let d := s.dev.advance t
      d.power.domains.getD i.val .off = .stopped →
      d.domBusy i.val = true ∨ (d.bNext ≤ t + 1024 ∧ d.domScheduled i.val = true) →
      exec (.domainWake t i) s = .next (s.after ((d.onPower (fun p => { p with domains := p.domains.set i.val .running })).traceBare t 0x0B i.val)))
  ∧ (∀ (t : Nat) (i : Fin 14) (s : State), let d := s.dev.advance t
      d.domBusy i.val = false →
      t + 1024 < d.bNext ∨ d.domScheduled i.val = false →
      exec (.domainWake t i) s = .next (s.after (d)))
  ∧ (∀ (t : Nat) (i : Fin 14) (s : State), let d := s.dev.advance t
      i.val ∉ [1, 2, 3, 4, 5, 6, 7, 8, 11] ∨ d.power.domains.getD i.val .off ≠ .running ∨ d.domBusy i.val = true ∨ d.domContinuous i.val = true →
      exec (.domainStop t i) s = .next (s.after (d)))
  ∧ (∀ (t : Nat) (i : Fin 14) (s : State), let d := s.dev.advance t
      i.val ∈ [1, 2, 3, 4, 5, 6, 7, 8, 11] →
      d.power.domains.getD i.val .off = .running →
      d.domBusy i.val = false →
      d.domContinuous i.val = false →
      exec (.domainStop t i) s = .next (s.after ((d.onPower (fun p => { p with domains := p.domains.set i.val .stopped })).traceBare t 0x0C i.val)))
  ∧ (∀ (h : Hdr) (p : BootImage) (s : State), s.dev.server h.link = .rom → (h.ct = 0 ∨ h.stamp ≤ h.ct) → h.length = 4 → h.flags = 0 →
      0x200 ≤ p.length.toNat → p.length.toNat ≤ 0x600000 → let d := s.dev.take h
      let img := memRead d.host.memA 0 (p.length.toNat + 64)
      rd 32 img 0x10 = p.length →
      exec (.bootImage h p) s = .next (s.after (if (d.tryImage 2 img).2 = true then ((d.tryImage 2 img).1.reply h 0x0118 .ok []).startFirmware
          (h.stamp + (d.tryImage 2 img).1.boot.bootIn.durationCt) (d.tryImage 2 img).1.boot.bootIn
        else (d.tryImage 2 img).1.reply h 0x0118 .check [])))

/-- A control boundary, a mid-period and a quarter point do the work of their rules in order. Before its instant a
boundary, a mid-period or a quarter point only lets time pass. At its boundary a device in BOOT or DORMANT counts the
boundary and toggles ALIVE; a reset that is due at the boundary is taken; otherwise the outputs are staged, time
steps, the waiting changes take effect, ALIVE toggles, and the drive, monitor and work phases follow. A mid-period
latches the PWM groups that update there and sets the rate word; a quarter point latches its groups, fires the quarter
entries and runs the current slots. Each of these rows completes, exec answering the next state given: BOUNDARY,
MID_PERIOD, QUARTER_POINT. (R21, R23, R25, R185, R380, R501) -/
def Obligations.BoundaryPhasesRunInTheirOrder : Prop :=
  (∀ (t : Nat) (x : BoundaryIn) (s : State), let d := (s.dev.advance t).cancelsBefore t
      t < s.dev.bNext →
      exec (.boundary t x) s = .next (s.after (d)))
  ∧ (∀ (t : Nat) (x : BoundaryIn) (s : State), let d := (s.dev.advance t).cancelsBefore t
      s.dev.bNext ≤ t →
      d.power.mode = .boot ∨ d.power.mode = .dormant →
      exec (.boundary t x) s = .next (s.after ((d.onTime (fun x => { x with k := x.k + 1 })).toggleAlive)))
  ∧ (∀ (t : Nat) (x : BoundaryIn) (cause : BitVec 8) (s : State), let d := (s.dev.advance t).cancelsBefore t
      s.dev.bNext ≤ t →
      d.power.mode ≠ .boot →
      d.power.mode ≠ .dormant →
      d.resetDue s.dev.bNext = some cause →
      exec (.boundary t x) s = .next (s.after ((d.onTime (fun x => { x with k := x.k + 1 })).reset s.dev.bNext cause)))
  ∧ (∀ (t : Nat) (x : BoundaryIn) (s : State), let d := (s.dev.advance t).cancelsBefore t
      s.dev.bNext ≤ t →
      d.power.mode ≠ .boot →
      d.power.mode ≠ .dormant →
      d.resetDue s.dev.bNext = none →
      exec (.boundary t x) s = .next (s.after (let b := s.dev.bNext
        let d2 := (((((d.memErrors b x.memErr).missedTriggers.endRates b x.ticks).outputs b).timeStep b).boundaryChanges b x.bankErr).toggleAlive
        if d2.power.mode = .dormant then d2
        else (((d2.boundaryDrive b).boundaryMonitor b (decide ((d2.boundaryDrive b).time.k = 0))).boundaryWork b).sampleHealth x)))
  ∧ (∀ (t : Nat) (s : State), let d := s.dev.advance t
      s.dev.bk + s.dev.time.tc / 2 ≤ t →
      exec (.midPeriod t) s = .next (s.after ((d.latchPwm (s.dev.bk + s.dev.time.tc / 2) 1).rateWord false)))
  ∧ (∀ (t : Nat) (s : State), let d := s.dev.advance t
      t < s.dev.bk + s.dev.time.tc / 2 →
      exec (.midPeriod t) s = .next (s.after (d)))
  ∧ (∀ (t : Nat) (m : Fin 4) (x : SampleIn) (s : State), let d := s.dev.advance t
      t < s.dev.bk + m.val * (s.dev.time.tc / 4) →
      exec (.quarterPoint t m x) s = .next (s.after (d)))
  ∧ (∀ (t : Nat) (m : Fin 4) (x : SampleIn) (s : State), let d := (s.dev.advance t).cancelsBefore t
      s.dev.bk + m.val * (s.dev.time.tc / 4) ≤ t →
      exec (.quarterPoint t m x) s = .next (s.after (let q := s.dev.bk + m.val * (s.dev.time.tc / 4)
        let d2 := quarterEntries.foldl (fun d e => if (d.entry e).kind = .quarter then d.fire q q e else d) (d.latchPwm q 2)
        ((d2.draw 24).currentSlots q m.val (droop d2.fresh (d2.loop.filtered x.sd))).onLoop (fun y => { y with sd := d2.loop.filtered x.sd, sdBad := 0 }))))

/-- The events of the dispatch unit release, dispatch, end and annul tasks as their rules say. A release of a boundary
entry fires it as at the boundary, of a quarter or host run entry does nothing by itself, and of any other entry fires
it at its instant. A dispatch cycle evaluates readiness, ends the expired tasks and dispatches, in no mode without
work. The end of a task that runs no problem and no core task does its work, drops what is staged late, and completes
it. The deadline ends the expired tasks. A back-pressure that has gone releases the held trigger, or the oldest of
several held frames; the trace stores its oldest record. Each of these rows completes, exec answering the next state
given: TASK_RELEASE, TASK_DISPATCH, TASK_COMPLETE, TASK_DEADLINE, BACKPRESSURE_RELEASE, TRACE_RECORD_WRITE. (R334,
R336, R337, R339, R341, R345) -/
def Obligations.TasksAreReleasedDispatchedAndEnded : Prop :=
  (∀ (t : Nat) (x : Fin 2048) (s : State), let d := (s.dev.advance t).cancelsBefore t
      (d.entry x.val).kind = .boundary →
      exec (.taskRelease t x) s = .next (s.after (d.fireBoundary x.val)))
  ∧ (∀ (t : Nat) (x : Fin 2048) (s : State), let d := (s.dev.advance t).cancelsBefore t
      (d.entry x.val).kind ≠ .boundary →
      (d.entry x.val).kind ≠ .timer →
      exec (.taskRelease t x) s = .next (s.after (d)))
  ∧ (∀ (t : Nat) (x : Fin 2048) (a : Nat) (s : State), let d := (s.dev.advance t).cancelsBefore t
      (d.entry x.val).kind = .timer →
      d.entryLive x.val = true →
      (look d.disp.table x.val).lastAt = some a →
      a + (d.entry x.val).match_ ≤ t →
      exec (.taskRelease t x) s = .next (s.after ((d.onCount x.val (fun c => { c with lastAt := some t })).fire t t x.val)))
  ∧ (∀ (t : Nat) (x : Fin 2048) (s : State), let d := (s.dev.advance t).cancelsBefore t
      (d.entry x.val).kind = .timer →
      d.entryLive x.val = true →
      (look d.disp.table x.val).lastAt = none →
      exec (.taskRelease t x) s = .next (s.after ((d.onCount x.val (fun c => { c with lastAt := some t })).fire t t x.val)))
  ∧ (∀ (t : Nat) (x : Fin 2048) (a : Nat) (s : State), let d := (s.dev.advance t).cancelsBefore t
      (d.entry x.val).kind = .timer →
      (look d.disp.table x.val).lastAt = some a →
      t < a + (d.entry x.val).match_ →
      exec (.taskRelease t x) s = .next (s.after (d)))
  ∧ (∀ (t : Nat) (s : State), let d := (s.dev.advance t).cancelsBefore t
      d.power.mode ≠ .dormant →
      d.power.mode ≠ .boot →
      d.cycleHeld = false →
      exec (.taskDispatch t) s = .next (s.after (let d1 := (d.evalReady t).cancelsBefore (t + 1)
        let d2 := (d1.expired t).foldl (fun d x => d.endLate t x) d1
        (d2.dispatchAll t).captureRuns t)))
  ∧ (∀ (t : Nat) (s : State), let d := (s.dev.advance t).cancelsBefore t
      d.power.mode = .dormant ∨ d.power.mode = .boot ∨ d.cycleHeld = true →
      exec (.taskDispatch t) s = .next (s.after (d)))
  ∧ (∀ (t : Nat) (x : Fin 2048) (i : TaskIn) (k : Task) (s : State), let d := (s.dev.advance t).cancelsBefore t
      d.taskRunning x.val = some k →
      problemOf x.val = none →
      (d.entry x.val).engine ≠ .sig →
      exec (.taskComplete t x i) s = .next (s.after ((if k.dl < t then (d.ownWork t x.val i).dropStaged (d.entry x.val).work
        else d.ownWork t x.val i).completeTask t k)))
  ∧ (∀ (t : Nat) (x : Fin 2048) (i : TaskIn) (k : Task) (s : State), let d := (s.dev.advance t).cancelsBefore t
      d.taskRunning x.val = some k →
      problemOf x.val = none →
      (d.entry x.val).engine = .sig →
      exec (.taskComplete t x i) s = .next (s.after (d.coreTaskEnd t k i)))
  ∧ (∀ (t : Nat) (x : Fin 2048) (i : TaskIn) (k : Task) (p : Nat) (s : State), let d := (s.dev.advance t).cancelsBefore t
      d.taskRunning x.val = some k →
      problemOf x.val = some p →
      exec (.taskComplete t x i) s = .next (s.after (d.runEnd t k.unit [])))
  ∧ (∀ (t : Nat) (x : Fin 2048) (i : TaskIn) (s : State), let d := (s.dev.advance t).cancelsBefore t
      d.taskRunning x.val = none →
      exec (.taskComplete t x i) s = .next (s.after (d)))
  ∧ (∀ (t : Nat) (s : State), let d := (s.dev.advance t).cancelsBefore t
      d.power.mode ≠ .dormant →
      d.power.mode ≠ .boot →
      d.cycleHeld = false →
      exec (.taskDeadline t) s = .next (s.after ((d.expired t).foldl (fun d x => d.endLate t x) d)))
  ∧ (∀ (t : Nat) (s : State), let d := (s.dev.advance t).cancelsBefore t
      d.cycleHeld = true →
      exec (.taskDeadline t) s = .next (s.after (d)))
  ∧ (∀ (t : Nat) (x : Fin 2048) (s : State), let d := (s.dev.advance t).cancelsBefore t
      (look d.disp.table x.val).pressed = true →
      d.pressedNow x.val = false →
      d.entryLive x.val = true →
      (look d.disp.table x.val).held = 0 →
      exec (.backpressureRelease t x) s = .next (s.after ((d.trace t 0x0A (d.sourceOf x.val) 0 0 0).onCount x.val (fun c => { c with held := 0, pressed := false, said := false }))))
  ∧ (∀ (t : Nat) (x : Fin 2048) (s : State), let d := (s.dev.advance t).cancelsBefore t
      (look d.disp.table x.val).pressed = true →
      d.pressedNow x.val = false →
      d.entryLive x.val = true →
      (look d.disp.table x.val).held ≠ 0 →
      (d.entry x.val).kind ≠ .mailbox →
      (d.entry x.val).kind ≠ .hostRun →
      (d.entry x.val).kind ≠ .free →
      (d.entry x.val).kind ≠ .frame →
      exec (.backpressureRelease t x) s = .next (s.after (((d.trace t 0x0A (d.sourceOf x.val) 0 0 0).newTask t (look d.disp.table x.val).heldAt x.val ((look d.disp.table x.val).held - 1)).onCount x.val (fun c =>
        { c with held := 0, heldAt := t, pressed := false, pressedAt := t, said := false }))))
  ∧ (∀ (t : Nat) (r : TraceRec) (q : List TraceRec) (s : State), let d := s.dev.advance t
      d.disp.trace.queue = r :: q →
      (d.disp.trace.store1 r).fill = false →
      d.disp.trace.left = none →
      exec (.traceRecordWrite t) s = .next (s.after (d.onDisp (fun x => { x with trace := { x.trace.store1 r with queue := q, left := none } }))))
  ∧ (∀ (t : Nat) (x : Fin 2048) (s : State), let d := (s.dev.advance t).cancelsBefore t
      (look d.disp.table x.val).pressed = true →
      d.pressedNow x.val = false →
      d.entryLive x.val = true →
      (d.entry x.val).kind = .frame →
      1 < (look d.disp.table x.val).held →
      exec (.backpressureRelease t x) s = .next (s.after ((((d.trace t 0x0A (d.sourceOf x.val) 0 0 0).newTask t (look d.disp.table x.val).heldAt x.val).onCount x.val (fun c =>
        { c with
          held := c.held - 1, heldAt := (c.stamps.drop 1).headD 0, stamps := c.stamps.drop 1,
          pressed := decide (1 < c.held), pressedAt := t, said := false })).trace t 0x09 (d.sourceOf x.val) 0 0 0)))
  ∧ (∀ (t : Nat) (x : Fin 2048) (s : State), let d := (s.dev.advance t).cancelsBefore t
      (look d.disp.table x.val).pressed = false ∨ d.pressedNow x.val = true ∨ d.entryLive x.val = false →
      exec (.backpressureRelease t x) s = .next (s.after (d)))
  ∧ (∀ (t : Nat) (r : TraceRec) (q : List TraceRec) (s : State), let d := s.dev.advance t
      d.disp.trace.queue = r :: q →
      d.disp.trace.left = some 1 →
      exec (.traceRecordWrite t) s = .next (s.after ((d.onDisp (fun x => { x with trace := { x.trace.store1 r with queue := q, left := some 0 } })).freezeTrace t)))
  ∧ (∀ (t : Nat) (s : State), let d := s.dev.advance t
      d.disp.trace.queue = [] →
      exec (.traceRecordWrite t) s = .next (s.after (d)))

/-- A solver run ends with its result, or aborts at its deadline; limits of misses stop arms and drop torque. The end of a
run on a lane before its deadline writes the outcome of its plan, with RERUN after one mismatch and CHECK after two,
each an event of the lane; a run past its deadline ends with what its position gives; the deadline of a problem that
still waits ends its task late. A failed test of an idle lane counts one fault event on it, a passed one nothing. Four
IK misses of an arm that is not stopped begin a joint stop with reason 4 in RUN and HOLD; a slot whose feedback misses
reach its limit causes an STO reaction with trigger 0x06. Each of these rows completes, exec answering the next state
given: PROBLEM_RUN_END, PROBLEM_DEADLINE, LANE_TEST, IK_MISS_LIMIT, FEEDBACK_MISS_LIMIT. (R127, R180, R230, R232,
R234) -/
def Obligations.SolverRunsEnd : Prop :=
  (∀ (t : Nat) (lane : Fin 36) (id : Nat) (p : Problem) (r : SolverRun) (s : State), let d := (s.dev.advance t).cancelsBefore t
      (look d.solver.lanes lane.val).running = some id →
      look d.solver.problems id = some p →
      p.run = some r →
      t ≤ r.dl →
      exec (.problemRunEnd t lane []) s = .next (s.after (let m := d.runPlan t id p r
        (d.draw 5).runOver t id lane.val { m.out with rerun := false } m true)))
  ∧ (∀ (t : Nat) (lane : Fin 36) (id : Nat) (p : Problem) (r : SolverRun) (x : Nat) (s : State), let d := (s.dev.advance t).cancelsBefore t
      (look d.solver.lanes lane.val).running = some id →
      look d.solver.problems id = some p →
      p.run = some r →
      t ≤ r.dl →
      exec (.problemRunEnd t lane [x]) s = .next (s.after (let m := d.runPlan t id p r
        ((d.laneEvent x lane.val).draw 5).runOver t id lane.val { m.out with rerun := true } m true)))
  ∧ (∀ (t : Nat) (lane : Fin 36) (id : Nat) (p : Problem) (r : SolverRun) (x y : Nat) (s : State), let d := (s.dev.advance t).cancelsBefore t
      (look d.solver.lanes lane.val).running = some id →
      look d.solver.problems id = some p →
      p.run = some r →
      t ≤ r.dl →
      exec (.problemRunEnd t lane [x, y]) s = .next (s.after (let m := d.runPlan t id p r
        (((d.laneEvent x lane.val).laneEvent y lane.val).draw 5).runOver t id lane.val (d.checkOut m) m
          (decide (0 < (d.checkOut m).iters) || Config.freeBool (d.fresh + 4)))))
  ∧ (∀ (t : Nat) (lane : Fin 36) (l : List Nat) (s : State), let d := (s.dev.advance t).cancelsBefore t
      (look d.solver.lanes lane.val).running = none →
      exec (.problemRunEnd t lane l) s = .next (s.after (d)))
  ∧ (∀ (t : Nat) (id : Fin 256) (pos : RunPos) (p : Problem) (r : SolverRun) (lane : Nat) (s : State), let d := (s.dev.advance t).cancelsBefore t
      look d.solver.problems id.val = some p →
      p.run = some r →
      r.dl < t →
      r.lane = some lane →
      exec (.problemDeadline t id pos) s = .next (s.after (let m := d.runPlan t id.val p r
        ((d.laneMismatches lane (pos.mism.take 1)).draw 4).runOver t id.val lane (d.abortOut m pos) m
          (decide (0 < pos.complete) || pos.inFactor || Config.freeBool (d.fresh + 3)))))
  ∧ (∀ (t : Nat) (id : Fin 256) (pos : RunPos) (p : Problem) (x : Task) (s : State), let d := (s.dev.advance t).cancelsBefore t
      look d.solver.problems id.val = some p →
      p.run = none →
      d.disp.tasks.find? (fun y => decide (y.entry = 0x600 + id.val) && decide (y.phase ≠ .running) && decide (y.dl < t)) = some x →
      exec (.problemDeadline t id pos) s = .next (s.after (d.endLate t x)))
  ∧ (∀ (t : Nat) (id : Fin 256) (pos : RunPos) (s : State), let d := (s.dev.advance t).cancelsBefore t
      look d.solver.problems id.val = none →
      exec (.problemDeadline t id pos) s = .next (s.after (d)))
  ∧ (∀ (t : Nat) (lane : Fin 36) (s : State), let d := s.dev.advance t
      exec (.laneTest t lane true) s = .next (s.after (d)))
  ∧ (∀ (t : Nat) (lane : Fin 36) (s : State), let d := s.dev.advance t
      (look d.solver.lanes lane.val).running = none →
      d.laneOn lane.val = true →
      d.isRetired 3 lane.val = false →
      d.isArbiter = false →
      d.power.mode ≠ .dormant →
      d.power.mode ≠ .boot →
      exec (.laneTest t lane false) s = .next (s.after (d.laneEvent t lane.val)))
  ∧ (∀ (t : Nat) (arm : Fin 16) (s : State), let d := s.dev.advance t
      4 ≤ (look d.arms arm.val).ikMiss →
      (look d.arms arm.val).phase ≠ .stopped →
      (look d.arms arm.val).jstop = false →
      d.power.mode = .run ∨ d.power.mode = .hold →
      exec (.ikMissLimit t arm) s = .next (s.after (d.beginJointStop arm.val 4)))
  ∧ (∀ (t : Nat) (arm : Fin 16) (s : State), let d := s.dev.advance t
      (look d.arms arm.val).ikMiss < 4 →
      exec (.ikMissLimit t arm) s = .next (s.after (d)))
  ∧ (∀ (t : Nat) (slot : Fin 128) (c : ConfigJointSlot) (s : State), let d := s.dev.advance t
      (look d.loop.joints slot.val).cfg = some c →
      c.missLimit.toNat ≤ (look d.loop.joints slot.val).misses →
      c.missLimit ≠ 0 →
      d.latchedTrig 0x06 = false →
      exec (.feedbackMissLimit t slot) s = .next (s.after ((d.onLoop (fun l => { l with joints := upd l.joints slot.val (fun x => { x with misses := 0 }) })).stoReaction t 0x06 slot.val false)))

/-- The events of a separation pass close its inputs, decide, and overrun as their rules say. When the cut of a running
pass has come, or every position of its stamp is in, the inputs close: the positions that can be trusted are kept, and
every object is put at the pass stamp. Before that, nothing changes. The monitor and island decisions of a pass that
runs with closed inputs record the pair results or island distances and decide for every pan in order, and compare. A
pass still undecided when the next one is due is abandoned: each pipe counts a fault event, and every pan decides as
if violated. Each of these rows completes, exec answering the next state given: SEPARATION_INPUTS_COMPLETE,
SEP_MONITOR_DECISION, PASS_OVERRUN, ISLAND_DECISION. (R268, R271, R273, R275) -/
def Obligations.SeparationPassAdvances : Prop :=
  (∀ (t : Nat) (s : State), let d := s.dev.advance t
      d.sep.pass.running = true →
      d.sep.pass.inputs = none →
      d.sep.pass.stamp + d.inCut ≤ t ∨ d.positionsIn d.sep.pass.stamp = true →
      exec (.separationInputsComplete t) s = .next (s.after (let pos := (List.range 128).foldl (fun m j => put m j (d.safeAt d.sep.pass.stamp j)) []
        let d1 := d.onSep (fun x => { x with
          pass := { x.pass with inputs := some t, safePos := pos, islPos := pos }
          objs := (List.range 256).foldl (fun m o => put m o (d.objAt d.sep.pass.stamp o)) x.objs })
        (List.range 256).foldl (fun x o =>
          if (look x.sep.objs o).phase = .lost ∧ (look d.sep.objs o).phase ≠ .lost then x.sepNotice t 3 0 false o true else x) d1)))
  ∧ (∀ (t : Nat) (s : State), let d := s.dev.advance t
      d.sep.pass.running = false →
      exec (.separationInputsComplete t) s = .next (s.after (d)))
  ∧ (∀ (t : Nat) (s : State), let d := s.dev.advance t
      d.sep.pass.running = true →
      d.sep.pass.inputs.isSome = true →
      d.sep.pass.sepDone = false →
      d.pipes.isEmpty = false →
      exec (.sepMonitorDecision t) s = .next (s.after (let d1 := (d.onSep (fun x => { x with
          pairs := (d.safety.committed.pairs.filter (fun e => pairEnabled e.2)).foldl (fun m e => put m e.1 (d.pairResult e)) []
          prevEnds := (List.range 256).foldl (fun m c => match d.capsule c with
            | some y => put m c (y.p0 ++ y.p1)
            | none => m) []
          first := false, pass := { x.pass with sepDone := true }
          exported := d.exportPayload.map (fun y => (d.sep.pass.stamp, y)) })).draw 67632
        let d2 := d1.panList.foldl Dev.panSep d1
        let d3 := d2.panList.foldl (fun d pan => d.panDecision t pan 0 (d.violatedSep pan)) d2
        ((d3.compare t).slsEnds t true ((List.range 256).flatMap (fun c => match d.capsule c with
          | some y => let arm := (rd 8 (d.item 0x0604 c) 1).toNat; [(arm, y.v0), (arm, y.v1)]
          | none => []))).evalReady t)))
  ∧ (∀ (t : Nat) (s : State), let d := s.dev.advance t
      d.sep.pass.inputs.isSome = false →
      exec (.sepMonitorDecision t) s = .next (s.after (d)))
  ∧ (∀ (t : Nat) (s : State), let d := s.dev.advance t
      d.sep.pass.running = true →
      d.sep.pass.sepDone = false →
      d.sep.pass.stamp + d.time.nSep * d.time.tc ≤ t →
      exec (.passOverrun t) s = .next (s.after (let d1 := d.onSep (fun x => { x with pass := { x.pass with running := false } })
        let d3 := (d1.pipes.foldl (fun d i => d.faultEvent 4 i t) d1).sepNotice t 6 0 false 0 true
        d3.panList.foldl (fun d pan => d.panDecision t pan 0 (some 0xFFFF)) d3)))
  ∧ (∀ (t : Nat) (s : State), let d := s.dev.advance t
      d.sep.pass.running = false →
      exec (.passOverrun t) s = .next (s.after (d)))
  ∧ (∀ (t : Nat) (s : State), let d := s.dev.advance t
      d.sep.pass.running = true → d.sep.pass.inputs.isSome = true → d.sep.pass.islDone = false →
      let near := (d.safety.committed.islandPairs.zipIdx).filterMap (fun e => (d.islandPair e.1).map (fun r => (e.2, pairPan e.1, r)))
      let d1 := (d.onSep (fun x => { x with
          prevSph := (List.range 256).foldl (fun m i => match d.sphere i with
            | some y => put m i y.1
            | none => m) []
          firstIsl := false, pass := { x.pass with islDone := true } })).draw 768
      let d2 := d1.panList.foldl (fun d pan =>
        let mine := (near.filter (fun e => decide (e.2.1 = pan))).map (fun e => (e.1, e.2.2.1))
        d.onSep (fun x => { x with pans := upd x.pans pan (fun y => match nearest mine with
          | some (_, dist) => { y with dIsl := dist, dIslSet := true }
          | none => { y with dIsl := 0, dIslSet := false }) })) d1
      let d3 := d2.panList.foldl (fun d pan =>
        let bad := (near.filter (fun e => decide (e.2.1 = pan) && e.2.2.2)).map (fun e => (e.1, e.2.2.1))
        d.panDecision t pan 1 ((nearest bad).map Prod.fst)) d2
      exec (.islandDecision t) s = .next (s.after ((d3.compare t).slsEnds t false
        ((List.range 256).filterMap (fun i => (d.sphere i).map (fun x => ((d.safety.committed.sphereArm i).getD 0, x.2.1)))))))
  ∧ (∀ (t : Nat) (s : State), let d := s.dev.advance t
      d.sep.pass.running = false →
      exec (.islandDecision t) s = .next (s.after (d)))

/-- The events of the motion ports and of the deck, load and ballast data have the effect of their rule. A data-ready edge
of a configured idle port wakes DISP and domain 8 and starts a read, and during a read it wakes DISP and counts a
fault event. A completed read with a good sample makes the sample and its edge stamp the port's latest and fires its
entry; a bad sample counts a fault event. 10 ms of silence count a fault event and move the silence stamp on. When the
estimate stops being valid its valid flags fall and the fallback is taken; a stale load pose is noticed once; a stale
ballast status evaluates the lifts. Each of these rows completes, exec answering the next state given: MSN_DRDY_EDGE,
MOTION_READ_DONE, MOTION_PORT_SILENCE, DECK_INVALID_TIMEOUT, LOAD_FRAME_STALE, BALLAST_STATUS_STALE. (R285, R286,
R288, R292, R301) -/
def Obligations.DeckSensorEventsTakeEffect : Prop :=
  (∀ (t : Nat) (p : Fin 2) (c : ConfigMotionPort) (s : State), let d := s.dev.advance t
      d.portCfg p.val = some c →
      d.power.mode ≠ .dormant →
      d.power.mode ≠ .boot →
      (d.port p.val).reading = false →
      exec (.msnDrdyEdge t p) s = .next (s.after (((d.wakeDisp t).startDomain t 8).onPort p.val (fun x => { x with reading := true, edge := t }))))
  ∧ (∀ (t : Nat) (p : Fin 2) (c : ConfigMotionPort) (s : State), let d := s.dev.advance t
      d.portCfg p.val = some c →
      d.power.mode ≠ .dormant →
      d.power.mode ≠ .boot →
      (d.port p.val).reading = true →
      exec (.msnDrdyEdge t p) s = .next (s.after ((d.wakeDisp t).faultEvent 8 p.val t)))
  ∧ (∀ (t : Nat) (p : Fin 2) (s : State), let d := s.dev.advance t
      d.portCfg p.val = none →
      exec (.msnDrdyEdge t p) s = .next (s.after (d)))
  ∧ (∀ (t : Nat) (p : Fin 2) (c : ConfigMotionPort) (data copy : List Byte) (s : State), let d := s.dev.advance t
      (d.port p.val).cfg = some c →
      (d.port p.val).reading = true →
      data.length = c.nBytes.toNat ∧ sampleOk c.check data copy = true ∧ sampleInRange c ((List.range 6).map (sampleField c data)) = true →
      exec (.motionReadDone t p data copy) s = .next (s.after ((((d.onPort p.val (fun q => { q with reading := false })).onPort p.val (fun q => q.take c (d.lever p.val) ((List.range 6).map (sampleField c data)))).onDeck
        (fun k => { k with started := if k.cfg.isSome ∧ k.started.isNone then some (d.port p.val).edge else k.started })).fire t (d.port p.val).edge (1 + p.val))))
  ∧ (∀ (t : Nat) (p : Fin 2) (c : ConfigMotionPort) (data copy : List Byte) (s : State), let d := s.dev.advance t
      (d.port p.val).cfg = some c →
      (d.port p.val).reading = true →
      data.length ≠ c.nBytes.toNat ∨ sampleOk c.check data copy = false ∨ sampleInRange c ((List.range 6).map (sampleField c data)) = false →
      exec (.motionReadDone t p data copy) s = .next (s.after ((d.onPort p.val (fun q => { q with reading := false })).faultEvent 8 p.val t)))
  ∧ (∀ (t : Nat) (p : Fin 2) (data copy : List Byte) (s : State), let d := s.dev.advance t
      (d.port p.val).reading = false →
      exec (.motionReadDone t p data copy) s = .next (s.after (d)))
  ∧ (∀ (t : Nat) (p : Fin 2) (s : State), let d := s.dev.advance t
      d.portCfg p.val = none ∨ t < (d.port p.val).silence + ms10 →
      exec (.motionPortSilence t p) s = .next (s.after (d)))
  ∧ (∀ (t : Nat) (p : Fin 2) (c : ConfigMotionPort) (s : State), let d := s.dev.advance t
      d.portCfg p.val = some c →
      (d.port p.val).silence + ms10 ≤ t →
      exec (.motionPortSilence t p) s = .next (s.after ((d.faultEvent 8 p.val t).onPort p.val (fun x => { x with silence := x.silence + ms10 }))))
  ∧ (∀ (t : Nat) (s : State), let d := s.dev.advance t
      d.deck.est.valid = false ∨ d.deckValid t = true ∨ d.power.mode = .shadow →
      exec (.deckInvalidTimeout t) s = .next (s.after (d)))
  ∧ (∀ (t : Nat) (s : State), let d := s.dev.advance t
      d.deck.est.valid = true →
      d.deckValid t = false →
      d.power.mode ≠ .shadow →
      exec (.deckInvalidTimeout t) s = .next (s.after (Dev.deckFalls d (d.onDeck (fun k => { k with est := { k.est with flags := k.est.flags &&& 0xFFFC } })) t)))
  ∧ (∀ (t : Nat) (s : State), let d := s.dev.advance t
      d.deck.loadDef.isSome = true →
      d.deck.load.isSome = true →
      d.deck.loadSaid = false →
      d.loadFresh (max t d.latestUse) = false →
      exec (.loadFrameStale t) s = .next (s.after ((d.onDeck (fun k => { k with loadSaid := true })).deckNotice t 3 0 0 false)))
  ∧ (∀ (t : Nat) (s : State), let d := s.dev.advance t
      d.ballastFresh t = true →
      exec (.ballastStatusStale t) s = .next (s.after (d)))
  ∧ (∀ (t : Nat) (s : State), let d := s.dev.advance t
      d.ballastFresh t = false →
      exec (.ballastStatusStale t) s = .next (s.after (d.evalLifts t)))

/-- Interrupts and budget faults of signal cores have the effect of their rule. The core has run its task up to the
interrupt. It then enters the handler where ST allows it: after the pending delay slots and the instructions in
flight, IPC holds the address to return to, ISTAT the status, ST has its enable bit off, and execution goes on at the
handler. A memory error counts a fault event on the core and, as an illegal instruction does, is a fault of the task
that runs there. A kernel fault of a running kernel stops it with its code and the address where its core stands and
posts a notice; of a kernel that does not run it changes nothing. Each of these rows completes, exec answering the
next state given: CORE_INTERRUPT, KERNEL_BUDGET. (R317, R326) -/
def Obligations.CoreEventsEndTheirTask : Prop :=
  (∀ (t : Nat) (k : Fin 4) (s : State), let d := (s.dev.advance t).runCoreTo t k.val
      exec (.coreInterrupt t k { src := .preempt }) s = .next (s.after (d.interruptCore t k.val (d.userOn k.val))))
  ∧ (∀ (t : Nat) (k : Fin 4) (s : State), let d := (s.dev.advance t).runCoreTo t k.val
      d.onCore k.val = none →
      exec (.coreInterrupt t k { src := .memErr }) s = .next (s.after ((d.faultEvent 5 k.val t).interruptCore t k.val false)))
  ∧ (∀ (t : Nat) (k : Fin 4) (s : State), let d := (s.dev.advance t).runCoreTo t k.val
      d.onCore k.val = none →
      exec (.coreInterrupt t k { src := .illegal }) s = .next (s.after (d.interruptCore t k.val false)))
  ∧ (∀ (t : Nat) (k : Fin 4) (x : Task) (j : Nat) (s : State), let d := (s.dev.advance t).runCoreTo t k.val
      d.onCore k.val = some x →
      kernelOf x.entry = some j →
      exec (.coreInterrupt t k { src := .memErr }) s = .next (s.after (((d.faultEvent 5 k.val t).kernelFault t j 4).interruptCore t k.val true)))
  ∧ (∀ (t : Nat) (k : Fin 4) (x : Task) (j : Nat) (s : State), let d := (s.dev.advance t).runCoreTo t k.val
      d.onCore k.val = some x →
      kernelOf x.entry = some j →
      exec (.coreInterrupt t k { src := .illegal }) s = .next (s.after ((d.kernelFault t j 1).interruptCore t k.val true)))
  ∧ (∀ (t : Nat) (k : Fin 4) (x : Task) (s : State), let d := (s.dev.advance t).runCoreTo t k.val
      d.onCore k.val = some x →
      kernelOf x.entry = none →
      exec (.coreInterrupt t k { src := .memErr }) s = .next (s.after ((d.vendorFault t k.val 4 x).interruptCore t k.val false)))
  ∧ (∀ (t : Nat) (k : Fin 4) (x : Task) (s : State), let d := (s.dev.advance t).runCoreTo t k.val
      d.onCore k.val = some x →
      kernelOf x.entry = none →
      exec (.coreInterrupt t k { src := .illegal }) s = .next (s.after ((d.vendorFault t k.val 1 x).interruptCore t k.val false)))
  ∧ (∀ (r : SignalRun) (u : Bool) (t : Nat), r.core.st.getLsbD 1 = true → r.core.slots = 0 →
      (r.interrupt u t) = { r.drain with core := { r.drain.core with ipc := r.drain.core.pc, istat := r.drain.core.st, st := r.drain.core.st &&& ~~~2, pc := Config.coreVector } })
  ∧ (∀ (r : SignalRun) (u : Bool) (t : Nat), r.core.st.getLsbD 1 = false → r.interrupt u t = r)
  ∧ (∀ (t : Nat) (k : Fin 8) (f : KernelFault) (s : State), let d := s.dev.advance t
      (look d.sig.kernels k.val).running = true →
      exec (.kernelBudget t k f) s = .next (s.after ((d.runCoreTo t (d.kernelCore k.val)).kernelFault t k.val (kernelFaultCode f))))
  ∧ (∀ (d : Dev) (t i code : Nat) (c : LoadKernel), (look d.sig.kernels i).cfg = some c → d.disp.tasks = [] →
      d.kernelFault t i code = (d.onSig (fun x => { x with kernels := upd x.kernels i (fun y =>
          { y with running := false, pending := false, faulted := true, fault := BitVec.ofNat 8 code, addr := (look d.sig.cores c.core.toNat).pc.setWidth 32 }) })).notice
        3 c.core.toNat t 0x0801 (BitVec.ofNat 32 (i + 256 * code)) false)
  ∧ (∀ (t : Nat) (k : Fin 8) (f : KernelFault) (s : State), let d := s.dev.advance t
      (look d.sig.kernels k.val).running = false →
      exec (.kernelBudget t k f) s = .next (s.after (d)))

/-- A received frame that passes its checks takes effect by its type; a copy or a refused frame does not. For FEEDBACK,
SAFETY, PARAM, APP and CLAIM frames: a frame that hearing it passes, and that is no copy of one already heard, has the
effect of its type; a copy, and a frame that hearing refuses, only count. A DATA frame only counts. A fresh FEEDBACK
sample of a joint becomes its feedback; a PARAM response answers the transaction it belongs to; the load pose of the
slot that DEFINE_LOAD_FRAME names is taken. A SYNC frame inside or outside its window is judged by the synchronisation
rules. Each of these rows completes, exec answering the next state given: FEEDBACK_FRAME, SAFETY_CONTAINER,
PARAM_RESPONSE, APP_FRAME, CLAIM_FRAME, DATA_FRAME, SYNC_FRAME. (R402, R403, R405, R406, R407, R408, R421, R430, R483) -/
def Obligations.ReceivedFramesTakeEffect : Prop :=
  (∀ (t : Nat) (f : FrameIn) (fr : Frame) (s : State), let d := s.dev.advance t
      (d.hear t f 3).frame = some fr →
      (d.hear t f 3).copy = false →
      exec (.feedbackFrame t f) s = .next (s.after ((d.hear t f 3).dev.feedback f fr)))
  ∧ (∀ (t : Nat) (f : FrameIn) (fr : Frame) (s : State), let d := s.dev.advance t
      (d.hear t f 3).frame = some fr →
      (d.hear t f 3).copy = true →
      exec (.feedbackFrame t f) s = .next (s.after ((d.hear t f 3).dev)))
  ∧ (∀ (t : Nat) (f : FrameIn) (s : State), let d := s.dev.advance t
      (d.hear t f 3).frame = none →
      exec (.feedbackFrame t f) s = .next (s.after ((d.hear t f 3).dev)))
  ∧ (∀ (t : Nat) (f : FrameIn) (fr : Frame) (s : State), let d := s.dev.advance t
      (d.hear t f 5).frame = some fr →
      (d.hear t f 5).copy = false →
      exec (.safetyContainer t f) s = .next (s.after ((d.hear t f 5).dev.container t f fr)))
  ∧ (∀ (t : Nat) (f : FrameIn) (fr : Frame) (s : State), let d := s.dev.advance t
      (d.hear t f 5).frame = some fr →
      (d.hear t f 5).copy = true →
      exec (.safetyContainer t f) s = .next (s.after ((d.hear t f 5).dev)))
  ∧ (∀ (t : Nat) (f : FrameIn) (s : State), let d := s.dev.advance t
      (d.hear t f 5).frame = none →
      exec (.safetyContainer t f) s = .next (s.after ((d.hear t f 5).dev)))
  ∧ (∀ (t : Nat) (f : FrameIn) (fr : Frame) (s : State), let d := s.dev.advance t
      (d.hear t f 4).frame = some fr →
      (d.hear t f 4).copy = false →
      exec (.paramResponse t f) s = .next (s.after ((d.hear t f 4).dev.paramResponse t fr)))
  ∧ (∀ (t : Nat) (f : FrameIn) (fr : Frame) (s : State), let d := s.dev.advance t
      (d.hear t f 4).frame = some fr →
      (d.hear t f 4).copy = true →
      exec (.paramResponse t f) s = .next (s.after ((d.hear t f 4).dev)))
  ∧ (∀ (t : Nat) (f : FrameIn) (s : State), let d := s.dev.advance t
      (d.hear t f 4).frame = none →
      exec (.paramResponse t f) s = .next (s.after ((d.hear t f 4).dev)))
  ∧ (∀ (t : Nat) (f : FrameIn) (fr : Frame) (s : State), let d := s.dev.advance t
      (d.hear t f 6).frame = some fr →
      (d.hear t f 6).copy = false →
      exec (.appFrame t f) s = .next (s.after ((d.hear t f 6).dev.appBody t f fr)))
  ∧ (∀ (t : Nat) (f : FrameIn) (fr : Frame) (s : State), let d := s.dev.advance t
      (d.hear t f 6).frame = some fr →
      (d.hear t f 6).copy = true →
      exec (.appFrame t f) s = .next (s.after ((d.hear t f 6).dev)))
  ∧ (∀ (t : Nat) (f : FrameIn) (s : State), let d := s.dev.advance t
      (d.hear t f 6).frame = none →
      exec (.appFrame t f) s = .next (s.after ((d.hear t f 6).dev)))
  ∧ (∀ (t : Nat) (f : FrameIn) (fr : Frame) (s : State), let d := s.dev.advance t
      (d.hear t f 7).frame = some fr →
      (d.hear t f 7).copy = false →
      rd 32 fr.payload 0 ≠ 0 →
      exec (.claimFrame t f) s = .next (s.after ((d.hear t f 7).dev.handleClaim t (f.ch.val / 2)
          { id := rd 32 fr.payload 0, type := rd 8 fr.payload 4, chan := BitVec.ofNat 2 (rd 8 fr.payload 5).toNat, size4 := rd 16 fr.payload 6 })))
  ∧ (∀ (t : Nat) (f : FrameIn) (fr : Frame) (s : State), let d := s.dev.advance t
      (d.hear t f 7).frame = some fr →
      (d.hear t f 7).copy = true →
      exec (.claimFrame t f) s = .next (s.after ((d.hear t f 7).dev)))
  ∧ (∀ (t : Nat) (f : FrameIn) (s : State), let d := s.dev.advance t
      (d.hear t f 7).frame = none →
      exec (.claimFrame t f) s = .next (s.after ((d.hear t f 7).dev)))
  ∧ (∀ (t : Nat) (f : FrameIn) (fr : Frame) (s : State), let d := s.dev.advance t
      (d.hear t f 0x0D).frame = some fr →
      (d.hear t f 0x0D).copy = false →
      exec (.dataFrame t f) s = .next (s.after ((d.hear t f 0x0D).dev)))
  ∧ (∀ (t : Nat) (f : FrameIn) (fr : Frame) (s : State), let d := s.dev.advance t
      (d.hear t f 0x0D).frame = some fr →
      (d.hear t f 0x0D).copy = true →
      exec (.dataFrame t f) s = .next (s.after ((d.hear t f 0x0D).dev)))
  ∧ (∀ (t : Nat) (f : FrameIn) (s : State), let d := s.dev.advance t
      (d.hear t f 0x0D).frame = none →
      exec (.dataFrame t f) s = .next (s.after ((d.hear t f 0x0D).dev)))
  ∧ (∀ (t : Nat) (f : FrameIn) (fr : Frame) (s : State), let d := s.dev.advance t
      let d1 := (d.hear t f 3).dev
      (d.hear t f 3).frame = some fr → (d.hear t f 3).copy = false → (rd 8 fr.payload 16).toNat = 1 →
      (rd 64 fr.payload 0).toNat = d1.bk → (rd 8 fr.payload 32).toNat ≤ 127 → d1.multJoint (rd 8 fr.payload 32).toNat = false →
      let p := fr.payload
      let w := (d1.busSet (f.ch.val / 2)).entry f.slot.val
      let node : NodeRec := { applied := (rd 64 p 8).toNat, state := rd 8 p 17, fault := rd 16 p 18, temp := rd 16 p 20 }
      let d2 := d1.onBus (fun b => { b with nodes := put b.nodes (f.ch.val / 2 * 64 + eOwner w) node })
      exec (.feedbackFrame t f) s = .next (s.after (d2.onJoint (rd 8 p 32).toNat (fun x => { x with
        fbCh := BitVec.ofNat 10 (eChan w * 2 ^ (2 * (f.ch.val / 2)))
        fbLast := if x.fbStamp = some (d1.bk - d1.time.tc) then some x.fb else none, fbStamp := some d1.bk
        fb := ((rd 64 p 36).setWidth 48).toInt, fbVel := (rd 32 p 44).toInt, fbTorque := (rd 32 p 48).toInt
        fbCurrent := (rd 32 p 52).toInt, fbState := rd 8 p 33 }))))
  ∧ (∀ (t : Nat) (f : FrameIn) (fr : Frame) (x : ParamTx) (s : State), let d := s.dev.advance t
      (d.hear t f 4).frame = some fr →
      (d.hear t f 4).copy = false →
      (d.hear t f 4).dev.bus.params.find? (fun x => x.sent && x.tid == rd 16 fr.payload 0 && rd 8 fr.payload 2 == x.p.op ||| 0x80) = some x →
      t ≤ x.deadline →
      exec (.paramResponse t f) s = .next (s.after (((d.hear t f 4).dev.onBus (fun b => { b with params := b.params.erase x })).reply x.hdr 0x0C10 .ok
        (wordBytes (rd 16 fr.payload 6) ++ [0, 0] ++ fr.payload.drop 12))))
  ∧ (∀ (t : Nat) (f : FrameIn) (fr : Frame) (c : DefineLoadFrame) (s : State), let d := s.dev.advance t
      (d.hear t f 6).frame = some fr →
      (d.hear t f 6).copy = false →
      (rd 16 fr.payload 0).toNat = 3 →
      (d.hear t f 6).dev.deck.loadDef = some c →
      c.channel.toNat / 2 = f.ch.val / 2 →
      eUse (((d.hear t f 6).dev.busSet (f.ch.val / 2)).entry f.slot.val) ≠ 3 →
      c.slot.toNat = f.slot.val →
      exec (.appFrame t f) s = .next (s.after ((d.hear t f 6).dev.loadPose (fr.payload.drop 4))))
  ∧ (∀ (t : Nat) (f : FrameIn) (fr : Frame) (s : State), let d := s.dev.advance t
      (d.hear t f 1).frame = some fr →
      exec (.syncFrame t f) s = .next (s.after ((d.hear t f 1).dev.sync t f fr true)))
  ∧ (∀ (t : Nat) (f : FrameIn) (fr : Frame) (s : State), let d := s.dev.advance t
      (d.hear t f 1).frame = none →
      (d.hear t f 1).outside = some fr →
      exec (.syncFrame t f) s = .next (s.after ((d.hear t f 1).dev.sync t f fr false)))
  ∧ (∀ (t : Nat) (f : FrameIn) (s : State), let d := s.dev.advance t
      (d.hear t f 1).frame = none →
      (d.hear t f 1).outside = none →
      exec (.syncFrame t f) s = .next (s.after ((d.hear t f 1).dev)))

/-- Slot starts, corrections, start-up timers, link polls, worker losses and bucket decays have the effect of their rule.
A slot start at any instant but its own, or with a closed sluice, sends nothing; a retry slot sends the frame of its
slot again with the retry flag; any other slot sends the payload of its use. The correction of a set that is on is
taken once per cycle: its trimmed error, the count of its sources, and, on the correcting set within its limit, the
rate words. Start-up enters COLDSTART when listening or back-off ends. A link poll records the link; a link down
counts a fault event. A worker unheard too long leaves. A decay lowers its bucket. Each of these rows completes, exec
answering the next state given: BUCKET_DECAY, SLOT_TRANSMIT, SYNC_CORRECTION, LISTEN_TIMEOUT, BACKOFF_END,
PHY_LINK_POLL, WORKER_LOST. (R400, R416, R421, R422, R427, R429, R437, R496) -/
def Obligations.BusTimersTakeEffect : Prop :=
  (∀ (t : Nat) (ch : BitVec 16) (s : State), let d := s.dev.advance t
      exec (.bucketDecay t ch) s = .next (s.after ({ d with faults := { d.faults with chans := upd d.faults.chans ch.toNat (fun c => c.decayTo t) } })))
  ∧ (∀ (t : Nat) (set : Fin 5) (slot : Fin 128) (echo : Bool) (s : State), let d := s.dev.advance t
      t ≠ d.slotStart set.val slot.val →
      exec (.slotTransmit t set slot echo) s = .next (s.after (d)))
  ∧ (∀ (t : Nat) (set : Fin 5) (slot : Fin 128) (echo : Bool) (s : State), let d := s.dev.advance t
      t = d.slotStart set.val slot.val →
      d.sluice set.val slot.val = none →
      exec (.slotTransmit t set slot echo) s = .next (s.after (d)))
  ∧ (∀ (t : Nat) (set : Fin 5) (slot : Fin 128) (echo : Bool) (w : Nat × Nat) (x : Sent) (s : State), let d := s.dev.advance t
      t = d.slotStart set.val slot.val →
      d.sluice set.val slot.val = some w →
      eUse ((d.busSet set.val).entry slot.val) = 3 →
      d.bus.sent.find? (fun y => decide (y.set = set.val) && decide (y.slot = eRetryOf ((d.busSet set.val).entry slot.val))) = some x →
      exec (.slotTransmit t set slot echo) s = .next (s.after (d.sendFrame t set.val slot.val w { x.frame with flags := 1, ct := t } echo)))
  ∧ (∀ (t : Nat) (set : Fin 5) (slot : Fin 128) (echo : Bool) (w : Nat × Nat) (x : Dev) (p : List Byte) (s : State), let d := s.dev.advance t
      t = d.slotStart set.val slot.val →
      d.sluice set.val slot.val = some w →
      eUse ((d.busSet set.val).entry slot.val) ≠ 3 →
      d.payloadFor t set.val slot.val = some (x, p) →
      exec (.slotTransmit t set slot echo) s = .next (s.after (let ch := (maskChans set.val (d.sendChans set.val ((d.busSet set.val).entry slot.val))).headD (2 * set.val)
        (x.stampItem 8 ch t).2.2.sendFrame t set.val slot.val w
          { type := BitVec.ofNat 8 (eType ((d.busSet set.val).entry slot.val)), source := d.source 8 ch, seq := (x.stampItem 8 ch t).2.1, ct := t, payload := p } echo)))
  ∧ (∀ (t : Nat) (set : Fin 5) (s : State), let d := s.dev.advance t
      d.syncEnd set.val = none →
      exec (.syncCorrection t set) s = .next (s.after (d)))
  ∧ (∀ (t : Nat) (set : Fin 5) (x : Nat) (s : State), let d := s.dev.advance t
      d.syncEnd set.val = some x →
      (d.busSet set.val).state ≠ .off →
      x ≤ t →
      (d.busSet set.val).corrAt ≠ some d.bk →
      corrTrim ((d.busSet set.val).corrValues (d.ownSource set.val)) = none →
      exec (.syncCorrection t set) s = .next (s.after ((d.onSet set.val (fun y => { y with
          eF := none, corrAt := some d.bk, srcCount := ((d.busSet set.val).corrValues (d.ownSource set.val)).length })).settleSet t set.val)))
  ∧ (∀ (t : Nat) (set : Fin 5) (s : State), let d := s.dev.advance t
      (d.busSet set.val).state = .listen →
      (d.busSet set.val).backoff = none →
      (d.busSet set.val).since + 2 * d.time.tc ≤ t →
      (d.ownCold set.val).isSome = true →
      exec (.listenTimeout t set) s = .next (s.after (d.enterSet t set.val .coldstart)))
  ∧ (∀ (t : Nat) (set : Fin 5) (b : Nat) (s : State), let d := s.dev.advance t
      (d.busSet set.val).backoff = some b →
      (d.busSet set.val).state = .listen →
      b ≤ t →
      exec (.backoffEnd t set) s = .next (s.after (d.enterSet t set.val .coldstart)))
  ∧ (∀ (t : Nat) (ch : Fin 10) (s : State), let d := s.dev.advance t
      (look d.bus.chans ch.val).mode = .phy →
      d.power.mode ≠ .dormant →
      d.power.mode ≠ .boot →
      exec (.phyLinkPoll t ch true) s = .next (s.after (d.onChan ch.val (fun c => { c with linkUp := true }))))
  ∧ (∀ (t : Nat) (ch : Fin 10) (s : State), let d := s.dev.advance t
      (look d.bus.chans ch.val).mode = .phy →
      d.power.mode ≠ .dormant →
      d.power.mode ≠ .boot →
      exec (.phyLinkPoll t ch false) s = .next (s.after ((d.onChan ch.val (fun c => { c with linkUp := false, linkDown := c.linkDown + 1 })).faultEvent 1 ch.val t)))
  ∧ (∀ (t : Nat) (cell : Fin 16) (s : State), let d := s.dev.advance t
      d.isManager = true →
      (look d.pair.workers cell.val).joined = true →
      (look d.pair.workers cell.val).lastRx + (d.busSet 4).cfg.syncLoss.toNat * d.time.tc < t →
      exec (.workerLost t cell) s = .next (s.after ((d.onPair (fun p => { p with workers := upd p.workers cell.val (fun w => { w with joined := false }) })).pairNotice t 8 cell.val 0 true)))

/-- Lease messages, the arbiter's decision and the lapse of a lease have the effect of their rule. A GRANT or REFUSE of
the device's own pair acts on the unit it names; a REQUEST or RELEASE of an arbitrated cell is kept with its instant;
a HEALTH of the partner records its fitness; at its grant slot the arbiter takes the requests of the cell, grants a
holder that asked before its limit, refuses one that asked after it, takes a release, keeps a holder that neither
asked nor lapsed, and decides anew for a free pair; a dissolution goes first. A device whose lease has lapsed reports
it and, in RUN, HOLD or TUNE, applies its brakes and enters SHADOW. Each of these rows completes, exec answering the
next state given: LEASE_GRANT, LEASE_REFUSE, LEASE_REQUEST_MSG, LEASE_RELEASE_MSG, LEASE_HEALTH_MSG, ARBITER_DECISION,
LEASE_EXPIRY. (R440, R441, R444, R445) -/
def Obligations.LeaseMessagesTakeEffect : Prop :=
  (∀ (t : Nat) (m : LeaseMsg) (s : State), let d := s.dev.advance t
      d.ownPairMsg m = true →
      m.kind = 3 →
      m.unit.toNat = d.unitBits →
      d.leaseIn = true →
      exec (.leaseGrant t m) s = .next (s.after (d.arbChans.foldl (fun d ch => d.faultEvent 1 ch t) (d.ownNotice t 0x0A true))))
  ∧ (∀ (t : Nat) (m : LeaseMsg) (s : State), let d := s.dev.advance t
      d.ownPairMsg m = true →
      m.kind = 3 →
      m.unit.toNat = d.unitBits →
      d.leaseIn = false →
      d.time.valid = false ∨ m.instant ≤ t ∨ t < d.pair.pledge →
      exec (.leaseGrant t m) s = .next (s.after (d)))
  ∧ (∀ (t : Nat) (m : LeaseMsg) (s : State), let d := s.dev.advance t
      d.ownPairMsg m = true →
      m.kind = 3 →
      m.unit.toNat = d.unitBits →
      d.leaseIn = false →
      d.time.valid = true →
      t < m.instant →
      d.pair.pledge ≤ t →
      m.flags.getLsbD 4 = true →
      exec (.leaseGrant t m) s = .next (s.after ((d.onPair (fun p => { p with dissolved := true, xh := max p.xh m.instant, wasHolder := false })).ownNotice t 1 true)))
  ∧ (∀ (t : Nat) (m : LeaseMsg) (s : State), let d := s.dev.advance t
      d.ownPairMsg m = true →
      m.kind = 3 →
      m.unit.toNat = d.unitBits →
      d.leaseIn = false →
      d.time.valid = true →
      t < m.instant →
      d.pair.pledge ≤ t →
      m.flags.getLsbD 4 = false →
      ((d.onPair (fun p => { p with xh := max p.xh m.instant, wasHolder := true, shadowAt := none })).ownNotice t 1 true).power.mode ≠ .shadow ∨ d.holdsLease = true →
      exec (.leaseGrant t m) s = .next (s.after ((d.onPair (fun p => { p with xh := max p.xh m.instant, wasHolder := true, shadowAt := none })).ownNotice t 1 true)))
  ∧ (∀ (t : Nat) (m : LeaseMsg) (s : State), let d := s.dev.advance t
      d.ownPairMsg m = true →
      m.kind = 3 →
      m.unit.toNat = d.unitBits →
      d.leaseIn = false →
      d.time.valid = true →
      t < m.instant →
      d.pair.pledge ≤ t →
      m.flags.getLsbD 4 = false →
      ((d.onPair (fun p => { p with xh := max p.xh m.instant, wasHolder := true, shadowAt := none })).ownNotice t 1 true).power.mode = .shadow →
      d.holdsLease = false →
      exec (.leaseGrant t m) s = .next (s.after (((d.onPair (fun p => { p with xh := max p.xh m.instant, wasHolder := true, shadowAt := none })).ownNotice t 1 true).takeover t)))
  ∧ (∀ (t : Nat) (m : LeaseMsg) (s : State), let d := s.dev.advance t
      d.ownPairMsg m = true →
      m.kind = 3 →
      m.unit.toNat ≠ d.unitBits →
      m.flags.getLsbD 4 = true →
      exec (.leaseGrant t m) s = .next (s.after (d.onPair (fun p => { p with dissolved := true, wasHolder := false }))))
  ∧ (∀ (t : Nat) (m : LeaseMsg) (s : State), let d := s.dev.advance t
      d.ownPairMsg m = true →
      m.kind = 3 →
      m.unit.toNat ≠ d.unitBits →
      m.flags.getLsbD 4 = false →
      exec (.leaseGrant t m) s = .next (s.after (d.onPair (fun p => { p with
          partnerX := max p.partnerX m.instant
          shadowAt := if d.power.mode = .ready ∧ !d.holdsLease then some d.bNext else p.shadowAt }))))
  ∧ (∀ (t : Nat) (m : LeaseMsg) (s : State), let d := s.dev.advance t
      d.ownPairMsg m = false →
      exec (.leaseGrant t m) s = .next (s.after (d)))
  ∧ (∀ (t : Nat) (m : LeaseMsg) (s : State), let d := s.dev.advance t
      d.ownPairMsg m = true →
      m.kind = 4 →
      m.unit.toNat = d.unitBits →
      exec (.leaseRefuse t m) s = .next (s.after (d.ownNotice t 4 true)))
  ∧ (∀ (t : Nat) (m : LeaseMsg) (s : State), let d := s.dev.advance t
      d.ownPairMsg m = false ∨ m.kind ≠ 4 ∨ m.unit.toNat ≠ d.unitBits →
      exec (.leaseRefuse t m) s = .next (s.after (d)))
  ∧ (∀ (t : Nat) (m : LeaseMsg) (s : State), let d := s.dev.advance t
      d.arbCell m.cell.toNat = none →
      exec (.leaseRequestMsg t m) s = .next (s.after (d)))
  ∧ (∀ (t : Nat) (m : LeaseMsg) (s : State), let d := s.dev.advance t
      (d.arbCell m.cell.toNat).isSome = true →
      m.unit.toNat ≤ 1 →
      m.kind = 2 →
      exec (.leaseRequestMsg t m) s = .next (s.after ((d.keepMessage m).onCell m.cell.toNat (fun c => { c with request := some (m.unit.toNat, m.stamp) }))))
  ∧ (∀ (t : Nat) (m : LeaseMsg) (s : State), let d := s.dev.advance t
      (d.arbCell m.cell.toNat).isSome = true →
      m.unit.toNat ≤ 1 →
      m.kind = 5 →
      d.inPair = false →
      exec (.leaseReleaseMsg t m) s = .next (s.after ((d.keepMessage m).onCell m.cell.toNat (fun c => { c with release := some (m.unit.toNat, m.instant) }))))
  ∧ (∀ (t : Nat) (m : LeaseMsg) (s : State), let d := s.dev.advance t
      d.arbCell m.cell.toNat = none →
      d.ownPairMsg m = true →
      m.kind = 5 →
      m.unit.toNat = 1 - d.unitBits →
      exec (.leaseReleaseMsg t m) s = .next (s.after (d.onPair (fun p => { p with partnerX := min p.partnerX m.instant }))))
  ∧ (∀ (t : Nat) (m : LeaseMsg) (s : State), let d := s.dev.advance t
      (d.arbCell m.cell.toNat).isSome = true →
      m.unit.toNat ≤ 1 →
      m.kind = 1 →
      d.inPair = false →
      exec (.leaseHealthMsg t m) s = .next (s.after ((d.keepMessage m).onCell m.cell.toNat (fun c =>
          if c.holder = some m.unit.toNat ∧ !m.flags.getLsbD 1 ∧ c.grantAt < m.stamp then { c with holder := none, x := c.prevX } else c))))
  ∧ (∀ (t : Nat) (m : LeaseMsg) (s : State), let d := s.dev.advance t
      d.arbCell m.cell.toNat = none →
      d.ownPairMsg m = true →
      m.kind = 1 →
      m.unit.toNat = 1 - d.unitBits →
      exec (.leaseHealthMsg t m) s = .next (s.after ((d.onPair (fun p => { p with
          partnerFit := m.flags.getLsbD 0, partnerDig := m.digest
          partnerX := if m.flags.getLsbD 1 then p.partnerX else min p.partnerX t })).checkFit t)))
  ∧ (∀ (t : Nat) (cell : Fin 16) (s : State), let d := s.dev.advance t
      d.arbCell cell.val = none →
      exec (.arbiterDecision t cell) s = .next (s.after (d)))
  ∧ (∀ (t : Nat) (cell : Fin 16) (p : ArbitratePair) (s : State), let d := s.dev.advance t
      d.arbCell cell.val = some p →
      t ≠ d.slotStart 4 p.slot.toNat →
      exec (.arbiterDecision t cell) s = .next (s.after (d)))
  ∧ (∀ (t : Nat) (cell : Fin 16) (p : ArbitratePair) (s : State), let d := s.dev.advance t
      d.arbCell cell.val = some p →
      t = d.slotStart 4 p.slot.toNat →
      (look d.pair.cells cell.val).dissolve = true →
      exec (.arbiterDecision t cell) s = .next (s.after (((d.onCell cell.val (fun c => { c with request := none, release := none, sent := none })).onCell cell.val (fun c => { c with cfg := some { p with enable := 0 }, holder := none, dissolve := false })).answerPair t
          { kind := 3, cell := BitVec.ofNat 8 cell.val, unit := BitVec.ofNat 8 ((look d.pair.cells cell.val).holder.getD 0), flags := 0x10,
            instant := 2 ^ 64 - 1, stamp := t })))
  ∧ (∀ (t : Nat) (cell : Fin 16) (p : ArbitratePair) (h st : Nat) (s : State), let d := s.dev.advance t
      d.arbCell cell.val = some p →
      t = d.slotStart 4 p.slot.toNat →
      (look d.pair.cells cell.val).dissolve = false →
      (look d.pair.cells cell.val).holder = some h →
      (look d.pair.cells cell.val).request = some (h, st) →
      d.bk ≤ st →
      st < (look d.pair.cells cell.val).x →
      d.time.valid = true →
      exec (.arbiterDecision t cell) s = .next (s.after ((d.onCell cell.val (fun c => { c with request := none, release := none, sent := none })).grantTo t cell.val h)))
  ∧ (∀ (t : Nat) (cell : Fin 16) (p : ArbitratePair) (h st : Nat) (s : State), let d := s.dev.advance t
      d.arbCell cell.val = some p →
      t = d.slotStart 4 p.slot.toNat →
      (look d.pair.cells cell.val).dissolve = false →
      (look d.pair.cells cell.val).holder = some h →
      (look d.pair.cells cell.val).request = some (h, st) →
      d.bk ≤ st →
      (look d.pair.cells cell.val).x ≤ st ∨ d.time.valid = false →
      exec (.arbiterDecision t cell) s = .next (s.after ((((d.onCell cell.val (fun c => { c with request := none, release := none, sent := none })).onCell cell.val (fun c => { c with holder := none })).answerPair t
          { kind := 4, cell := BitVec.ofNat 8 cell.val, unit := BitVec.ofNat 8 h, status := BitVec.ofNat 16 Status.lease.code, stamp := t }).pairNotice t 4 cell.val h true)))
  ∧ (∀ (t : Nat) (cell : Fin 16) (p : ArbitratePair) (h tr : Nat) (s : State), let d := s.dev.advance t
      d.arbCell cell.val = some p →
      t = d.slotStart 4 p.slot.toNat →
      (look d.pair.cells cell.val).dissolve = false →
      (look d.pair.cells cell.val).holder = some h →
      (look d.pair.cells cell.val).request = none →
      (look d.pair.cells cell.val).release = some (h, tr) →
      tr < (look d.pair.cells cell.val).x →
      exec (.arbiterDecision t cell) s = .next (s.after (((d.onCell cell.val (fun c => { c with request := none, release := none, sent := none })).onCell cell.val (fun c => { c with x := tr, holder := none })).journalLease t
          { kind := 5, cell := BitVec.ofNat 8 cell.val, unit := BitVec.ofNat 8 h, instant := tr })))
  ∧ (∀ (t : Nat) (cell : Fin 16) (p : ArbitratePair) (h : Nat) (s : State), let d := s.dev.advance t
      d.arbCell cell.val = some p →
      t = d.slotStart 4 p.slot.toNat →
      (look d.pair.cells cell.val).dissolve = false →
      (look d.pair.cells cell.val).holder = some h →
      (look d.pair.cells cell.val).request = none →
      (look d.pair.cells cell.val).release = none →
      t < (look d.pair.cells cell.val).x →
      d.time.valid = true →
      exec (.arbiterDecision t cell) s = .next (s.after ((d.onCell cell.val (fun c => { c with request := none, release := none, sent := none })))))
  ∧ (∀ (t : Nat) (cell : Fin 16) (p : ArbitratePair) (h : Nat) (s : State), let d := s.dev.advance t
      d.arbCell cell.val = some p →
      t = d.slotStart 4 p.slot.toNat →
      (look d.pair.cells cell.val).dissolve = false →
      (look d.pair.cells cell.val).holder = some h →
      (look d.pair.cells cell.val).request = none →
      (look d.pair.cells cell.val).release = none →
      (look d.pair.cells cell.val).x ≤ t ∨ d.time.valid = false →
      exec (.arbiterDecision t cell) s = .next (s.after (((d.onCell cell.val (fun c => { c with request := none, release := none, sent := none })).onCell cell.val (fun c => { c with holder := none })).decideFree t cell.val p.g.toNat)))
  ∧ (∀ (t : Nat) (cell : Fin 16) (p : ArbitratePair) (s : State), let d := s.dev.advance t
      d.arbCell cell.val = some p →
      t = d.slotStart 4 p.slot.toNat →
      (look d.pair.cells cell.val).dissolve = false →
      (look d.pair.cells cell.val).holder = none →
      exec (.arbiterDecision t cell) s = .next (s.after ((d.onCell cell.val (fun c => { c with request := none, release := none, sent := none })).decideFree t cell.val p.g.toNat)))
  ∧ (∀ (t : Nat) (s : State), let d := s.dev.advance t
      d.pair.wasHolder = true →
      d.inPair = true →
      d.holdsLease = false →
      d.power.mode.torque = true →
      exec (.leaseExpiry t) s = .next (s.after ((({ d with pair := { d.pair with wasHolder := false, applied := false } }.notice 1 0 t 0x0D02
        (BitVec.ofNat 32 (d.pair.cell.toNat % 16 + d.unitBits % 4 * 16 + d.time.k % 65536 * 65536)) true).applyBrakes t true).eventMode t .shadow 0)))
  ∧ (∀ (t : Nat) (s : State), let d := s.dev.advance t
      d.pair.wasHolder = true →
      d.inPair = true →
      d.holdsLease = false →
      d.power.mode.torque = false →
      exec (.leaseExpiry t) s = .next (s.after ({ d with pair := { d.pair with wasHolder := false, applied := false } }.notice 1 0 t 0x0D02
        (BitVec.ofNat 32 (d.pair.cell.toNat % 16 + d.unitBits % 4 * 16 + d.time.k % 65536 * 65536)) true)))
  ∧ (∀ (t : Nat) (s : State), let d := s.dev.advance t
      d.holdsLease = true →
      exec (.leaseExpiry t) s = .next (s.after (d)))

/-- The events of the mirror link have the effect of their rule. In a pair: a link-up records the lanes and half the round
trip; a part of a bad length counts lane events, one with a bad check is marked bad, a whole record without its last
part is kept, and the last part completes it; an acknowledgement raises a holder's pledge and limit, a NACK asks for a
part once, a RELEASE lowers the pledge and the partner's limit, and a record that is late by half a period is dropped
with notice 9. Each of these rows completes, exec answering the next state given: MIRROR_LINK_UP, MIRROR_PART,
MIRROR_ACK, MIRROR_NACK, MIRROR_RELEASE, MIRROR_LATE. (R443, R447, R448, R449) -/
def Obligations.MirrorEventsTakeEffect : Prop :=
  (∀ (t : Nat) (l : BitVec 2) (r : Nat) (s : State), let d := s.dev.advance t
      d.inPair = true →
      exec (.mirrorLinkUp t l r) s = .next (s.after ((d.onPair (fun p => { p with lanes := l, lml := (rneDiv r 2).toNat })).checkFit t)))
  ∧ (∀ (t : Nat) (l : BitVec 2) (r : Nat) (s : State), let d := s.dev.advance t
      d.inPair = false →
      exec (.mirrorLinkUp t l r) s = .next (s.after (d)))
  ∧ (∀ (t : Nat) (p : MirrorPart) (s : State), let d := s.dev.advance t
      d.inPair = true →
      d.holdsLease = false →
      d.lanesUp ≠ [] →
      d.power.mode ≠ .dormant →
      d.power.mode ≠ .boot →
      4096 < p.length.toNat ∨ p.length.toNat % 4 ≠ 0 →
      exec (.mirrorPart t p) s = .next (s.after (d.laneEvents t)))
  ∧ (∀ (t : Nat) (p : MirrorPart) (s : State), let d := s.dev.advance t
      d.inPair = true →
      d.holdsLease = false →
      d.lanesUp ≠ [] →
      d.power.mode ≠ .dormant →
      d.power.mode ≠ .boot →
      p.length.toNat ≤ 4096 →
      p.length.toNat % 4 = 0 →
      d.pair.recNo = some p.period →
      p.crcOk = false →
      exec (.mirrorPart t p) s = .next (s.after ((d.laneEvents t).onPair (fun x => { x with badPart := some p.part, out := x.out ++ [.nack p.period p.part.toNat] }))))
  ∧ (∀ (t : Nat) (p : MirrorPart) (s : State), let d := s.dev.advance t
      d.inPair = true →
      d.holdsLease = false →
      d.lanesUp ≠ [] →
      d.power.mode ≠ .dormant →
      d.power.mode ≠ .boot →
      p.length.toNat ≤ 4096 →
      p.length.toNat % 4 = 0 →
      d.pair.recNo = some p.period →
      p.crcOk = true →
      p.last = false →
      d.pair.lastPart = none →
      p.rec? = none →
      exec (.mirrorPart t p) s = .next (s.after (d.onPair (fun x => { x with
          parts := p.part :: x.parts.filter (· ≠ p.part)
          badPart := if x.badPart = some p.part then none else x.badPart }))))
  ∧ (∀ (t : Nat) (p : MirrorPart) (r : MirrorRec) (s : State), let d := s.dev.advance t
      d.inPair = true →
      d.holdsLease = false →
      d.lanesUp ≠ [] →
      d.power.mode ≠ .dormant →
      d.power.mode ≠ .boot →
      p.length.toNat ≤ 4096 →
      p.length.toNat % 4 = 0 →
      d.pair.recNo = some p.period →
      p.crcOk = true →
      p.last = true →
      p.part = 0 →
      p.rec? = some r →
      exec (.mirrorPart t p) s = .next (s.after (((d.onPair (fun x => { x with
          parts := p.part :: x.parts.filter (· ≠ p.part), lastPart := some p.part, recNew := r
          badPart := if x.badPart = some p.part then none else x.badPart })).onPair Pair.dropRecord).recordDone t r)))
  ∧ (∀ (t : Nat) (p : BitVec 32) (pledge : Nat) (s : State), let d := s.dev.advance t
      d.holdsLease = true →
      exec (.mirrorAck t p pledge) s = .next (s.after (d.onPair (fun x => { x with pledgeIn := max x.pledgeIn pledge, xh := max x.xh pledge }))))
  ∧ (∀ (t : Nat) (p : BitVec 32) (part : Fin 16) (s : State), let d := s.dev.advance t
      d.holdsLease = true →
      (p, part.val) ∉ d.pair.resent →
      exec (.mirrorNack t p part) s = .next (s.after (d.onPair (fun x => { x with resent := x.resent ++ [(p, part.val)], out := x.out ++ [.again p part.val] }))))
  ∧ (∀ (t : Nat) (p : BitVec 32) (part : Fin 16) (s : State), let d := s.dev.advance t
      (p, part.val) ∈ d.pair.resent →
      exec (.mirrorNack t p part) s = .next (s.after (d)))
  ∧ (∀ (t : Nat) (s : State), let d := s.dev.advance t
      d.inPair = true →
      exec (.mirrorRelease t) s = .next (s.after (d.onPair (fun p => { p with pledge := min p.pledge t, partnerX := min p.partnerX t }))))
  ∧ (∀ (t : Nat) (p : BitVec 32) (s : State), let d := s.dev.advance t
      d.pair.recNo = some p →
      d.boundary (d.fullPeriod p + 1) + d.time.tc / 2 < t →
      exec (.mirrorLate t) s = .next (s.after (((d.onPair Pair.dropRecord).laneEvents t).ownNotice t 9 false)))
  ∧ (∀ (t : Nat) (s : State), let d := s.dev.advance t
      d.pair.recNo = none →
      exec (.mirrorLate t) s = .next (s.after (d)))

/-- Changes and mismatches of the safety inputs have the effect of their rule. In DORMANT a SIN level is recorded for the
exit, and a seal that no longer allows operation is kept. In every mode but BOOT and DORMANT: an accepted SEAL that no
longer allows operation causes an STO reaction with trigger 0x0F; a SIN change moves its pair and a new demand takes
its reaction; an input pair that differs for longer than t_disc causes trigger 0x0E; a feedback of STO that differs
from what is shown for too long trigger 0x10, an STO test pulse that does not come back low trigger 0x12, an EDM
channel that stays on trigger 0x11, a lapsed permit and a cross mismatch of two periods trigger 0x19; a connection
silent for longer than its watchdog fails with a notice and its loss reaction, if it has one; without its condition
each changes nothing. Changes of the feedbacks clear what they allow. Each of these rows completes, exec answering the
next state given: SEAL_ACCEPTED, SIN_CHANGE, SIN_DISCREPANCY, STO_FB_MISMATCH, STO_TEST_PULSE, EDM_MISMATCH,
PERMIT_LAPSE, CROSS_MISMATCH, CONNECTION_FAILED, STO_FB_CHANGE, EDM_IN_CHANGE. (R45, R461, R462, R464, R465, R485) -/
def Obligations.SafetyInputEventsTakeEffect : Prop :=
  (∀ (t : Nat) (bit : Fin 8) (v : Bool) (s : State), let d := s.dev.advance t
      d.power.mode = .boot →
      exec (.sealAccepted t bit v) s = .next (s.after (d.onSafety (fun x => { x with sealPins := setBit x.sealPins bit.val v }))))
  ∧ (∀ (t : Nat) (bit : Fin 8) (v : Bool) (s : State), let d := s.dev.advance t
      d.power.mode = .run →
      (d.onSafety (fun x => { x with sealPins := setBit x.sealPins bit.val v })).sealOk = false →
      exec (.sealAccepted t bit v) s = .next (s.after (((d.onSafety (fun x => { x with sealPins := setBit x.sealPins bit.val v })).stoReaction t 0x0F 0 false).sweep t)))
  ∧ (∀ (t : Nat) (bit : Fin 8) (v : Bool) (s : State), let d := s.dev.advance t
      d.power.mode = .commission →
      exec (.sealAccepted t bit v) s = .next (s.after ((d.onSafety (fun x => { x with sealPins := setBit x.sealPins bit.val v })).sweep t)))
  ∧ (∀ (t : Nat) (bit : Fin 8) (v : Bool) (s : State), let d := s.dev.advance t
      d.power.mode = .dormant →
      (d.onSafety (fun x => { x with sealPins := setBit x.sealPins bit.val v })).sealOk = false →
      exec (.sealAccepted t bit v) s = .next (s.after ((d.onSafety (fun x => { x with sealPins := setBit x.sealPins bit.val v })).onPower (fun p => { p with dormantBad := true }))))
  ∧ (∀ (t : Nat) (bit : Fin 8) (v : Bool) (s : State), let d := s.dev.advance t
      d.power.mode = .dormant →
      (d.onSafety (fun x => { x with sealPins := setBit x.sealPins bit.val v })).sealOk = true →
      exec (.sealAccepted t bit v) s = .next (s.after ((d.onSafety (fun x => { x with sealPins := setBit x.sealPins bit.val v })))))
  ∧ (∀ (t : Nat) (bit : Fin 8) (v : Bool) (s : State), let d := s.dev.advance t
      d.power.mode = .run →
      (d.onSafety (fun x => { x with sealPins := setBit x.sealPins bit.val v })).sealOk = true →
      exec (.sealAccepted t bit v) s = .next (s.after ((d.onSafety (fun x => { x with sealPins := setBit x.sealPins bit.val v })).sweep t)))
  ∧ (∀ (t : Nat) (pin : Fin 16) (v : Bool) (s : State), let d := s.dev.advance t
      d.power.mode ≠ .dormant →
      ((d.onSafety (fun x => { x with sin := setBit x.sin pin.val v })).sinPair (pin.val / 2)).function = 0 →
      exec (.sinChange t pin v) s = .next (s.after (d.onSafety (fun x => { x with sin := setBit x.sin pin.val v }))))
  ∧ (∀ (t : Nat) (pin : Fin 16) (v : Bool) (s : State), let d := s.dev.advance t
      d.power.mode = .dormant →
      exec (.sinChange t pin v) s = .next (s.after (d.onSafety (fun x => { x with sin := setBit x.sin pin.val v }))))
  ∧ (∀ (t : Nat) (pin : Fin 16) (v : Bool) (d2 : Dev) (s : State), let d := s.dev.advance t
      d.power.mode ≠ .dormant →
      ((d.onSafety (fun x => { x with sin := setBit x.sin pin.val v })).sinPair (pin.val / 2)).function ≠ 0 →
      d2 = (d.onSafety (fun x => { x with sin := setBit x.sin pin.val v })).onSafety (fun x => { x with pairs := upd x.pairs (pin.val / 2) (fun y =>
        y.step t ((d.onSafety (fun x => { x with sin := setBit x.sin pin.val v })).sinA (pin.val / 2)) ((d.onSafety (fun x => { x with sin := setBit x.sin pin.val v })).sinB (pin.val / 2))) }) →
      d2.evaluates = true →
      d2.pairDemand (pin.val / 2) = true →
      d.pairDemand (pin.val / 2) = false →
      exec (.sinChange t pin v) s = .next (s.after ((d2.pairReact t (pin.val / 2)).sweep t)))
  ∧ (∀ (t : Nat) (pin : Fin 16) (v : Bool) (d2 : Dev) (s : State), let d := s.dev.advance t
      d.power.mode ≠ .dormant →
      ((d.onSafety (fun x => { x with sin := setBit x.sin pin.val v })).sinPair (pin.val / 2)).function ≠ 0 →
      d2 = (d.onSafety (fun x => { x with sin := setBit x.sin pin.val v })).onSafety (fun x => { x with pairs := upd x.pairs (pin.val / 2) (fun y =>
        y.step t ((d.onSafety (fun x => { x with sin := setBit x.sin pin.val v })).sinA (pin.val / 2)) ((d.onSafety (fun x => { x with sin := setBit x.sin pin.val v })).sinB (pin.val / 2))) }) →
      d2.evaluates = true →
      d2.pairDemand (pin.val / 2) = false ∨ d.pairDemand (pin.val / 2) = true →
      exec (.sinChange t pin v) s = .next (s.after (d2.sweep t)))
  ∧ (∀ (t : Nat) (pin : Fin 16) (v : Bool) (d2 : Dev) (s : State), let d := s.dev.advance t
      d.power.mode ≠ .dormant →
      ((d.onSafety (fun x => { x with sin := setBit x.sin pin.val v })).sinPair (pin.val / 2)).function ≠ 0 →
      d2 = (d.onSafety (fun x => { x with sin := setBit x.sin pin.val v })).onSafety (fun x => { x with pairs := upd x.pairs (pin.val / 2) (fun y =>
        y.step t ((d.onSafety (fun x => { x with sin := setBit x.sin pin.val v })).sinA (pin.val / 2)) ((d.onSafety (fun x => { x with sin := setBit x.sin pin.val v })).sinB (pin.val / 2))) }) →
      d2.evaluates = false →
      exec (.sinChange t pin v) s = .next (s.after (d2)))
  ∧ (∀ (t : Nat) (p : Fin 8) (s : State), let d := s.dev.advance t
      (look d.safety.pairs p.val).differ = none →
      exec (.sinDiscrepancy t p) s = .next (s.after (d)))
  ∧ (∀ (t : Nat) (p : Fin 8) (x : Nat) (s : State), let d := s.dev.advance t
      (look d.safety.pairs p.val).differ = some x →
      d.evaluates = true →
      (d.sinPair p.val).function ≠ 0 →
      (look d.safety.pairs p.val).disc = false →
      x + (d.sinPair p.val).tDisc.toNat * ms1 < t →
      exec (.sinDiscrepancy t p) s = .next (s.after ((d.onSafety (fun y => { y with pairs := put y.pairs p.val { look d.safety.pairs p.val with disc := true, both := false } })).stoReaction t 0x0E p.val false)))
  ∧ (∀ (t : Nat) (a b : Bool × Nat) (s : State), let d := s.dev.advance t
      d.stoShown = some (a, b) →
      d.evaluates = true →
      d.safety.stoFbA ≠ a.1 →
      a.2 + d.tStofb < t →
      exec (.stoFbMismatch t) s = .next (s.after (d.stoReaction t 0x10 0 false)))
  ∧ (∀ (t : Nat) (a b : Bool × Nat) (s : State), let d := s.dev.advance t
      d.stoShown = some (a, b) →
      d.evaluates = true →
      d.safety.stoFbB ≠ b.1 →
      b.2 + d.tStofb < t →
      exec (.stoFbMismatch t) s = .next (s.after (d.stoReaction t 0x10 0 false)))
  ∧ (∀ (t : Nat) (a b : Bool × Nat) (s : State), let d := s.dev.advance t
      d.stoShown = some (a, b) →
      d.safety.stoFbA = a.1 ∨ t ≤ a.2 + d.tStofb →
      d.safety.stoFbB = b.1 ∨ t ≤ b.2 + d.tStofb →
      exec (.stoFbMismatch t) s = .next (s.after (d)))
  ∧ (∀ (t : Nat) (b : Bool) (s : State), let d := s.dev.advance t
      d.evaluates = true →
      (if b then d.safety.stoB else d.safety.stoA) = true →
      exec (.stoTestPulse t b false) s = .next (s.after (d.stoReaction t 0x12 0 false)))
  ∧ (∀ (t : Nat) (b : Bool) (s : State), let d := s.dev.advance t
      exec (.stoTestPulse t b true) s = .next (s.after (d)))
  ∧ (∀ (t : Nat) (c : ConfigStoEdm) (a b : Bool × Nat) (i : Nat) (s : State), let d := s.dev.advance t
      d.stoEdm = some c →
      d.stoShown = some (a, b) →
      d.evaluates = true →
      (List.range 8).find? (fun i =>
        let o := if c.edmChan.getLsbD i then b else a
        c.edmMask.getLsbD i && d.safety.edmIn.getLsbD i == o.1 && decide (o.2 + c.tEdm.toNat * ms1 < t)) = some i →
      exec (.edmMismatch t) s = .next (s.after (d.stoReaction t 0x11 i false)))
  ∧ (∀ (t : Nat) (b : Nat) (s : State), let d := s.dev.advance t
      d.safety.permit = some b →
      d.power.mode.torque = true →
      b < t →
      exec (.permitLapse t) s = .next (s.after ((d.onSafety (fun x => { x with permit := none })).stoReaction t 0x19 0 false)))
  ∧ (∀ (t : Nat) (b : Nat) (s : State), let d := s.dev.advance t
      d.safety.permit = some b →
      t ≤ b →
      exec (.permitLapse t) s = .next (s.after (d)))
  ∧ (∀ (t : Nat) (since : Nat) (s : State), let d := s.dev.advance t
      d.evaluates = true →
      since + 2 * d.time.tc < t →
      exec (.crossMismatch t since) s = .next (s.after (d.stoReaction t 0x19 0 false)))
  ∧ (∀ (t : Nat) (since : Nat) (s : State), let d := s.dev.advance t
      t ≤ since + 2 * d.time.tc →
      exec (.crossMismatch t since) s = .next (s.after (d)))
  ∧ (∀ (t : Nat) (c : Fin 64) (s : State), let d := s.dev.advance t
      (d.conn c.val).dir = 1 →
      (look d.safety.conns c.val).state ≠ .failed →
      d.evaluates = true →
      (look d.safety.conns c.val).lastRx + (d.conn c.val).tWd.toNat < t →
      (d.conn c.val).loss ≠ 0 →
      exec (.connectionFailed t c) s = .next (s.after ((((d.onSafety (fun x => { x with conns := put x.conns c.val { look d.safety.conns c.val with state := .failed, good := 0 } })).notice 9 0 t 0x0E03
        (safetyArg 0x17 c.val false) true).onSafety (fun x => { x with connTrig := setBit x.connTrig c.val true })).react t (d.conn c.val).loss.toNat 0x17 c.val false)))
  ∧ (∀ (t : Nat) (c : Fin 64) (s : State), let d := s.dev.advance t
      (d.conn c.val).dir = 1 →
      (look d.safety.conns c.val).state ≠ .failed →
      d.evaluates = true →
      (look d.safety.conns c.val).lastRx + (d.conn c.val).tWd.toNat < t →
      (d.conn c.val).loss = 0 →
      exec (.connectionFailed t c) s = .next (s.after ((d.onSafety (fun x => { x with conns := put x.conns c.val { look d.safety.conns c.val with state := .failed, good := 0 } })).notice 9 0 t 0x0E03
        (safetyArg 0x17 c.val false) true)))
  ∧ (∀ (t : Nat) (c : Fin 64) (s : State), let d := s.dev.advance t
      (d.conn c.val).dir ≠ 1 ∨ (look d.safety.conns c.val).state = .failed ∨ t ≤ (look d.safety.conns c.val).lastRx + (d.conn c.val).tWd.toNat →
      exec (.connectionFailed t c) s = .next (s.after (d)))
  ∧ (∀ (t : Nat) (b v : Bool) (d1 : Dev) (s : State), let d := s.dev.advance t
      d1 = d.onSafety (fun s =>
        let a' := if b then s.stoFbA else v
        let b' := if b then v else s.stoFbB
        { s with stoFbA := a', stoFbB := b', fbSince := if a' && b' && !(s.stoFbA && s.stoFbB) then t else s.fbSince }) →
      exec (.stoFbChange t b v) s = .next (s.after (if d1.evaluates then d1.sweep t else d1)))
  ∧ (∀ (t : Nat) (i : Fin 8) (v : Bool) (d1 : Dev) (s : State), let d := s.dev.advance t
      d1 = d.onSafety (fun s => { s with edmIn := setBit s.edmIn i.val v }) →
      exec (.edmInChange t i v) s = .next (s.after (if d1.evaluates then d1.sweep t else d1)))

/-- The timers of stops and brake tests have the effect of their rule. With SS1 timed, the end of t_SS1 follows the stop
with STO; a monitored stop that is not still at t_stop_max causes an STO reaction with trigger 0x15 for its arm; a
brake test goes from APPLY to PLUS and from PLUS to MINUS by t_test each, and the end of MINUS is a pass; a brake
whose test is due is noticed once. Each of these rows completes, exec answering the next state given: SS1_TIME_EXPIRY,
STOP_DEADLINE, BRAKE_TEST_PHASE, BRAKE_TEST_DUE. (R470, R471, R478) -/
def Obligations.SafetyTimersTakeEffect : Prop :=
  (∀ (t : Nat) (x : Ss1) (c : ConfigStops) (s : State), let d := s.dev.advance t
      d.safety.ss1 = some x →
      d.stops = some c →
      c.ss1Mode = 1 →
      x.e + c.tSs1.toNat ≤ t →
      exec (.ss1TimeExpiry t) s = .next (s.after (d.followSs1 t)))
  ∧ (∀ (t : Nat) (x : Ss1) (c : ConfigStops) (s : State), let d := s.dev.advance t
      d.safety.ss1 = some x →
      d.stops = some c →
      t < x.e + c.tSs1.toNat →
      exec (.ss1TimeExpiry t) s = .next (s.after (d)))
  ∧ (∀ (t : Nat) (c : ConfigStops) (a : Nat) (w : Watch) (s : State), let d := s.dev.advance t
      d.stops = some c →
      (d.markStill t).safety.watch.find? (fun e => e.2.overdue c t) = some (a, w) →
      (d.markStill t).power.mode.torque = true →
      exec (.stopDeadline t) s = .next (s.after ((d.markStill t).stoReaction t 0x15 0 false)))
  ∧ (∀ (t : Nat) (c : ConfigStops) (a : Nat) (w : Watch) (s : State), let d := s.dev.advance t
      d.stops = some c →
      (d.markStill t).safety.watch.find? (fun e => e.2.overdue c t) = some (a, w) →
      (d.markStill t).power.mode.torque = false →
      exec (.stopDeadline t) s = .next (s.after (d.markStill t)))
  ∧ (∀ (t : Nat) (c : ConfigStops) (s : State), let d := s.dev.advance t
      d.stops = some c →
      (d.markStill t).safety.watch.find? (fun e => e.2.overdue c t) = none →
      exec (.stopDeadline t) s = .next (s.after (d.markStill t)))
  ∧ (∀ (t : Nat) (x : BrakeTesting) (s : State), let d := s.dev.advance t
      d.safety.test = some x →
      x.until_ ≤ t →
      x.phase = .apply →
      exec (.brakeTestPhase t) s = .next (s.after (d.onSafety (fun y => { y with test := some { x with phase := .plus, until_ := x.until_ + x.p.tTest.toNat * ms1 } }))))
  ∧ (∀ (t : Nat) (x : BrakeTesting) (s : State), let d := s.dev.advance t
      d.safety.test = some x →
      x.until_ ≤ t →
      x.phase = .plus →
      exec (.brakeTestPhase t) s = .next (s.after (d.onSafety (fun y => { y with test := some { x with phase := .minus, until_ := x.until_ + x.p.tTest.toNat * ms1 } }))))
  ∧ (∀ (t : Nat) (x : BrakeTesting) (s : State), let d := s.dev.advance t
      d.safety.test = some x →
      x.until_ ≤ t →
      x.phase = .minus →
      exec (.brakeTestPhase t) s = .next (s.after ((d.endBrakeTest t 0).sweep t)))
  ∧ (∀ (t : Nat) (x : BrakeTesting) (s : State), let d := s.dev.advance t
      d.safety.test = some x →
      t < x.until_ ∨ x.phase = .wait →
      exec (.brakeTestPhase t) s = .next (s.after (d)))
  ∧ (∀ (t : Nat) (b : Fin 16) (c : ConfigSbc) (s : State), let d := s.dev.advance t
      d.sbc = some c →
      c.brakes.getLsbD b.val = false ∨ d.safety.dueSaid.getLsbD b.val = true ∨ t ≤ look d.safety.lastPass b.val + c.tBt.toNat * 3686400000000 →
      exec (.brakeTestDue t b) s = .next (s.after (d)))
  ∧ (∀ (t : Nat) (b : Fin 16) (c : ConfigSbc) (s : State), let d := s.dev.advance t
      d.sbc = some c →
      c.brakes.getLsbD b.val = true →
      d.safety.dueSaid.getLsbD b.val = false →
      look d.safety.lastPass b.val + c.tBt.toNat * 3686400000000 < t →
      exec (.brakeTestDue t b) s = .next (s.after ((d.onSafety (fun y => { y with dueSaid := setBit y.dueSaid b.val true })).notice 9 0 t 0x0E06 (safetyArg 0x18 b.val false) true)))

/-- Brake feedback and pull-in, trips, carrier cycles and coarse periods have the effect of their rule. Pull-in ends in
HOLD after t_pull; a brake feedback records its level and instant; a feedback that is late by t_fb is noticed and
causes the stop of trigger 0x18 (on release) or an STO reaction (on engagement). A fall of TRIP_N of at least 10 ns
latches the trip, stamps it, turns the gates off or each low gate on after the dead time, and is noticed, as any fall
does while a clear waits; another only keeps the line's end. A carrier cycle whose start has come, of a driven group,
moves its phases, gates and edges; gates that differ, at its start or between, count a fault event. A carrier period
off by more than 32 sets coarse, and within 16 clears it. Each of these rows completes, exec answering the next state
given: BRAKE_PULL_IN_END, BRK_FB_CHANGE, BRAKE_FB_LATE, TRIP_N_FALL, PWM_CARRIER_CYCLE, PWM_COARSE, PWM_COARSE_CLEAR.
(R374, R376, R381, R382, R385, R386) -/
def Obligations.BrakeAndPwmEventsTakeEffect : Prop :=
  (∀ (t : Nat) (b : Fin 16) (c : ConfigBrake) (s : State), let d := s.dev.advance t
      (look d.pwm.brakes b.val).cfg = some c →
      (look d.pwm.brakes b.val).phase = .pullIn →
      (look d.pwm.brakes b.val).since + c.tPull.toNat * 1024000 ≤ t →
      exec (.brakePullInEnd t b) s = .next (s.after (d.onPwm (fun y => { y with brakes := put y.brakes b.val { look d.pwm.brakes b.val with phase := .hold, since := t } }))))
  ∧ (∀ (t : Nat) (b : Fin 16) (c : ConfigBrake) (s : State), let d := s.dev.advance t
      (look d.pwm.brakes b.val).cfg = some c →
      (look d.pwm.brakes b.val).phase ≠ .pullIn ∨ t < (look d.pwm.brakes b.val).since + c.tPull.toNat * 1024000 →
      exec (.brakePullInEnd t b) s = .next (s.after (d)))
  ∧ (∀ (t : Nat) (b : Fin 16) (v : Bool) (d1 : Dev) (s : State), let d := s.dev.advance t
      d1 = d.onPwm (fun y => { y with brakes := upd y.brakes b.val (fun x => if x.fb = v then x else { x with fb := v, fbAt := t }) }) →
      (look d1.pwm.brakes b.val).fbReleased = true →
      exec (.brkFbChange t b v) s = .next (s.after ((d1.onSafety (fun x => { x with brakeRel := setBit x.brakeRel b.val false })).sweep t)))
  ∧ (∀ (t : Nat) (b : Fin 16) (v : Bool) (d1 : Dev) (s : State), let d := s.dev.advance t
      d1 = d.onPwm (fun y => { y with brakes := upd y.brakes b.val (fun x => if x.fb = v then x else { x with fb := v, fbAt := t }) }) →
      (look d1.pwm.brakes b.val).fbReleased = false →
      exec (.brkFbChange t b v) s = .next (s.after (d1)))
  ∧ (∀ (t : Nat) (b : Fin 16) (c : ConfigBrake) (s : State), let d := s.dev.advance t
      (look d.pwm.brakes b.val).cfg = some c →
      (look d.pwm.brakes b.val).late = false →
      (look d.pwm.brakes b.val).cmdAt + c.tFb.toNat * ms1 < t →
      (look d.pwm.brakes b.val).fbReleased = false →
      (look d.pwm.brakes b.val).cmdRel = true →
      exec (.brakeFbLate t b) s = .next (s.after (let d1 := (d.onPwm (fun p => { p with brakes := put p.brakes b.val { look d.pwm.brakes b.val with late := true } })).pwmNotice t 0x14 b.val true true
        (d1.onSafety (fun x => { x with
          brakeRel := setBit x.brakeRel b.val true, brakeRelOnly := x.brakeRelOnly || !d1.latchedTrig 0x18 })).react t 3 0x18 b.val false)))
  ∧ (∀ (t : Nat) (b : Fin 16) (c : ConfigBrake) (s : State), let d := s.dev.advance t
      (look d.pwm.brakes b.val).cfg = some c →
      (look d.pwm.brakes b.val).late = false →
      (look d.pwm.brakes b.val).cmdAt + c.tFb.toNat * ms1 < t →
      (look d.pwm.brakes b.val).fbReleased = true →
      (look d.pwm.brakes b.val).cmdRel = false →
      exec (.brakeFbLate t b) s = .next (s.after (let d1 := (d.onPwm (fun p => { p with brakes := put p.brakes b.val { look d.pwm.brakes b.val with late := true } })).pwmNotice t 0x14 b.val true true
        (d1.onSafety (fun x => { x with needTest := setBit x.needTest b.val true, brakeRelOnly := false })).stoReaction t 0x18 b.val false)))
  ∧ (∀ (t : Nat) (b : Fin 16) (c : ConfigBrake) (s : State), let d := s.dev.advance t
      (look d.pwm.brakes b.val).cfg = some c →
      (look d.pwm.brakes b.val).late = true ∨ t ≤ (look d.pwm.brakes b.val).cmdAt + c.tFb.toNat * ms1 ∨ (look d.pwm.brakes b.val).fbReleased = (look d.pwm.brakes b.val).cmdRel →
      exec (.brakeFbLate t b) s = .next (s.after (d)))
  ∧ (∀ (t : Nat) (g : Fin 8) (low : Nat) (c : ConfigPwmGroup) (s : State), let d := s.dev.advance t
      (look d.pwm.groups g.val).cfg = some c →
      (d.tripSets low = true ∧ (look d.pwm.groups g.val).trip = false) ∨ (look d.pwm.groups g.val).clearAt.isSome = true →
      c.tripState ≠ 1 ∨ d.power.mode.torque = false ∨ d.isRetired 6 g.val = true →
      exec (.tripNFall t g low) s = .next (s.after ((((d.draw 1).onGroup g.val (fun y => { y with tripUntil := max y.tripUntil (t + (low * 1024 + 999) / 1000) })).onGroup g.val (fun y => { y with
          trip := true, tripAt := t, clearAt := none, driven := false, edges := [], gates := 0 })).pwmNotice t 0x10 g.val false true)))
  ∧ (∀ (t : Nat) (g : Fin 8) (low : Nat) (c : ConfigPwmGroup) (s : State), let d := s.dev.advance t
      (look d.pwm.groups g.val).cfg = some c →
      (d.tripSets low = true ∧ (look d.pwm.groups g.val).trip = false) ∨ (look d.pwm.groups g.val).clearAt.isSome = true →
      c.tripState = 1 →
      d.power.mode.torque = true →
      d.isRetired 6 g.val = false →
      exec (.tripNFall t g low) s = .next (s.after ((((d.draw 1).onGroup g.val (fun y => { y with tripUntil := max y.tripUntil (t + (low * 1024 + 999) / 1000) })).onGroup g.val (fun y => { y with
          trip := true, tripAt := t, clearAt := none, driven := false, before := y.gatesAt t &&& lowGates, edgesAt := 25 * t, gates := lowGates
          edges := ([1, 3, 5].filter (fun i => !(y.gatesAt t &&& lowGates).getLsbD i)).map (fun i => { step := max c.tDt.toNat 640, gate := i, on := true }) })).pwmNotice t 0x10 g.val false true)))
  ∧ (∀ (t : Nat) (g : Fin 8) (low : Nat) (s : State), let d := s.dev.advance t
      (look d.pwm.groups g.val).clearAt = none →
      d.tripSets low = false ∨ (look d.pwm.groups g.val).trip = true →
      exec (.tripNFall t g low) s = .next (s.after ((d.draw 1).onGroup g.val (fun y => { y with tripUntil := max y.tripUntil (t + (low * 1024 + 999) / 1000) }))))
  ∧ (∀ (t : Nat) (g : Fin 8) (pins : BitVec 6) (c : ConfigPwmGroup) (s : State), let d := s.dev.advance t
      (look d.pwm.groups g.val).cfg = some c →
      d.isRetired 6 g.val = false →
      d.cycleDue t g.val c = true →
      (look d.pwm.groups g.val).driven = true →
      exec (.pwmCarrierCycle t g pins) s = .next (s.after (let o := cycleStart d.time.tc c.nC.toNat (look d.pwm.groups g.val).cyc
        let l := (look d.pwm.groups g.val).phases.map (fun p => p.cycle c (finePeriod d.time.tc c.nC.toNat))
        ((d.readBack t g.val pins).onGroup g.val (fun y => { y with cyc := y.cyc + 1 })).onGroup g.val (fun y => { y with phases := l, gates := phaseGates l, before := y.gates, edgesAt := 25 * d.bk + o, edges := y.cycleEdges c o l }))))
  ∧ (∀ (t : Nat) (g : Fin 8) (pins : BitVec 6) (c : ConfigPwmGroup) (s : State), let d := s.dev.advance t
      (look d.pwm.groups g.val).cfg = some c →
      d.isRetired 6 g.val = false →
      d.cycleDue t g.val c = true →
      (look d.pwm.groups g.val).driven = false →
      exec (.pwmCarrierCycle t g pins) s = .next (s.after (((d.readBack t g.val pins).onGroup g.val (fun y => { y with cyc := y.cyc + 1 })))))
  ∧ (∀ (t : Nat) (g : Fin 8) (pins : BitVec 6) (c : ConfigPwmGroup) (s : State), let d := s.dev.advance t
      (look d.pwm.groups g.val).cfg = some c →
      d.isRetired 6 g.val = false →
      d.cycleDue t g.val c = false →
      exec (.pwmCarrierCycle t g pins) s = .next (s.after (d.readBack t g.val pins)))
  ∧ (∀ (d : Dev) (t g : Nat) (pins : BitVec 6), d.readBack t g pins = if pins = (look d.pwm.groups g).gatesAt t then d
      else (d.faultEvent 6 g t).pwmNotice t 0x13 g false false)
  ∧ (∀ (t : Nat) (g : Fin 8) (pins : BitVec 6) (c : ConfigPwmGroup) (s : State), let d := s.dev.advance t
      (look d.pwm.groups g.val).cfg = some c →
      d.isRetired 6 g.val = true →
      exec (.pwmCarrierCycle t g pins) s = .next (s.after (d)))
  ∧ (∀ (t : Nat) (g : Fin 8) (pins : BitVec 6) (s : State), let d := s.dev.advance t
      (look d.pwm.groups g.val).cfg = none →
      exec (.pwmCarrierCycle t g pins) s = .next (s.after (d)))
  ∧ (∀ (t : Nat) (g : Fin 8) (span : BitVec 16) (s : State), let d := s.dev.advance t
      32 < spanOff span →
      (look d.pwm.groups g.val).coarse = false →
      exec (.pwmCoarse t g span) s = .next (s.after (((d.onGroup g.val (fun y => { y with span := span, coarse := true })).faultEvent 6 g.val t).pwmNotice t 0x12 g.val false true)))
  ∧ (∀ (t : Nat) (g : Fin 8) (span : BitVec 16) (s : State), let d := s.dev.advance t
      32 < spanOff span →
      (look d.pwm.groups g.val).coarse = true →
      exec (.pwmCoarse t g span) s = .next (s.after (d.onGroup g.val (fun y => { y with span := span, coarse := true }))))
  ∧ (∀ (t : Nat) (g : Fin 8) (span : BitVec 16) (s : State), let d := s.dev.advance t
      spanOff span ≤ 32 →
      exec (.pwmCoarse t g span) s = .next (s.after (d)))
  ∧ (∀ (t : Nat) (g : Fin 8) (span : BitVec 16) (s : State), let d := s.dev.advance t
      spanOff span ≤ 16 →
      exec (.pwmCoarseClear t g span) s = .next (s.after (d.onGroup g.val (fun y => { y with span := span, coarse := false }))))
  ∧ (∀ (t : Nat) (g : Fin 8) (span : BitVec 16) (s : State), let d := s.dev.advance t
      16 < spanOff span →
      exec (.pwmCoarseClear t g span) s = .next (s.after (d)))

/-- Step pulses and chopper edges have the effect of their rule. In a mode with torque, a step channel runs its multiplier
for the ticks since the last pulse; each request dropped is posted and counts an event. A chopper that is on: a
current above its reference while driving starts the off-time; at the end of the blanking time a coil without current
goes on driving, one with current ends its drive, and the sixteenth such drive phase in a row switches the gates off
and latches the channel off with a notice; the end of t_off begins the next drive phase, or slow decay with a
reference of 0; t_on_max after the drive began the off-time begins, which is reported as an open coil and counts a
fault event. A reference period of an enabled channel takes the new references, after the multiplier has run where the
mode has torque; in another mode the references alone change. A channel at rest for more than the hold delay goes to
the hold current. Before its time, in another phase and with the chopper off, each changes nothing. Each of these rows
completes, exec answering the next state given: STEP_PULSE, CHOP_ISNS_HIGH, CHOP_BLANK_END, CHOP_OFF_TIME_END,
CHOP_ON_TIME_LIMIT, HOLD_DELAY, CHOP_REF_PWM_PERIOD. (R146, R153, R155, R157, R158, R159) -/
def Obligations.StepAndChopperEventsTakeEffect : Prop :=
  (∀ (t : Nat) (m : Fin 16) (n : Nat) (s : State), let d := s.dev.advance t
      d.power.mode.torque = true →
      (look d.mults m.val).step.isSome = true →
      ((look d.mults m.val).run n).2 = [] →
      exec (.stepPulse t m n) s = .next (s.after ({ d with mults := put d.mults m.val ((look d.mults m.val).run n).1 })))
  ∧ (∀ (t : Nat) (m : Fin 16) (n j : Nat) (s : State), let d := s.dev.advance t
      d.power.mode.torque = true →
      (look d.mults m.val).step.isSome = true →
      ((look d.mults m.val).run n).2 = [j] →
      exec (.stepPulse t m n) s = .next (s.after ((({ d with mults := put d.mults m.val ((look d.mults m.val).run n).1 }).rateNotice (t - lsbOfTicks j) 2 m.val false).faultEvent 9 m.val (t - lsbOfTicks j))))
  ∧ (∀ (t : Nat) (m : Fin 16) (n : Nat) (s : State), let d := s.dev.advance t
      d.power.mode.torque = false ∨ (look d.mults m.val).step = none →
      exec (.stepPulse t m n) s = .next (s.after (d)))
  ∧ (∀ (t : Nat) (c : Fin 8) (k : Coil) (s : State), let d := s.dev.advance t
      d.chopOn c.val = true → ((look d.chops c.val).coil k).phase = .drive → ((look d.chops c.val).coil k).since ≤ t →
      exec (.chopIsnsHigh t c k) s = .next (s.after (d.onChop c.val (fun x => x.onCoil k (fun y => (y).enter (d.chopCfg c.val) t .decay)))))
  ∧ (∀ (t : Nat) (c : Fin 8) (k : Coil) (s : State), let d := s.dev.advance t
      d.chopOn c.val = false ∨ ((look d.chops c.val).coil k).phase ≠ .drive ∨ t < ((look d.chops c.val).coil k).since →
      exec (.chopIsnsHigh t c k) s = .next (s.after (d)))
  ∧ (∀ (t : Nat) (c : Fin 8) (k : Coil) (s : State), let d := s.dev.advance t
      d.chopOn c.val = true → ((look d.chops c.val).coil k).phase = .blank → ((look d.chops c.val).coil k).since + 256 * (d.chopCfg c.val).blank.toNat ≤ t →
      exec (.chopBlankEnd t c k false) s = .next (s.after (d.onChop c.val (fun x => x.onCoil k (fun y => ({ y with short := 0 }).enter (d.chopCfg c.val) t .drive)))))
  ∧ (∀ (t : Nat) (c : Fin 8) (k : Coil) (s : State), let d := s.dev.advance t
      d.chopOn c.val = true → ((look d.chops c.val).coil k).phase = .blank → ((look d.chops c.val).coil k).since + 256 * (d.chopCfg c.val).blank.toNat ≤ t → ((look d.chops c.val).coil k).short + 1 < 16 →
      exec (.chopBlankEnd t c k true) s = .next (s.after (d.onChop c.val (fun x => x.onCoil k (fun y => ({ y with short := y.short + 1 }).enter (d.chopCfg c.val) t .decay)))))
  ∧ (∀ (t : Nat) (c : Fin 8) (k : Coil) (s : State), let d := s.dev.advance t
      d.chopOn c.val = true → ((look d.chops c.val).coil k).phase = .blank → ((look d.chops c.val).coil k).since + 256 * (d.chopCfg c.val).blank.toNat ≤ t → 15 ≤ ((look d.chops c.val).coil k).short →
      exec (.chopBlankEnd t c k true) s = .next (s.after ((d.onChop c.val (fun x => { x with
        latched := true, coilA := { short := x.coilA.short }, coilB := { short := x.coilB.short } })).rateNotice t 4 (16 + c.val) (k = .b))))
  ∧ (∀ (t : Nat) (c : Fin 8) (k : Coil) (v : Bool) (s : State), let d := s.dev.advance t
      d.chopOn c.val = false ∨ ((look d.chops c.val).coil k).phase ≠ .blank ∨ t < ((look d.chops c.val).coil k).since + 256 * (d.chopCfg c.val).blank.toNat →
      exec (.chopBlankEnd t c k v) s = .next (s.after (d)))
  ∧ (∀ (t : Nat) (c : Fin 8) (k : Coil) (s : State), let d := s.dev.advance t
      d.chopOn c.val = true → ((look d.chops c.val).coil k).phase = .decay → ((look d.chops c.val).coil k).since + 256 * (d.chopCfg c.val).tOff.toNat ≤ t →
      exec (.chopOffTimeEnd t c k) s = .next (s.after (d.onChop c.val (fun x => x.onCoil k (fun y => y.enter (d.chopCfg c.val) t (if y.ref = 0 then .slow else .blank))))))
  ∧ (∀ (t : Nat) (c : Fin 8) (k : Coil) (s : State), let d := s.dev.advance t
      d.chopOn c.val = false ∨ ((look d.chops c.val).coil k).phase ≠ .decay ∨ t < ((look d.chops c.val).coil k).since + 256 * (d.chopCfg c.val).tOff.toNat →
      exec (.chopOffTimeEnd t c k) s = .next (s.after (d)))
  ∧ (∀ (t : Nat) (c : Fin 8) (k : Coil) (s : State), let d := s.dev.advance t
      d.chopOn c.val = true → ((look d.chops c.val).coil k).phase = .drive → ((look d.chops c.val).coil k).driveAt + 256 * (d.chopCfg c.val).tOnMax.toNat ≤ t →
      exec (.chopOnTimeLimit t c k) s = .next (s.after ((((d.onChop c.val (fun x => x.onCoil k (fun y => (y).enter (d.chopCfg c.val) t .decay))).onMult
        (16 + c.val) (fun m => { m with chopOpen := true })).rateNotice t 3 (16 + c.val) (k = .b)).faultEvent 9 (16 + c.val) t)))
  ∧ (∀ (t : Nat) (c : Fin 8) (k : Coil) (s : State), let d := s.dev.advance t
      d.chopOn c.val = false ∨ ((look d.chops c.val).coil k).phase ≠ .drive ∨ t < ((look d.chops c.val).coil k).driveAt + 256 * (d.chopCfg c.val).tOnMax.toNat →
      exec (.chopOnTimeLimit t c k) s = .next (s.after (d)))
  ∧ (∀ (t : Nat) (c : Fin 8) (p : ConfigChopper) (s : State), let d := s.dev.advance t
      (look d.mults (16 + c.val)).chop = some p →
      exec (.holdDelay t c) s = .next (s.after (d.onChop c.val (fun x =>
        if (look d.mults (16 + c.val)).v = 0 ∧ p.holdDelay.toNat < x.zero then { x with atHold := true } else x))))
  ∧ (∀ (t : Nat) (c : Fin 8) (s : State), let d := s.dev.advance t
      (look d.mults (16 + c.val)).chop = none → exec (.holdDelay t c) s = .next (s.after d))
  ∧ (∀ (t : Nat) (c : Fin 8) (n : Nat) (p : ConfigChopper) (s : State), let d := s.dev.advance t
      d.chopEnabled c.val = true → d.power.mode.torque = true → let d1 := d.runMult t (16 + c.val) n
      (look d1.mults (16 + c.val)).chop = some p →
      let theta := (look d1.mults (16 + c.val)).now.toNat / 2 ^ 24 % 1024
      let amp := if (look d1.chops c.val).atHold then p.iHold.toNat else p.iRun.toNat
      exec (.chopRefPwmPeriod t c n) s = .next (s.after (d1.onChop c.val (fun x => { x with
        coilA := x.coilA.take p t (coilRef theta amp false), coilB := x.coilB.take p t (coilRef theta amp true) }))))
  ∧ (∀ (t : Nat) (c : Fin 8) (n : Nat) (p : ConfigChopper) (s : State), let d := s.dev.advance t
      d.chopEnabled c.val = true →
      d.power.mode.torque = false →
      (look d.mults (16 + c.val)).chop = some p →
      exec (.chopRefPwmPeriod t c n) s = .next (s.after (let theta := (look d.mults (16 + c.val)).now.toNat / 2 ^ 24 % 1024
        let amp := if (look d.chops c.val).atHold then p.iHold.toNat else p.iRun.toNat
        d.onChop c.val (fun x => { x with coilA := { x.coilA with ref := coilRef theta amp false }
                                          coilB := { x.coilB with ref := coilRef theta amp true } }))))
  ∧ (∀ (t : Nat) (c : Fin 8) (n : Nat) (s : State), let d := s.dev.advance t
      d.chopEnabled c.val = false →
      exec (.chopRefPwmPeriod t c n) s = .next (s.after (d)))

/-- Channel changes, record stores and the lines of the skimmer have the effect of their rule. A level of a PIN channel
that is not its filtered one takes a record once it has been stable for the glitch filter, and else changes nothing
but, of an XTRG line that the device does not pull itself, whether something outside pulls it; a record that meets no
condition joins the queue in ARMED and POST, and is not stored in HELD and REARM; an ANALOG channel takes one when its
threshold side changes; a store writes the oldest queued record, and with none queued changes nothing; the post time
ends a POST capture when it has passed; an arm line fall arms a MEMBER in IDLE or HELD where the device does not
itself hold the line low, a rise disarms an armed one with a notice; a fire line fall triggers with source mask 16
where the device does not itself hold the line low; a fire pulse ends after 1 µs; a silent sigma-delta input counts a
fault event, and its filter repeats its last output. Each of these rows completes, exec answering the next state
given: PIN_CHANNEL_CHANGE, ANALOG_THRESHOLD_CHANGE, SKIM_RECORD_STORE, POST_TIME_EXPIRY, ARM_LINE_FALL, ARM_LINE_RISE,
FIRE_LINE_FALL, FIRE_PULSE_END, SD_INPUT_SILENCE. (R352, R354, R357, R361, R362, R365, R366, R495) -/
def Obligations.SkimmerEventsTakeEffect : Prop :=
  (∀ (t : Nat) (ch : Fin 256) (v : PinEdge) (s : State), let d := s.dev.advance t
      (look d.skim.chans ch.val).now.kind = 1 →
      (look d.skim.chans ch.val).now.source.toNat < 0x88 ∨ 0x8C ≤ (look d.skim.chans ch.val).now.source.toNat →
      (look d.skim.chans ch.val).level ≠ some v.level →
      (look d.skim.chans ch.val).now.glitch.toNat ≤ f300Cycle t - f300Cycle (min v.since t) →
      exec (.pinChannelChange t ch v) s = .next (s.after ((d.onSkim (fun k => { k with chans := upd k.chans ch.val (fun c => { c with level := some v.level, raw := some v.level, rawAt := min v.since t }) })).skimData (min v.since t) ch.val (BitVec.ofNat 32 (bit v.level)) 0)))
  ∧ (∀ (t : Nat) (ch : Fin 256) (v : PinEdge) (s : State), let d := s.dev.advance t
      (look d.skim.chans ch.val).now.kind = 1 →
      (look d.skim.chans ch.val).now.source.toNat < 0x88 ∨ 0x8C ≤ (look d.skim.chans ch.val).now.source.toNat →
      (look d.skim.chans ch.val).level = some v.level ∨ f300Cycle t - f300Cycle (min v.since t) < (look d.skim.chans ch.val).now.glitch.toNat →
      exec (.pinChannelChange t ch v) s = .next (s.after (d)))
  ∧ (∀ (t : Nat) (ch : Fin 256) (v : PinEdge) (s : State), let d := s.dev.advance t
      (look d.skim.chans ch.val).now.kind = 1 →
      0x88 ≤ (look d.skim.chans ch.val).now.source.toNat ∧ (look d.skim.chans ch.val).now.source.toNat < 0x8C →
      d.skim.pulls (BitVec.ofNat 8 ((look d.skim.chans ch.val).now.source.toNat - 0x88)) = false →
      (look d.skim.chans ch.val).level = some v.level →
      exec (.pinChannelChange t ch v) s = .next (s.after (d.onSkim (fun k => k.pull (BitVec.ofNat 8 ((look d.skim.chans ch.val).now.source.toNat - 0x88)) !v.level))))
  ∧ (∀ (t : Nat) (ch : Fin 256) (v : PinEdge) (s : State), let d := s.dev.advance t
      (look d.skim.chans ch.val).now.kind ≠ 1 →
      exec (.pinChannelChange t ch v) s = .next (s.after (d)))
  ∧ (∀ (d : Dev) (t ch flags : Nat) (v : BitVec 32), let c := look d.skim.chans ch
      let r : SkimRec := { ct := t, chan := BitVec.ofNat 16 ch, flags := BitVec.ofNat 16 flags, value := v }
      let note := fun (k : Skim) => { k with chans := upd k.chans ch (fun c => { c with last := some v, prev := some v, first := false }) }
      d.skim.queue.length < 256 → d.skim.condMask ch (if c.first then none else c.prev) v = 0 →
      (d.skim.phase = .idle → d.skimData t ch v flags = d) ∧
      (d.skim.phase = .armed ∨ d.skim.phase = .post → d.skimData t ch v flags = d.onSkim (fun k => note { k with queue := k.queue ++ [r] })) ∧
      (d.skim.phase = .held ∨ d.skim.phase = .rearm → d.skimData t ch v flags = d.onSkim note))
  ∧ (∀ (t : Nat) (ch : Fin 256) (w : BitVec 32) (s : State), let d := s.dev.advance t
      (look d.skim.chans ch.val).now.kind = 2 →
      (look d.skim.chans ch.val).now.hi.toInt < w.toInt →
      (look d.skim.chans ch.val).above = false →
      exec (.analogThresholdChange t ch w) s = .next (s.after ((d.onSkim (fun k => { k with chans := upd k.chans ch.val (fun x => { x with above := true }) })).skimData t ch.val w 8)))
  ∧ (∀ (t : Nat) (ch : Fin 256) (w : BitVec 32) (s : State), let d := s.dev.advance t
      (look d.skim.chans ch.val).now.kind ≠ 2 →
      exec (.analogThresholdChange t ch w) s = .next (s.after (d)))
  ∧ (∀ (t : Nat) (ch : Fin 256) (w : BitVec 32) (s : State), let d := s.dev.advance t
      (look d.skim.chans ch.val).now.kind = 2 →
      w.toInt < (look d.skim.chans ch.val).now.lo.toInt →
      (look d.skim.chans ch.val).now.lo.toInt ≤ (look d.skim.chans ch.val).now.hi.toInt →
      (look d.skim.chans ch.val).above = true →
      exec (.analogThresholdChange t ch w) s = .next (s.after ((d.onSkim (fun k => { k with chans := upd k.chans ch.val (fun x => { x with above := false }) })).skimData t ch.val w 0)))
  ∧ (∀ (t : Nat) (ch : Fin 256) (w : BitVec 32) (s : State), let d := s.dev.advance t
      (look d.skim.chans ch.val).now.kind = 2 →
      w.toInt ≤ (look d.skim.chans ch.val).now.hi.toInt →
      (look d.skim.chans ch.val).now.lo.toInt ≤ w.toInt →
      (look d.skim.chans ch.val).first = false →
      exec (.analogThresholdChange t ch w) s = .next (s.after (d.onSkim (fun k => { k with chans := upd k.chans ch.val (fun x => { x with above := (look d.skim.chans ch.val).above }) }))))
  ∧ (∀ (t : Nat) (s : State), let d := s.dev.advance t
      d.skim.queue = [] →
      exec (.skimRecordStore t) s = .next (s.after (d)))
  ∧ (∀ (t : Nat) (r : SkimRec) (q : List SkimRec) (d1 : Dev) (s : State), let d := s.dev.advance t
      d.skim.queue = r :: q →
      d1 = d.onSkim (fun k => ({ k with queue := q }).put1 r) →
      d1.skim.phase = .armed →
      d1.skim.lostRun = 0 →
      exec (.skimRecordStore t) s = .next (s.after (d1)))
  ∧ (∀ (t : Nat) (r : SkimRec) (q : List SkimRec) (d1 : Dev) (s : State), let d := s.dev.advance t
      d.skim.queue = r :: q →
      d1 = d.onSkim (fun k => ({ k with queue := q }).put1 r) →
      d1.skim.phase = .post →
      d1.skim.postLeft = 0 →
      exec (.skimRecordStore t) s = .next (s.after (d1.holdCapture t)))
  ∧ (∀ (t : Nat) (s : State), let d := s.dev.advance t
      d.skim.phase = .post →
      d.skim.cap.postTime ≠ 0 →
      d.skim.trigAt + d.skim.cap.postTime.toNat ≤ t →
      exec (.postTimeExpiry t) s = .next (s.after ((if (Dev.skimDrainAll t 512 d).skim.phase = .post then (Dev.skimDrainAll t 512 d).holdCapture t else Dev.skimDrainAll t 512 d))))
  ∧ (∀ (t : Nat) (s : State), let d := s.dev.advance t
      d.skim.phase ≠ .post →
      exec (.postTimeExpiry t) s = .next (s.after (d)))
  ∧ (∀ (t : Nat) (s : State), let d := s.dev.advance t
      d.skim.pulls d.skim.cap.armLine = false →
      d.skim.cap.role = 2 →
      d.skim.phase = .idle ∨ d.skim.phase = .held →
      d.skimOn = true →
      exec (.armLineFall t) s = .next (s.after ((d.onSkim (fun k => { k with pulled := setBit k.pulled k.cap.armLine.toNat true })).armSkim)))
  ∧ (∀ (t : Nat) (s : State), let d := s.dev.advance t
      d.skim.pulls d.skim.cap.armLine = true ∨ d.skim.cap.role ≠ 2 ∨ (d.skim.phase ≠ .idle ∧ d.skim.phase ≠ .held) ∨ d.skimOn = false →
      exec (.armLineFall t) s = .next (s.after ((d.onSkim (fun k => { k with pulled := setBit k.pulled k.cap.armLine.toNat true })))))
  ∧ (∀ (t : Nat) (s : State), let d := s.dev.advance t
      d.skim.pulls d.skim.cap.armLine = false →
      d.skim.cap.role = 2 →
      d.skim.phase = .armed →
      exec (.armLineRise t) s = .next (s.after (((d.onSkim (fun k => { k with pulled := setBit k.pulled k.cap.armLine.toNat false })).onSkim (fun k => { k with phase := .idle, queue := [] })).notice 10 0 t 0x0A05 0 false)))
  ∧ (∀ (t : Nat) (s : State), let d := s.dev.advance t
      d.skim.pulls d.skim.cap.armLine = true ∨ d.skim.cap.role ≠ 2 ∨ d.skim.phase ≠ .armed →
      exec (.armLineRise t) s = .next (s.after ((d.onSkim (fun k => { k with pulled := setBit k.pulled k.cap.armLine.toNat false })))))
  ∧ (∀ (t : Nat) (s : State), let d := s.dev.advance t
      d.skim.cap.role ≠ 0 →
      d.skim.pulls d.skim.cap.fireLine = false →
      d.skim.trig.enable.getLsbD 4 = true →
      exec (.fireLineFall t) s = .next (s.after ((d.onSkim (fun k => k.pull k.cap.fireLine true)).skimTrigger t 16)))
  ∧ (∀ (t : Nat) (s : State), let d := s.dev.advance t
      d.skim.cap.role = 0 ∨ d.skim.pulls d.skim.cap.fireLine = true ∨ d.skim.trig.enable.getLsbD 4 = false →
      exec (.fireLineFall t) s = .next (s.after ((d.onSkim (fun k => k.pull k.cap.fireLine true)))))
  ∧ (∀ (t : Nat) (s : State), let d := s.dev.advance t
      d.skim.fireOut = false ∨ t < d.skim.fireAt + 1024 →
      exec (.firePulseEnd t) s = .next (s.after (d)))
  ∧ (∀ (t : Nat) (s : State), let d := s.dev.advance t
      d.skim.fireOut = true →
      d.skim.fireAt + 1024 ≤ t →
      exec (.firePulseEnd t) s = .next (s.after (d.onSkim (fun k => { k with fireOut := false }))))
  ∧ (∀ (t : Nat) (i : Fin 24) (s : State), let d := s.dev.advance t
      exec (.sdInputSilence t i) s = .next (s.after ((d.onLoop (fun l => { l with sdBad := setBit l.sdBad i.val true })).faultEvent 7 i.val t)))

/-- Self-test ends, identifications, retunes, the host watchdog and journal writes have the effect of their rule. The end
of a running self-test reports the blocks that failed of those tested and answers the command; with none running it
changes nothing. An identification ends with its result and a notice: the fit, and where the bounds allow it the
record with the proposed gains, else a code. A retune that its conditions allow loads the proposed record and swaps
the banks at its boundary with preset; banks that differ make it skipped with a notice, and a swap in progress defers
it up to 80 times. A host watchdog past its deadline reports, sets IRQ 6, and with action 1 stops every arm in RUN and
HOLD. A journal write stores the oldest queued record; with none it changes nothing. Each of these rows completes,
exec answering the next state given: SELFTEST_DONE, IDENT_RESULT, RETUNE, HOST_WATCHDOG, JOURNAL_WRITE. (R106, R206,
R208, R507, R528) -/
def Obligations.HostTuningAndJournalEventsTakeEffect : Prop :=
  (∀ (t : Nat) (r : SelftestRun) (x : Selftest) (s : State), let d := s.dev.advance t
      d.host.selftest = some x →
      exec (.selftestDone t r) s = .next (s.after (let tested := [d.selfMask x.blocks 0 3, d.selfMask x.blocks 1 4, d.selfMask x.blocks 2 5, d.selfMask x.blocks 3 6]
        d.endSelftest t x.hdr (List.zipWith (· &&& ·) [r.lanesFailed.toNat, r.pipesFailed.toNat, r.coresFailed.toNat, r.pwmFailed.toNat] tested) tested)))
  ∧ (∀ (t : Nat) (r : SelftestRun) (s : State), let d := s.dev.advance t
      d.host.selftest = none →
      exec (.selftestDone t r) s = .next (s.after (d)))
  ∧ (∀ (t : Nat) (j : Fin 128) (s : State), let d := s.dev.advance t
      look d.tuning.ids j.val = none →
      exec (.identResult t j) s = .next (s.after (d)))
  ∧ (∀ (t : Nat) (j : Fin 128) (x : Ident) (s : State), let d := s.dev.advance t
      look d.tuning.ids j.val = some x →
      look d.tuning.bounds j.val = none →
      exec (.identResult t j) s = .next (s.after (let base := { look d.tuning.inj j.val with
          j := BitVec.ofInt 32 (Config.rounds 8 ((fitPlant (x.responses d.time.tc)).1 * 2 ^ 10)), b := BitVec.ofInt 32 (Config.rounds 8 ((fitPlant (x.responses d.time.tc)).2.1 * 2 ^ 10))
          r := BitVec.ofInt 16 (clampInt 0 65535 (Config.rounds 8 ((fitPlant (x.responses d.time.tc)).2.2 * 2 ^ 15))), record := [], clamp := 0, idStat := 0xA }
        (d.onTuning (fun u => { u with
          inj := put u.inj j.val (base), ids := put u.ids j.val none, props := put u.props j.val none, busy := put u.busy j.val 0 })).notice 5 0 t 0x0404 (injArg j.val x.p.id) false)))
  ∧ (∀ (t : Nat) (j : Fin 128) (p : SetRetuneBounds) (x : Ident) (s : State), let d := s.dev.advance t
      look d.tuning.ids j.val = some x →
      look d.tuning.bounds j.val = some p →
      exec (.identResult t j) s = .next (s.after (let base := { look d.tuning.inj j.val with
          j := BitVec.ofInt 32 (Config.rounds 8 ((fitPlant (x.responses d.time.tc)).1 * 2 ^ 10)), b := BitVec.ofInt 32 (Config.rounds 8 ((fitPlant (x.responses d.time.tc)).2.1 * 2 ^ 10))
          r := BitVec.ofInt 16 (clampInt 0 65535 (Config.rounds 8 ((fitPlant (x.responses d.time.tc)).2.2 * 2 ^ 15))), record := [], clamp := 0, idStat := 0xA }
        let done := if x.lost = false ∧ 0 < (fitPlant (x.responses d.time.tc)).1 ∧ 0 ≤ (fitPlant (x.responses d.time.tc)).2.1 ∧ (fitPlant (x.responses d.time.tc)).2.2 ≤ ofWord 15 p.rMax.toNat then
            match smallestF (proposal (fitPlant (x.responses d.time.tc)).1 (fitPlant (x.responses d.time.tc)).2.1 p d.time.tc).1 17 0 with
            | some (f, m) => { base with idStat := 0, record := withGains (d.loop.active j.val).bytes f m, clamp := BitVec.ofNat 8 (proposal (fitPlant (x.responses d.time.tc)).1 (fitPlant (x.responses d.time.tc)).2.1 p d.time.tc).2 }
            | none => { base with idStat := 6, clamp := BitVec.ofNat 8 (proposal (fitPlant (x.responses d.time.tc)).1 (fitPlant (x.responses d.time.tc)).2.1 p d.time.tc).2 }
          else base
        (d.onTuning (fun u => { u with
          inj := put u.inj j.val done, ids := put u.ids j.val none, busy := put u.busy j.val 0
          props := put u.props j.val (if done.record.isEmpty then none else some { id := x.p.id, record := done.record }) })).notice 5 0 t 0x0404 (injArg j.val x.p.id) false)))
  ∧ (∀ (t : Nat) (j : Fin 128) (p : SetRetuneBounds) (g : Proposal) (s : State), let d := s.dev.advance t
      d.time.policyForce = .autonomous →
      look d.tuning.bounds j.val = some p →
      d.power.mode = .tune →
      look d.tuning.props j.val = some g →
      (look d.tuning.inj j.val).phase ≠ .pending ∧ (look d.tuning.inj j.val).phase ≠ .running →
      d.loop.sameBanks = true →
      d.loop.swap = none →
      exec (.retune t j) s = .next (s.after ((d.onLoop (fun l => { l.copy.load j.val { bytes := g.record, stamp := some t } with swap := some (d.effectAt t, true) })).onTuning
        (fun u => { u with busy := put u.busy j.val 0, props := put u.props j.val none
                           retune := some (j.val, g.id, (d.loop.active j.val).bytes, g.record) }))))
  ∧ (∀ (t : Nat) (j : Fin 128) (p : SetRetuneBounds) (g : Proposal) (s : State), let d := s.dev.advance t
      d.time.policyForce = .autonomous →
      look d.tuning.bounds j.val = some p →
      d.power.mode = .tune →
      look d.tuning.props j.val = some g →
      (look d.tuning.inj j.val).phase ≠ .pending ∧ (look d.tuning.inj j.val).phase ≠ .running →
      d.loop.sameBanks = false →
      exec (.retune t j) s = .next (s.after ((d.onTuning (fun u => { u with busy := put u.busy j.val 0, props := put u.props j.val none })).notice 5 0 t 0x0406 (injArg j.val g.id) false)))
  ∧ (∀ (t : Nat) (j : Fin 128) (p : SetRetuneBounds) (g : Proposal) (s : State), let d := s.dev.advance t
      d.time.policyForce = .autonomous →
      look d.tuning.bounds j.val = some p →
      d.power.mode = .tune →
      look d.tuning.props j.val = some g →
      (look d.tuning.inj j.val).phase ≠ .pending ∧ (look d.tuning.inj j.val).phase ≠ .running →
      d.loop.sameBanks = true →
      d.loop.swap.isSome = true →
      look d.tuning.busy j.val < 79 →
      exec (.retune t j) s = .next (s.after (d.onTuning (fun u => { u with busy := put u.busy j.val (look d.tuning.busy j.val + 1) }))))
  ∧ (∀ (t : Nat) (j : Fin 128) (p : SetRetuneBounds) (g : Proposal) (s : State), let d := s.dev.advance t
      d.time.policyForce = .autonomous →
      look d.tuning.bounds j.val = some p →
      d.power.mode = .tune →
      look d.tuning.props j.val = some g →
      (look d.tuning.inj j.val).phase ≠ .pending ∧ (look d.tuning.inj j.val).phase ≠ .running →
      d.loop.sameBanks = true →
      d.loop.swap.isSome = true →
      79 ≤ look d.tuning.busy j.val →
      exec (.retune t j) s = .next (s.after ((d.onTuning (fun u => { u with busy := put u.busy j.val 0, props := put u.props j.val none })).notice 5 0 t 0x0406 (injArg j.val g.id) false)))
  ∧ (∀ (t : Nat) (j : Fin 128) (s : State), let d := s.dev.advance t
      look d.tuning.props j.val = none →
      exec (.retune t j) s = .next (s.after (d)))
  ∧ (∀ (t : Nat) (j : Fin 128) (g : Proposal) (s : State), let d := s.dev.advance t
      look d.tuning.props j.val = some g →
      (look d.tuning.inj j.val).phase = .pending ∨ (look d.tuning.inj j.val).phase = .running →
      exec (.retune t j) s = .next (s.after (d)))
  ∧ (∀ (t : Nat) (dl : Nat) (s : State), let d := s.dev.advance t
      d.host.wd.deadline = some dl →
      dl < t →
      d.power.mode ≠ .dormant →
      d.host.wd.action = 0 →
      exec (.hostWatchdog t) s = .next (s.after (((d.onHost (fun x => { x with wd := { x.wd with deadline := none } })).irq 6).notice 1 0 t 0x0104 0 true)))
  ∧ (∀ (t : Nat) (dl : Nat) (s : State), let d := s.dev.advance t
      d.host.wd.deadline = some dl →
      dl < t →
      d.power.mode = .run ∨ d.power.mode = .hold →
      d.host.wd.action = 1 →
      exec (.hostWatchdog t) s = .next (s.after ((((d.onHost (fun x => { x with wd := { x.wd with deadline := none } })).irq 6).notice 1 0 t 0x0104 1 true).mapArms (fun _ a => match a.stopNext with
          | some _ => a
          | none => { a with stopNext := some (d.effectAt t, 2, t) }))))
  ∧ (∀ (t : Nat) (dl : Nat) (s : State), let d := s.dev.advance t
      d.host.wd.deadline = some dl →
      dl < t →
      d.power.mode ≠ .dormant →
      d.power.mode ≠ .run ∧ d.power.mode ≠ .hold →
      exec (.hostWatchdog t) s = .next (s.after (((d.onHost (fun x => { x with wd := { x.wd with deadline := none } })).irq 6).notice 1 0 t 0x0104 (d.host.wd.action.setWidth 32) true)))
  ∧ (∀ (t : Nat) (dl : Nat) (s : State), let d := s.dev.advance t
      d.host.wd.deadline = some dl →
      t ≤ dl ∨ d.power.mode = .dormant →
      exec (.hostWatchdog t) s = .next (s.after (d)))
  ∧ (∀ (t : Nat) (s : State), let d := s.dev.advance t
      d.host.wd.deadline = none →
      exec (.hostWatchdog t) s = .next (s.after (d)))
  ∧ (∀ (t : Nat) (s : State), let d := s.dev.advance t
      d.faults.journal.queue = [] →
      exec (.journalWrite t) s = .next (s.after (d)))
  ∧ (∀ (t : Nat) (r : JRec) (q : List JRec) (s : State), let d := s.dev.advance t
      d.faults.journal.queue = r :: q →
      t < d.faults.journal.freeAt →
      exec (.journalWrite t) s = .next (s.after (d)))
  ∧ (∀ (t : Nat) (r : JRec) (q : List JRec) (j : Journal) (s : State), let d := s.dev.advance t
      d.faults.journal.queue = r :: q →
      d.faults.journal.freeAt ≤ t →
      d.faults.journal.lostNow = 0 →
      j = { d.faults.journal with queue := q }.write r →
      exec (.journalWrite t) s = .next (s.after ({ d with faults := { d.faults with journal := { j with freeAt := t + (j.written - d.faults.journal.written) * 20480 } } })))

/-- A step runs the command at the front of the queue; with an empty queue it idles. For every command c and queue q, a
step of a state whose queue is c followed by q is exec of c on that state with the queue q. A step of a state with an
empty queue leaves the state as it is (the model's choice, log entry 4). (R99, R100) -/
def Obligations.StepRunsTheFrontCommand : Prop :=
  (∀ (c : Instr) (q : List Instr) (s : State), s.pending = c :: q → step s = exec c { s with pending := q })
  ∧ (∀ s : State, s.pending = [] → step s = .next s)

/-- Every step keeps the outputs in agreement with the state: FAULT_N and the interrupt condition. For every state in
which the pin FAULT_N is low exactly while one of the conditions of R501 holds and the recorded interrupt condition is
that of R97, if a step answers a next state, the same holds in that state, whatever command ran. (R97, R501) -/
def Obligations.SettledIsKeptByEveryStep : Prop :=
  (∀ s t : State, Settled s → step s = .next t → Settled t)

/-- Reset leaves the state that the spec states, with no command waiting and its outputs settled. In State.reset no
command waits; the mode is that of reset and boot, the boot step 1, STO_A, STO_B and every fault channel at rest,
IRQ_EN, DP_ADDR, DP_CTRL and the expected sequence 0, no notice queued, the period 125 µs with n_sep 4 and policy
MECHANISM, every memory empty; FAULT_N is asserted and the interrupt condition false; no torque is permitted; every
pin shows its reset state. In any state a pin shows its reset state while RST_N or PWRGOOD is low and, of a pin that
AON does not drive, until the firmware runs and in DORMANT. The starting count of time and the other values that the
spec leaves open are the model's choice (log entries 1 and 6). (R18, R25, R26, R37, R38, R57, R92, R95, R96, R97,
R101, R501) -/
def Obligations.ResetLeavesTheStatedState : Prop :=
  (State.reset.pending = [] ∧ Settled State.reset ∧ MemoriesCanonical State.reset)
  ∧ (State.reset.dev.power.mode = .boot ∧ State.reset.dev.boot.step = 1 ∧ State.reset.dev.safety.stoA = false ∧ State.reset.dev.safety.stoB = false)
  ∧ (State.reset.dev.host.irqEn = 0 ∧ State.reset.dev.dpAddr = 0 ∧ State.reset.dev.dpCtrl = 0 ∧ State.reset.dev.host.expect = 0 ∧ State.reset.dev.host.notices = [])
  ∧ (State.reset.dev.time.tc = 128000 ∧ State.reset.dev.time.nSep = 4 ∧ State.reset.dev.time.policy = .mechanism ∧ State.reset.dev.faults.chans = [])
  ∧ (State.reset.dev.boot.faultN = false ∧ State.reset.dev.host.irqCond = false)
  ∧ (TorqueOnlyWhereAllowed State.reset)
  ∧ (∀ (t : Nat) (p : Pin), State.reset.dev.pin t p = p.atReset)
  ∧ (∀ (d : Dev) (t : Nat) (p : Pin), d.boot.rstLow = true ∨ d.boot.pwrLow = true ∨ (p.aon = false ∧ (d.boot.fwRun = false ∨ d.power.mode = .dormant)) →
      d.pin t p = p.atReset)

/-- From every state, as many steps as commands wait run every one of them and empty the queue. From every state, a run of
exactly as many steps as commands wait meets no refusal and no fault, and ends with an empty queue: no command stops
the block. (R99, R100) -/
def Obligations.EveryQueueRunsToItsEnd : Prop :=
  (∀ s : State, ∃ t, RunsTo s.pending.length s t ∧ t.pending = [])

/-- Every command answers a next state from every state, with the waiting queue as it was and the outputs settled. For
every command and every state, exec answers a next state in which the waiting queue is that of the state, and FAULT_N
and the interrupt condition agree with the state. (R97, R99, R501) -/
def Obligations.EveryCommandAnswersANextState : Prop :=
  (∀ (c : Instr) (s : State), ∃ t, exec c s = .next t ∧ t.pending = s.pending ∧ Settled t)

/-- What follows every command changes only the outputs, the skimmer, its notices, the trace records and a clock that must
run. After the effect of a command, starting a clock domain whose work runs all the time or that a trigger wakes (SUP,
DISP, PTIM and SKIM, 1, 2, 8 and 11, where it was STOPPED), settling the outputs and recording the internal signals
and held pins of the skimmer leave every unit as the effect left it, but for: such a domain, now RUNNING; FAULT_N of
the boot unit; the sticky interrupt bits, the interrupt condition, the MSI count and the notice queue of the host
interface; the item sequences of the time base; the trace; and the skimmer. (R52, R97, R107, R352, R355, R501) -/
def Obligations.SettlingChangesOnlyOutputsAndRecords : Prop :=
  (∀ (s : State) (d : Dev), let t := (s.after d).dev
      t.power = { d.power with domains := t.power.domains }
      ∧ t.fuses = d.fuses ∧ t.safety = d.safety ∧ t.arms = d.arms ∧ t.joints = d.joints ∧ t.mults = d.mults ∧ t.chops = d.chops ∧ t.loop = d.loop ∧ t.tuning = d.tuning ∧ t.solver = d.solver
        ∧ t.kin = d.kin ∧ t.sep = d.sep ∧ t.deck = d.deck ∧ t.sig = d.sig ∧ t.pwm = d.pwm ∧ t.bus = d.bus ∧ t.pair = d.pair ∧ t.faults = d.faults ∧ t.waiting = d.waiting ∧ t.fresh = d.fresh
        ∧ t.boot = { d.boot with faultN := t.boot.faultN } ∧ t.time = { d.time with seqs := t.time.seqs, lastItem := t.time.lastItem }
        ∧ t.disp = { d.disp with trace := t.disp.trace }
        ∧ t.host = { d.host with
            irqSticky := t.host.irqSticky, irqCond := t.host.irqCond, msiCount := t.host.msiCount, notices := t.host.notices
            lost := t.host.lost, noticeSeq := t.host.noticeSeq, healthSticky := t.host.healthSticky }
        ∧ ∀ i, t.power.domains.getD i .off = d.power.domains.getD i .off ∨ (i ∈ [1, 2, 8, 11] ∧ d.power.domains.getD i .off = .stopped ∧ t.power.domains.getD i .off = .running))

/-- Taking and answering a message change only the message bookkeeping, and the reply stands in its slot. Taking a message
moves time on to its acceptance stamp, never back, and answering it leaves time alone; both leave every unit but the
host interface as it was, and of that only the slots, the expected sequence, the data of the last taken message and
the watchdog deadline, or the maintenance register, change. The reply of a message of the host link stands in its own
outbound slot, ready, with the CRC-32C of its bytes last. (R9, R99, R100, R101, R106) -/
def Obligations.AMessageChangesOnlyItsBookkeeping : Prop :=
  (∀ (d : Dev) (h : Hdr), h.link = .host → let t := d.take h
      d.time.ct ≤ t.time.ct ∧ h.stamp ≤ t.time.ct
      ∧ t = { d with time := { d.time with ct := t.time.ct }
                     host := { d.host with slots := t.host.slots, expect := h.seq + 1, anyTaken := true, lastCrc := h.crc, last := none
                                           wd := t.host.wd } })
  ∧ (∀ (d : Dev) (h : Hdr), h.link = .maint → let t := d.take h
      d.time.ct ≤ t.time.ct ∧ h.stamp ≤ t.time.ct
      ∧ t = { d with time := { d.time with ct := t.time.ct }, host := { d.host with maint := t.host.maint } })
  ∧ (∀ (d : Dev) (h : Hdr) (op : Nat) (st : Status) (data : List Byte), h.link = .host → let t := d.reply h op st data
      t = { d with host := { d.host with slots := t.host.slots, last := t.host.last } }
      ∧ (look t.host.slots h.slot).outb = replyBytes op h.seq false true h.stamp st data ∧ (look t.host.slots h.slot).ready = true
      ∧ (replyBytes op h.seq false true h.stamp st data).drop ((replyBytes op h.seq false true h.stamp st data).length - 4)
          = wordBytes (crc32c ((replyBytes op h.seq false true h.stamp st data).take ((replyBytes op h.seq false true h.stamp st data).length - 4))))
  ∧ (∀ (d : Dev) (h : Hdr) (op : Nat) (st : Status) (data : List Byte), h.link = .maint → let t := d.reply h op st data
      t = { d with host := { d.host with maint := t.host.maint } } ∧ t.host.maint.reply.isSome = true ∧ t.host.maint.owned = false)

/-- A command that is accepted after its ct is refused with DEADLINE: taken, and not executed. For every command, a
message whose ct is not 0 and less than its acceptance stamp is taken and answered with DEADLINE, and nothing else
changes, whatever its other fields hold; a command whose ct is 0, or not less than its stamp, is never answered
DEADLINE by the first step of its judgement. (R102) -/
def Obligations.ALateCommandIsRefusedWithDeadline : Prop :=
  (∀ (m : Sem) (h : Hdr) (d : Dev), d.server h.link ≠ .nobody → h.ct ≠ 0 → h.ct < h.stamp → runCmd m h d = (d.take h).reply h m.op .deadline [])
  ∧ (∀ (m : Sem) (h : Hdr) (d : Dev), h.ct = 0 ∨ h.stamp ≤ h.ct → m.judge h d = m.judge { h with ct := 0 } d)

/-- The first failing step of the judgement decides the status of a taken message, and a refused one has no effect. For
every command and device whose firmware answers: an on-time message whose class is forbidden is judged FUSED; else the
verdict of the link rule stands; else a mode that the command does not allow gives MODE; else a wrong length LENGTH;
else a flag set or a field out of range RANGE; else the status of the command's own failing condition; else OK. A
message that any step refuses is only taken and answered with that status. (R100, R527) -/
def Obligations.TheFirstFailingStepDecides : Prop :=
  (∀ (m : Sem) (h : Hdr) (d : Dev), h.ct = 0 ∨ h.stamp ≤ h.ct → d.server h.link = .firmware → d.classForbidden (m.op / 256) = true → m.judge h d = .fused)
  ∧ (∀ (m : Sem) (h : Hdr) (d : Dev) (st : Status), h.ct = 0 ∨ h.stamp ≤ h.ct → d.server h.link = .firmware → d.classForbidden (m.op / 256) = false → m.link.judge d h.link = some st → m.judge h d = st)
  ∧ (∀ (m : Sem) (h : Hdr) (d : Dev), h.ct = 0 ∨ h.stamp ≤ h.ct → d.server h.link = .firmware → d.classForbidden (m.op / 256) = false → m.link.judge d h.link = none →
      m.judge h d = (if d.power.mode ∉ m.modes then .mode else if m.lenOk = false then .length else if h.flags ≠ 0 ∨ m.range d = false then .range
        else (m.cond d).getD .ok))
  ∧ (∀ (m : Sem) (h : Hdr) (d : Dev), d.server h.link ≠ .nobody → m.judge h (d.take h) ≠ .ok → runCmd m h d = (d.take h).reply h m.op (m.judge h (d.take h)) [])
  ∧ (∀ (m : Sem) (h : Hdr) (d : Dev), d.server h.link = .nobody → runCmd m h d = d)

/-- A rung message in sequence runs the command that it spells, as exec runs it. A message whose length and CRC are right,
whose sequence is the expected one, with the mailbox source not back-pressured, and whose payload spells a command,
changes the device as that command does; and exec of a command that changes the device is what the mailbox runs. A
message that spells no command is taken and answered UNKNOWN_OPCODE, or DEADLINE if late. (R95, R99, R100, R112) -/
def Obligations.MailboxMessagesRunTheirCommand : Prop :=
  (∀ (d : Dev) (t slot : Nat) (c : Instr), let m := (look d.host.slots slot).message
      let h := msgHdr .host slot t m
      msgBad m = none → h.seq = d.host.expect → parseCommand h (rd 16 m 0) ((m.drop 16).take h.length) = some c →
      d.hostMessage t slot false = Dev.command c d)
  ∧ (∀ (c : Instr) (s : State), Dev.command c s.dev ≠ s.dev → exec c s = .next (s.after (Dev.command c s.dev)))
  ∧ (∀ (d : Dev) (h : Hdr) (op : BitVec 16) (b : List Byte), parseCommand h op b = none → d.server h.link = .firmware →
      h.ct = 0 ∨ h.stamp ≤ h.ct → d.takenMessage h op b = (d.take h).reply h op.toNat .unknownOpcode [])

/-- A message out of sequence is a repeat of the last taken one or is refused, and is never executed again. A rung message
with a bad length or CRC is refused with its status; one in sequence while the mailbox source is back-pressured with
BUSY; one with the sequence before the expected one and the CRC of the last taken message is answered by the stored
reply with REPEAT set, or held until that reply is posted; any other sequence is refused with SEQ. None of them is
executed and none moves the expected sequence. (R100, R101) -/
def Obligations.TheSequenceRuleDecidesRepeats : Prop :=
  (∀ (d : Dev) (t slot : Nat) (busy : Bool) (st : Status), msgBad (look d.host.slots slot).message = some st →
      d.hostMessage t slot busy = d.refuseMsg slot t (look d.host.slots slot).message st)
  ∧ (∀ (d : Dev) (t slot : Nat), let m := (look d.host.slots slot).message
      let h := msgHdr .host slot t m
      msgBad m = none → h.seq = d.host.expect → d.hostMessage t slot true = d.refuseMsg slot t m .busy)
  ∧ (∀ (d : Dev) (t slot : Nat) (busy : Bool) (r : List Byte), let m := (look d.host.slots slot).message
      let h := msgHdr .host slot t m
      msgBad m = none → h.seq ≠ d.host.expect → d.host.anyTaken = true → h.seq + 1 = d.host.expect →
      h.crc = d.host.lastCrc → d.host.last = some r → d.hostMessage t slot busy = d.onHost (fun x => x.putReply slot (asRepeat r)))
  ∧ (∀ (d : Dev) (t slot : Nat) (busy : Bool), let m := (look d.host.slots slot).message
      let h := msgHdr .host slot t m
      msgBad m = none → h.seq ≠ d.host.expect → d.host.anyTaken = true → h.seq + 1 = d.host.expect →
      h.crc = d.host.lastCrc → d.host.last = none →
      d.hostMessage t slot busy = d.onHost (fun x => { x with slots := upd x.slots slot (fun y => { y with held := some h.seq }) }))
  ∧ (∀ (d : Dev) (t slot : Nat) (busy : Bool), let m := (look d.host.slots slot).message
      let h := msgHdr .host slot t m
      msgBad m = none → h.seq ≠ d.host.expect → d.host.anyTaken = false ∨ h.seq + 1 ≠ d.host.expect ∨ h.crc ≠ d.host.lastCrc →
      d.hostMessage t slot busy = d.refuseMsg slot t m .seq)
  ∧ (∀ (d : Dev) (slot t : Nat) (m : List Byte) (st : Status), (d.refuseMsg slot t m st).host.expect = d.host.expect ∧ (d.refuseMsg slot t m st).host.last = d.host.last)

/-- The effect boundary of a stamp is the first boundary at least 4,096 LSB after it. Whenever the next period is not 0:
the effect boundary of a stamp is the next boundary, the one after it, or a whole number of later periods after that;
it is at least 4,096 LSB after the stamp; and no such boundary before it is. (R23, R469) -/
def Obligations.TheEffectBoundaryIsTheFirstFarEnough : Prop :=
  (∀ (d : Dev) (t : Nat), 0 < d.tcNext →
      t + 4096 ≤ d.effectAt t ∧ (d.effectAt t = d.bNext ∨ ∃ n, d.effectAt t = d.bNext2 + n * d.tcNext)
      ∧ (∀ n, t + 4096 ≤ d.bNext2 + n * d.tcNext → d.effectAt t ≤ d.bNext2 + n * d.tcNext) ∧ (t + 4096 ≤ d.bNext → d.effectAt t = d.bNext))

/-- The notice queue holds 256 entries in order, and the journal queue never drops a record of class 0x01 or 0x0E. While
fewer than 256 notices wait, one whose stamp none of them follows is queued last, numbered with the next sequence, and
a queue in order of stamp stays so; with 256 waiting it is discarded, the lost count rises, saturating at 0xFFFF, and
HEALTH.NOTICE_LOST is set; so a queue of at most 256 stays so. A journal record is queued last while fewer than 128
wait, and a record of class 0x01 or 0x0E always; any other is dropped and counted as lost. (R107, R507) -/
def Obligations.NoticeAndJournalQueuesAreBounded : Prop :=
  (∀ (d : Dev) (n : Notice), d.host.notices.length < 256 → (∀ m ∈ d.host.notices, m.ct ≤ n.ct) → let t := d.queueNotice n
      t = { d with host := { d.host with notices := d.host.notices ++ [{ n with seq := d.host.noticeSeq }], noticeSeq := d.host.noticeSeq + 1 } })
  ∧ (∀ (d : Dev) (n : Notice), d.host.notices.Pairwise (fun a b => a.ct ≤ b.ct) →
      (d.queueNotice n).host.notices.Pairwise (fun a b => a.ct ≤ b.ct))
  ∧ (∀ (d : Dev) (n : Notice), 256 ≤ d.host.notices.length → d.queueNotice n
      = { d with host := { d.host with
            lost := if d.host.lost = 0xFFFF then 0xFFFF else d.host.lost + 1, healthSticky := setBit d.host.healthSticky 1 true
            noticeSeq := d.host.noticeSeq + 1 } })
  ∧ (∀ (d : Dev) (n : Notice), d.host.notices.length ≤ 256 → (d.queueNotice n).host.notices.length ≤ 256)
  ∧ (∀ (d : Dev) (r : JRec), d.faults.journal.queue.length < 128 ∨ r.code.toNat / 256 = 0x01 ∨ r.code.toNat / 256 = 0x0E →
      (d.queueRecord r).faults.journal = { d.faults.journal with queue := d.faults.journal.queue ++ [r] })
  ∧ (∀ (d : Dev) (r : JRec), 128 ≤ d.faults.journal.queue.length → r.code.toNat / 256 ≠ 0x01 → r.code.toNat / 256 ≠ 0x0E →
      (d.queueRecord r).faults.journal.queue = d.faults.journal.queue ∧ (d.queueRecord r).faults.journal.lost = d.faults.journal.lost + 1)

/-- A fault bucket counts each event, falls by one at each decay instant, and lapses at 0. For a bucket that rose at an
instant with a decay interval above 0: decaying to a later instant takes one off for each decay instant since the last
decay, and not below 0; decaying in two parts leaves the same bucket as in one; an event after a bucket of 0 starts
the decay instants at its stamp; and an event adds one to the decayed bucket, up to 255. (R496) -/
def Obligations.FaultBucketsCountAndDecay : Prop :=
  (∀ (c : FaultChan) (t : Nat), 0 < c.tDec → c.rise ≤ t → c.applied ≤ (t - c.rise) / c.tDec →
      (c.decayTo t).b = c.b - ((t - c.rise) / c.tDec - c.applied))
  ∧ (∀ (c : FaultChan) (t u : Nat), 0 < c.tDec → c.rise ≤ t → t ≤ u → c.applied ≤ (t - c.rise) / c.tDec →
      ((c.decayTo t).decayTo u).b = (c.decayTo u).b)
  ∧ (∀ (c : FaultChan) (tDec t : Nat), (c.event tDec t).b = min 255 ((c.decayTo t).b + 1) ∧ (c.event tDec t).last = some t)
  ∧ (∀ (c : FaultChan) (tDec t : Nat), (c.decayTo t).b = 0 → (c.event tDec t).rise = t ∧ (c.event tDec t).tDec = tDec ∧ (c.event tDec t).applied = 0)

/-- Bytes written to a memory read back, and every other byte reads as before. For every memory, offset and bytes, reading
as many bytes at the offset after writing them gives them back, and the byte at every address outside them reads as it
did. (R109, R110) -/
def Obligations.MemoryReadsBackWhatWasWritten : Prop :=
  (∀ (m : Memory) (off : Nat) (b : List Byte), memRead (memWrite m off b) off b.length = b)
  ∧ (∀ (m : Memory) (off a : Nat) (b : List Byte), a < off ∨ off + b.length ≤ a → look (memWrite m off b) a = look m a)

/-- The data port records the first error in the order SPACE, UNAVAILABLE, SIZE, RANGE, PROTECT, and keeps it. A request
to a reserved space meets SPACE (3); else to a closed one UNAVAILABLE (5); else of the wrong size SIZE (4); else
outside the space RANGE (1); else a write to a read-only part PROTECT (2); else none. A failing request records its
error and sets IRQ 4 only when none is recorded. (R96) -/
def Obligations.DataPortErrorsAreTheFirstInOrder : Prop :=
  (∀ (d : Dev) (off n : Nat) (ok w : Bool), 6 ≤ d.host.dpSpace.toNat → d.dpError off n ok w = 3)
  ∧ (∀ (d : Dev) (off n : Nat) (ok w : Bool), d.host.dpSpace.toNat < 6 → d.spaceClosed d.host.dpSpace.toNat off n = true → d.dpError off n ok w = 5)
  ∧ (∀ (d : Dev) (off n : Nat) (ok w : Bool), d.host.dpSpace.toNat < 6 → d.spaceClosed d.host.dpSpace.toNat off n = false →
      d.dpError off n ok w = (if ok = false then 4 else if spaceSize d.host.dpSpace.toNat < off + n then 1
        else if w = true ∧ d.spaceWritable d.host.dpSpace.toNat off = false then 2 else 0))
  ∧ (∀ (d : Dev) (e : BitVec 4), d.host.dpErr = 0 → d.dpFail e = (d.onHost (fun h => { h with dpErr := e })).irq 4)
  ∧ (∀ (d : Dev) (e : BitVec 4), d.host.dpErr ≠ 0 → d.dpFail e = d)

/-- At a boundary exactly the commands whose boundary has come leave the waiting list, and apply in the order of their
acceptance. The change step of a boundary takes from the waiting list every command whose effect boundary has come,
except those of the move queues and those that start or end an injection, in list order, and applies each in turn to
the device without them; the injection commands that are due leave in their own step after the mode change, in list
order too, the queue commands in the queue step, and the others stay. Waiting itself changes nothing but the list, to
which it adds the command with its effect boundary. (R21, R23) -/
def Obligations.WaitingCommandsApplyAtTheirBoundary : Prop :=
  (∀ (d : Dev) (b : Nat), d.applyDue b
      = (d.waiting.filter (fun w => decide (w.effB ≤ b) && ((queueAct w.cmd).isNone && !injectionAct w.cmd))).foldl (fun x w => x.applyWaiting b w)
          { d with waiting := d.waiting.filter (fun w => decide (b < w.effB) || ((queueAct w.cmd).isSome || injectionAct w.cmd)) })
  ∧ (∀ (d : Dev) (b : Nat), d.applyInjections b
      = (d.waiting.filter (fun w => decide (w.effB ≤ b) && injectionAct w.cmd)).foldl (fun x w => x.applyWaiting b w)
          { d with waiting := d.waiting.filter (fun w => decide (b < w.effB) || !injectionAct w.cmd) })
  ∧ (∀ c : Instr, injectionAct c = true → (∃ h p, c = .startInjection h p) ∨ ∃ h p, c = .stopInjection h p)
  ∧ (∀ (d : Dev) (st : Nat) (c : Instr), d.await st c = { d with waiting := d.waiting ++ [{ effB := d.effectAt st, stamp := st, cmd := c }] })
  ∧ (∀ (c : Instr) (q : QueueAct), queueAct c = some q → (∃ h p, c = .stopArms h p ∧ q = .stop p.arms (p.flush == 1) h.seq)
        ∨ (∃ h p, c = .resumeArms h p ∧ q = .resume p.arms) ∨ (∃ h p, c = .flushQueue h p ∧ q = .flush p.arms h.seq)
        ∨ (∃ h p, c = .setScaling h p ∧ q = .scaling p))
  ∧ (∀ (d : Dev) (st : Nat) (p : SetScaling), d.applyQueueAct st (.scaling p)
      = (d.armsOf p.arms).foldl (fun x a => x.onArm a (fun y => { y with sHost := p.sHost.toNat, slew := p.slew.toNat })) d)
  ∧ (∀ (d : Dev) (st : Nat) (m n : BitVec 16), d.applyQueueAct st (.resume m) = (d.armsOf m).foldl (fun x a => x.onArm a Arm.resume) d
        ∧ d.applyQueueAct st (.flush m n) = (d.armsOf m).foldl (fun x a => x.onArm a (fun y => y.flush st n)) d
        ∧ d.applyQueueAct st (.stop m false n) = (d.armsOf m).foldl (fun x a => x.stopArm a 0 false) d)

/-- At their boundary the waiting commands of arms, rates, loops, injections and problems change what their rule names.
Applied at its boundary, CONFIG_ARM clears the limits of the arm's old joints and puts the new configuration, with the
moves appended since, or an empty arm; SET_JOINT_LIMITS sets the four limits; CONFIG_STEP and CONFIG_CHOPPER load the
multiplier, or empty it for joint 0xFF; the slot configurations replace the slot and clear its bank error;
SET_ARM_TARGET sets the targets; SET_SLOT_MODE the manual state; DEFINE_PROBLEM replaces the problem, its deadline
offset fitted to the period, REMOVE_PROBLEM drops it, SET_PROBLEM_INPUT sets its matrix and vector; STOP_INJECTION
ends the injections of its kind and index; an injection that starts outside TUNE is cancelled, once. (R119, R136,
R137, R161, R162, R190, R191, R192, R193, R208, R211, R239) -/
def Obligations.ArmLoopAndSolverChangesApply : Prop :=
  (∀ (d : Dev) (b e st : Nat) (blk : List Byte) (h : Hdr) (p : ConfigArm), p.joints = 0 → d.applyWaiting b { effB := e, stamp := st, cmd := .configArm h p, block := blk }
      = ({ d with
          joints := (look d.arms p.arm.toNat).joints.foldl (fun m j => upd m j (fun x => { x with vmax := 0, amax := 0, pmin := 0, pmax := 0 })) d.joints
          arms := put d.arms p.arm.toNat { sHost := (look d.arms p.arm.toNat).sHost, slew := (look d.arms p.arm.toNat).slew } } : Dev).dropModel p.arm.toNat)
  ∧ (∀ (d : Dev) (b e st : Nat) (blk : List Byte) (h : Hdr) (p : ConfigArm), p.joints ≠ 0 → d.applyWaiting b { effB := e, stamp := st, cmd := .configArm h p, block := blk }
      = ({ d with
          joints := (look d.arms p.arm.toNat).joints.foldl (fun m j => upd m j (fun x => { x with vmax := 0, amax := 0, pmin := 0, pmax := 0 })) d.joints
          arms := put d.arms p.arm.toNat { cfg := some p, sHost := (look d.arms p.arm.toNat).sHost, slew := (look d.arms p.arm.toNat).slew, queue := (look d.arms p.arm.toNat).queue } } : Dev).readModel p.arm.toNat)
  ∧ (∀ (d : Dev) (b e st : Nat) (blk : List Byte) (h : Hdr) (p : SetJointLimits), d.applyWaiting b { effB := e, stamp := st, cmd := .setJointLimits h p, block := blk }
      = d.onJoint p.joint.toNat (fun x => { x with vmax := p.vmax.toNat, amax := p.amax.toNat, pmin := p.pmin.toInt, pmax := p.pmax.toInt }))
  ∧ (∀ (d : Dev) (b e st : Nat) (blk : List Byte) (h : Hdr) (p : ConfigStep), d.applyWaiting b { effB := e, stamp := st, cmd := .configStep h p, block := blk }
      = { d with mults := put d.mults p.channel.toNat (d.loadMult (if p.joint = 0xFF then {} else { step := some p, gen := { dirPos := p.flags.getLsbD 1 } })) })
  ∧ (∀ (d : Dev) (b e st : Nat) (blk : List Byte) (h : Hdr) (p : ConfigChopper), d.applyWaiting b { effB := e, stamp := st, cmd := .configChopper h p, block := blk }
      = { d with
          mults := put d.mults (16 + p.channel.toNat) (d.loadMult (if p.joint = 0xFF then {} else { chop := some p }))
          chops := put d.chops p.channel.toNat {} })
  ∧ (∀ (d : Dev) (b e st : Nat) (blk : List Byte) (h : Hdr) (p : ConfigJointSlot), d.applyWaiting b { effB := e, stamp := st, cmd := .configJointSlot h p, block := blk }
      = d.onLoop (fun l => { l with
          joints := upd l.joints p.joint.toNat (fun x => { cfg := some p, cfgStamp := x.cfgStamp }), bankErr := l.bankErr.filter (· ≠ p.joint.toNat) }))
  ∧ (∀ (d : Dev) (b e st : Nat) (blk : List Byte) (h : Hdr) (p : ConfigArmSlot), d.applyWaiting b { effB := e, stamp := st, cmd := .configArmSlot h p, block := blk }
      = d.onLoop (fun l => { l with
          arms := upd l.arms p.arm.toNat (fun x => { cfg := some p, cfgStamp := x.cfgStamp }), bankErr := l.bankErr.filter (· ≠ 256 + p.arm.toNat) }))
  ∧ (∀ (d : Dev) (b e st : Nat) (blk : List Byte) (h : Hdr) (p : ConfigCurrentSlot), d.applyWaiting b { effB := e, stamp := st, cmd := .configCurrentSlot h p, block := blk }
      = d.onLoop (fun l => { l with
          currents := upd l.currents p.group.toNat (fun x => { cfg := if p.joint = 0xFF then none else some p, cfgStamp := x.cfgStamp })
          bankErr := l.bankErr.filter (· ≠ 512 + p.group.toNat) }))
  ∧ (∀ (d : Dev) (b e st : Nat) (blk : List Byte) (h : Hdr) (p : SetArmTarget), d.applyWaiting b { effB := e, stamp := st, cmd := .setArmTarget h p, block := blk }
      = d.onLoop (fun l => { l with arms := upd l.arms p.arm.toNat (fun x => { x with target := p.target.map (fun (w : BitVec 32) => w.toInt) }) }))
  ∧ (∀ (d : Dev) (b e st : Nat) (blk : List Byte) (h : Hdr) (p : SetSlotMode), p.state = 0 → d.applyWaiting b { effB := e, stamp := st, cmd := .setSlotMode h p, block := blk }
      = d.onLoop (fun l => { l with joints := upd l.joints p.joint.toNat (fun x =>
          { x with manual := false, uMan := p.uMan.toInt, preset := x.preset || x.manual }) }))
  ∧ (∀ (d : Dev) (b e st : Nat) (blk : List Byte) (h : Hdr) (p : StartInjection), d.power.mode ≠ .tune →
        ¬ ((look d.tuning.inj (slotKey p.kind p.index)).phase = .cancelled ∧ (look d.tuning.inj (slotKey p.kind p.index)).p = p ∧ (look d.tuning.inj (slotKey p.kind p.index)).effB = b) → d.applyWaiting b { effB := e, stamp := st, cmd := .startInjection h p, block := blk }
      = (d.onTuning (fun x => { x with inj := put x.inj (slotKey p.kind p.index) { p := p, phase := .pending, effB := b } })).endInjection b (slotKey p.kind p.index) .cancelled 3)
  ∧ (∀ (d : Dev) (b e st : Nat) (blk : List Byte) (h : Hdr) (p : StartInjection), (look d.tuning.inj (slotKey p.kind p.index)).phase = .cancelled ∧ (look d.tuning.inj (slotKey p.kind p.index)).p = p ∧ (look d.tuning.inj (slotKey p.kind p.index)).effB = b → d.applyWaiting b { effB := e, stamp := st, cmd := .startInjection h p, block := blk }
      = d)
  ∧ (∀ (d : Dev) (b e st : Nat) (blk : List Byte) (h : Hdr) (p : StopInjection), d.applyWaiting b { effB := e, stamp := st, cmd := .stopInjection h p, block := blk }
      = (d.injections .running).foldl (fun x k =>
          if k / 256 = p.kind.toNat ∧ (p.index = 0xFF ∨ k % 256 = p.index.toNat) then x.endInjection b k .cancelled 3 else x) d)
  ∧ (∀ (d : Dev) (b e st : Nat) (blk : List Byte) (h : Hdr) (p : DefineProblem), d.applyWaiting b { effB := e, stamp := st, cmd := .defineProblem h p, block := blk }
      = (d.onSolver (fun x => { x with problems := put x.problems p.id.toNat (some { desc := p }) })).fitDeadline d.bk p.id.toNat)
  ∧ (∀ (d : Dev) (b e st : Nat) (blk : List Byte) (h : Hdr) (p : RemoveProblem), d.applyWaiting b { effB := e, stamp := st, cmd := .removeProblem h p, block := blk }
      = (d.cancelTasks d.bk (0x600 + p.id.toNat)).onSolver (fun x => { x with
          problems := put x.problems p.id.toNat none
          lanes := mapTab (fun _ l => if l.running = some p.id.toNat then { l with running := none } else l) x.lanes }))
  ∧ (∀ (d : Dev) (b e st : Nat) (blk : List Byte) (h : Hdr) (p : SetProblemInput) (q : Problem), look d.solver.problems p.id.toNat = some q → q.desc.run ≠ 2 → d.applyWaiting b { effB := e, stamp := st, cmd := .setProblemInput h p, block := blk }
      = d.onProblem p.id.toNat (fun y => { y with
          a := (p.words.map BitVec.toInt).take (q.desc.n.toNat * (q.desc.n.toNat + 1) / 2)
          b := (p.words.map BitVec.toInt).drop (q.desc.n.toNat * (q.desc.n.toNat + 1) / 2), input := true }))

/-- At their boundary the waiting commands of kernels, deck, trace, skimmer, PWM and brakes change what their rule names.
Applied at its boundary: LOAD_KERNEL writes its block to the core at 0x30000 and configures the slot, REMOVE_KERNEL
empties it, both with the tasks of the slot cancelled, RUN_KERNEL fires its entry, ASSIGN_VENDOR gives the kernel and
its channels to the core, up to five line-mode channels; the deck, vessel, load, limit and ballast configurations
replace the earlier ones; CLOSE_LIFT removes the lift; SET_TRACE sets the trace mode, and with restart empties it; ARM
arms a skimmer that is neither armed nor in POST; CONFIG_PWM_GROUP configures the group with a fresh carrier count,
CONFIG_BRAKE the brake with its feedback kept; SET_OBJECT_SOURCE binds the hint. (R274, R304, R305, R330, R331, R346,
R366, R390, R391) -/
def Obligations.KernelDeckAndOutputChangesApply : Prop :=
  (∀ (d : Dev) (b e st : Nat) (blk : List Byte) (h : Hdr) (p : LoadKernel), d.applyWaiting b { effB := e, stamp := st, cmd := .loadKernel h p, block := blk }
      = (d.cancelTasks d.bk (0x700 + p.slot.toNat)).onSig (fun x => { x with
          cores := upd x.cores p.core.toNat (fun c => { c with mem := memWrite c.mem 0x30000 blk }), kernels := put x.kernels p.slot.toNat { cfg := some p, image := blk } }))
  ∧ (∀ (d : Dev) (b e st : Nat) (blk : List Byte) (h : Hdr) (p : RemoveKernel), d.applyWaiting b { effB := e, stamp := st, cmd := .removeKernel h p, block := blk }
      = (d.cancelTasks d.bk (0x700 + p.slot.toNat)).onSig (fun x => { x with
          kernels := put x.kernels p.slot.toNat default }))
  ∧ (∀ (d : Dev) (b e st : Nat) (blk : List Byte) (h : Hdr) (p : RunKernel), d.applyWaiting b { effB := e, stamp := st, cmd := .runKernel h p, block := blk }
      = d.fire b b (0x700 + p.slot.toNat))
  ∧ (∀ (d : Dev) (b e st : Nat) (blk : List Byte) (h : Hdr) (p : AssignVendor), d.applyWaiting b { effB := e, stamp := st, cmd := .assignVendor h p, block := blk }
      = (d.onSig (fun x => { x with
          vendor := x.vendor.set (p.kernel.toNat - 1) (some p.core.toNat)
          decoder := if p.kernel == 4 || p.kernel == 5 then (List.range 10).foldl (fun l ch =>
            let line := fun (i : Nat) => decide ((look d.bus.chans i).mode = .line)
            let n := ((List.range 10).filter (fun i => line i && decide (l.getD i none = some p.core.toNat))).length
            if p.channels.getLsbD ch ∧ (!line ch ∨ l.getD ch none = some p.core.toNat ∨ n < 5) then l.set ch (some p.core.toNat) else l) x.decoder
            else x.decoder })
          ).reassigned b p.core.toNat d.sig.vendor d.sig.decoder)
  ∧ (∀ (d : Dev) (b e st : Nat) (blk : List Byte) (h : Hdr) (p : ConfigMotionPort), d.applyWaiting b { effB := e, stamp := st, cmd := .configMotionPort h p, block := blk }
      = d.onPort p.port.toNat (fun _ => { cfg := some p, silence := b }))
  ∧ (∀ (d : Dev) (b e st : Nat) (blk : List Byte) (h : Hdr) (p : ConfigDeck), d.applyWaiting b { effB := e, stamp := st, cmd := .configDeck h p, block := blk }
      = d.onDeck (fun k => { k with cfg := some p }))
  ∧ (∀ (d : Dev) (b e st : Nat) (blk : List Byte) (h : Hdr) (p : SetVessel), d.applyWaiting b { effB := e, stamp := st, cmd := .setVessel h p, block := blk }
      = d.onDeck (fun k => { k with vessel := some p }))
  ∧ (∀ (d : Dev) (b e st : Nat) (blk : List Byte) (h : Hdr) (p : DefineLoadFrame), d.applyWaiting b { effB := e, stamp := st, cmd := .defineLoadFrame h p, block := blk }
      = d.onDeck (fun k => { k with loadDef := if p.enable = 1 then some p else none, load := none, loadSaid := false }))
  ∧ (∀ (d : Dev) (b e st : Nat) (blk : List Byte) (h : Hdr) (p : SetDeckLimits), d.applyWaiting b { effB := e, stamp := st, cmd := .setDeckLimits h p, block := blk }
      = d.onDeck (fun k => { k with limits := put k.limits p.arm.toNat (some p) }))
  ∧ (∀ (d : Dev) (b e st : Nat) (blk : List Byte) (h : Hdr) (p : ConfigBallast), d.applyWaiting b { effB := e, stamp := st, cmd := .configBallast h p, block := blk }
      = (d.onDeck (fun k => { k with ballast := some p })).makeProblem 96)
  ∧ (∀ (d : Dev) (b e st : Nat) (blk : List Byte) (h : Hdr) (p : SetBallastBounds), d.applyWaiting b { effB := e, stamp := st, cmd := .setBallastBounds h p, block := blk }
      = d.onDeck (fun k => { k with bounds := some p }))
  ∧ (∀ (d : Dev) (b e st : Nat) (blk : List Byte) (h : Hdr) (p : CloseLift), d.applyWaiting b { effB := e, stamp := st, cmd := .closeLift h p, block := blk }
      = d.onDeck (fun k => { k with lifts := put k.lifts p.arm.toNat none }))
  ∧ (∀ (d : Dev) (b e st : Nat) (blk : List Byte) (h : Hdr) (p : DeclareLift), d.power.mode = .run → p.flags.getLsbD 0 = false → d.applyWaiting b { effB := e, stamp := st, cmd := .declareLift h p, block := blk }
      = d.onDeck (fun k => { k with lifts := put k.lifts p.arm.toNat (some
          { p := p, phiRef := d.deck.est.phiS.toInt, thetaRef := d.deck.est.thetaS.toInt
            tankRef := match d.deck.status with
              | some x => x.tanks
              | none => [] }) }))
  ∧ (∀ (d : Dev) (b e st : Nat) (blk : List Byte) (h : Hdr) (p : SendBallastRequest), d.power.mode = .run → p.recompute ≠ 1 → d.applyWaiting b { effB := e, stamp := st, cmd := .sendBallastRequest h p, block := blk }
      = d.stageBallast b p.arm.toNat (b + p.validFor.toNat) p.dm)
  ∧ (∀ (d : Dev) (b e st : Nat) (blk : List Byte) (h : Hdr) (p : SetObjectSource), d.applyWaiting b { effB := e, stamp := st, cmd := .setObjectSource h p, block := blk }
      = d.onSep (fun x => { x with
          hints := put x.hints p.object.toNat (if p.source = 2 then p else {}), objs := put x.objs p.object.toNat {} }))
  ∧ (∀ (d : Dev) (b e st : Nat) (blk : List Byte) (h : Hdr) (p : SetPanPlanner), p.enable = 1 → d.applyWaiting b { effB := e, stamp := st, cmd := .setPanPlanner h p, block := blk }
      = (d.onSep (fun x => { x with planners := put x.planners p.pan.toNat p })).makeProblem (32 + p.pan.toNat))
  ∧ (∀ (d : Dev) (b e st : Nat) (blk : List Byte) (h : Hdr) (p : SetTrace), p.restart = 1 → d.applyWaiting b { effB := e, stamp := st, cmd := .setTrace h p, block := blk }
      = d.onDisp (fun x => { x with trace := { x.trace with
          fill := p.mode = 1, freeze := p.freeze = 1, post := p.post.toNat
          store := [], queue := [], left := none, frozen := false, wp := 0, wraps := 0 } }))
  ∧ (∀ (d : Dev) (b e st : Nat) (blk : List Byte) (h : Hdr), d.applyWaiting b { effB := e, stamp := st, cmd := .arm h, block := blk }
      = (if d.skim.phase = .armed ∨ d.skim.phase = .post then d else d.armSkim))
  ∧ (∀ (d : Dev) (b e st : Nat) (blk : List Byte) (h : Hdr) (p : ConfigPwmGroup), d.applyWaiting b { effB := e, stamp := st, cmd := .configPwmGroup h p, block := blk }
      = d.onGroup p.group.toNat (fun y => { y with
          cfg := if p.source = 0 then none else some p, phases := y.phases.map (fun x => { d := x.d, next := x.next, count := p.nRef.toNat, c := if y.cfg.any (fun q => q.nC == p.nC) then x.c else 0 }) }))
  ∧ (∀ (d : Dev) (b e st : Nat) (blk : List Byte) (h : Hdr) (p : ConfigBrake), d.applyWaiting b { effB := e, stamp := st, cmd := .configBrake h p, block := blk }
      = d.onPwm (fun y => { y with brakes := upd y.brakes p.brake.toNat (fun x =>
          { cfg := if p.joint = 0xFF then none else some p, since := x.since, cmdAt := x.cmdAt, fb := x.fb, fbAt := x.fbAt }) }))

/-- At their boundary the waiting commands of the bus, the pair, the domains and the fault system change what their rule
names. Applied at its boundary: CONFIG_DRIVE_PROFILE and CONFIG_SYNC replace the profile and the set configuration;
LOAD_SCHEDULE loads the entries and delays of its block into a set whose channels are off; CONFIG_BUS_CHANNEL that
leaves no channel of the set running turns the set off; RELEASE_SLOT of a granted slot restores its entry;
CONFIG_HIERARCHY sets the cell; CONFIG_PAIR forms or leaves the pair without a lease; ARBITRATE_PAIR sets the
arbitrated cell; SET_FAULT_POLICY the thresholds of its class; RETIRE_CHANNEL retires its channel, CLEAR_RETIREMENT
clears it; SET_DOMAINS turns the domains of its mask off (in an ARBITER the boot ones besides), and those no longer
masked on; the banks of LOOP, the records of SEP, the local memories of SIG and MEMB are lost with their domain. (R67,
R410, R435, R458, R497, R498, R509) -/
def Obligations.BusPairAndFaultChangesApply : Prop :=
  (∀ (d : Dev) (b e st : Nat) (blk : List Byte) (h : Hdr) (p : ConfigDriveProfile), d.applyWaiting b { effB := e, stamp := st, cmd := .configDriveProfile h p, block := blk }
      = d.onBus (fun x => { x with profiles := put x.profiles p.segment.toNat (some p) }))
  ∧ (∀ (d : Dev) (b e st : Nat) (blk : List Byte) (h : Hdr) (p : ConfigSync), d.applyWaiting b { effB := e, stamp := st, cmd := .configSync h p, block := blk }
      = d.onSet p.set.toNat (fun x => { x with cfg := p }))
  ∧ (∀ (d d1 : Dev) (b e st : Nat) (blk : List Byte) (h : Hdr) (p : LoadSchedule),
      d1 = d.onSet p.set.toNat (fun x => { x with
        entries := ((rdWords 64 blk).take 128).zipIdx.foldl (fun (m : Tab (BitVec 64)) y => put m y.2 y.1) []
        dProp := (rdList 16 blk 1024 64).zipIdx.foldl (fun (m : Tab (BitVec 16)) y => put m y.2 y.1) []
        loaded := true, invalid := false, granted := [], grants := [], claims := [] }) →
      d.applyWaiting b { effB := e, stamp := st, cmd := .loadSchedule h p, block := blk }
        = if d1.chanRuns (2 * p.set.toNat) ∨ d1.chanRuns (2 * p.set.toNat + 1) then d1.enterSet b p.set.toNat .listen else d1)
  ∧ (∀ (d d1 : Dev) (b e st : Nat) (blk : List Byte) (h : Hdr) (p : ConfigBusChannel),
      d1 = d.onChan p.channel.toNat (fun c => { c with
        mode := if p.mode = 0 then .off else if p.mode = 1 then .line else .phy, phyAddr := p.phyAddr, linkUp := c.linkUp && p.mode == 2 }) →
      d.applyWaiting b { effB := e, stamp := st, cmd := .configBusChannel h p, block := blk }
        = if !d1.chanRuns (2 * (p.channel.toNat / 2)) ∧ !d1.chanRuns (2 * (p.channel.toNat / 2) + 1) then d1.enterSet b (p.channel.toNat / 2) .off
          else if (d1.busSet (p.channel.toNat / 2)).state = .off ∧ !(d1.busSet (p.channel.toNat / 2)).invalid then d1.enterSet b (p.channel.toNat / 2) .listen
          else d1)
  ∧ (∀ (d : Dev) (b e st : Nat) (blk : List Byte) (h : Hdr) (p : ReleaseSlot), (d.busSet p.set.toNat).granted.any (fun y => y.1 = p.slot.toNat) = true → d.applyWaiting b { effB := e, stamp := st, cmd := .releaseSlot h p, block := blk }
      = ((d.draw 1).journal 8 (2 * p.set.toNat) b (Config.freeWord d.fresh 16) (leBytes 4 (p.set.toNat + 256 * p.slot.toNat) ++ [0, 0, 0, 0])).onSet p.set.toNat (fun x => { x with
          entries := put x.entries p.slot.toNat (look x.granted p.slot.toNat), granted := drop1 x.granted p.slot.toNat }))
  ∧ (∀ (d : Dev) (b e st : Nat) (blk : List Byte) (h : Hdr) (p : ConfigHierarchy), d.applyWaiting b { effB := e, stamp := st, cmd := .configHierarchy h p, block := blk }
      = d.onPair (fun x => { x with cell := p.cell, arb := p.arb }))
  ∧ (∀ (d : Dev) (b e st : Nat) (blk : List Byte) (h : Hdr) (p : ConfigPair), d.applyWaiting b { effB := e, stamp := st, cmd := .configPair h p, block := blk }
      = (d.onPair (fun x => { x.dropRecord with
          cfg := if p.unit = 0xFF then none else some p
          dissolved := false, xh := 0, pledgeIn := 0, pledge := 0, partnerX := 0, shadowAt := none, wasHolder := false, lastRec := none
          applied := false, ctErr := 0, unfit := 0, partnerFit := false, toSend := none, stagedOk := 0 })).checkFit b)
  ∧ (∀ (d : Dev) (b e st : Nat) (blk : List Byte) (h : Hdr) (p : ArbitratePair), d.applyWaiting b { effB := e, stamp := st, cmd := .arbitratePair h p, block := blk }
      = d.onPair (fun x => { x with cells := put x.cells p.cell.toNat (if p.enable = 0 then default else { cfg := some p }) }))
  ∧ (∀ (d : Dev) (b e st : Nat) (blk : List Byte) (h : Hdr) (p : SetFaultPolicy), d.applyWaiting b { effB := e, stamp := st, cmd := .setFaultPolicy h p, block := blk }
      = d.onFaults (fun f => { f with policies := put f.policies p.class_.toNat { nP := p.nP.toNat, nL := p.nL.toNat, tDec := p.tDec.toNat } }))
  ∧ (∀ (d : Dev) (b e st : Nat) (blk : List Byte) (h : Hdr) (p : RetireChannel), d.applyWaiting b { effB := e, stamp := st, cmd := .retireChannel h p, block := blk }
      = d.retire b p.channel)
  ∧ (∀ (d : Dev) (b e st : Nat) (blk : List Byte) (h : Hdr) (p : ClearRetirement), p.channel.toNat % 256 ≠ 0xFF → d.applyWaiting b { effB := e, stamp := st, cmd := .clearRetirement h p, block := blk }
      = d.clearRetired b p.channel)
  ∧ (∀ (d : Dev) (b e st : Nat) (blk : List Byte) (h : Hdr) (p : SetDomains), let m := d.offMaskOf p.offMask
      let t := d.applyWaiting b { effB := e, stamp := st, cmd := .setDomains h p, block := blk }
      t.power = { d.power with
          offMask := m
          domains := d.power.domains.mapIdx (fun i y => if m.getLsbD i then DomState.off
            else if d.power.offMask.getLsbD i && !m.getLsbD i && decide (d.power.domains.getD i .off = .off) then .running else y) }
      ∧ t.loop = (if m.getLsbD 3 then d.loop.cleared else d.loop)
      ∧ t.sep = (if m.getLsbD 6 then { isl := d.sep.isl, islCheck := d.sep.islCheck, planners := d.sep.planners, hints := d.sep.hints, hintsNext := d.sep.hintsNext } else d.sep)
      ∧ (m.getLsbD 7 = true → t.sig = { d.sig with cores := [] }) ∧ t.host.memB = (if m.getLsbD 13 then [] else d.host.memB))

/-- The safety check is the reflected CRC-32 of polynomial 0xF4ACFB13, and its check value is 0x1697D06A. The safety check
starts from 0xFFFFFFFF, takes the bytes in order, each bit from the lowest: while the bit differs from the lowest bit
of the register it shifts right and adds the bit-reversed polynomial 0xF4ACFB13, else it only shifts; the result is
inverted. Over the ASCII string 123456789 it is 0x1697D06A. It differs from the CRC-32C of the transport on that
string. (R482) -/
def Obligations.TheSafetyCheckIsThatOfItsRule : Prop :=
  (∀ bs : List Byte, safetyCrc bs = (bs.foldl (fun (c : BitVec 32) (b : Byte) =>
        (List.range 8).foldl (fun (c : BitVec 32) _ => if c.getLsbD 0 then (c >>> 1) ^^^ (0xF4ACFB13#32).reverse else c >>> 1) (c ^^^ b.setWidth 32)) 0xFFFFFFFF) ^^^ 0xFFFFFFFF)
  ∧ (safetyCrc [0x31, 0x32, 0x33, 0x34, 0x35, 0x36, 0x37, 0x38, 0x39] = 0x1697D06A)
  ∧ (safetyCrc [0x31, 0x32, 0x33, 0x34, 0x35, 0x36, 0x37, 0x38, 0x39] ≠ crc32c [0x31, 0x32, 0x33, 0x34, 0x35, 0x36, 0x37, 0x38, 0x39])

/-- RST_N and PWRGOOD reset on a low of at least 1 µs, ignore one shorter than 100 ns, and between them either. A low
pulse of at least 1 µs on RST_N or PWRGOOD, where the pin was not low, is a reset with cause 3 or 2; one shorter than
100 ns changes nothing but a free value drawn; one between them is a reset or is ignored. Each of these rows
completes, exec answering the next state given: RST_N_LOW, PWRGOOD_LOW. (R525) -/
def Obligations.ResetPinsAreFiltered : Prop :=
  (∀ (t n : Nat) (s : State), let d := (s.dev.advance t).draw 1
      s.dev.boot.rstLow = false → (1000 ≤ n → exec (.rstNLow t n) s = .next (s.after (d.reset t 3)))
        ∧ (n < 100 → exec (.rstNLow t n) s = .next (s.after d))
        ∧ (exec (.rstNLow t n) s = .next (s.after (d.reset t 3)) ∨ exec (.rstNLow t n) s = .next (s.after d)))
  ∧ (∀ (t n : Nat) (s : State), let d := (s.dev.advance t).draw 1
      s.dev.boot.pwrLow = false → (1000 ≤ n → exec (.pwrgoodLow t n) s = .next (s.after (d.reset t 2)))
        ∧ (n < 100 → exec (.pwrgoodLow t n) s = .next (s.after d))
        ∧ (exec (.pwrgoodLow t n) s = .next (s.after (d.reset t 2)) ∨ exec (.pwrgoodLow t n) s = .next (s.after d)))

/-- DEV_ID shows the part number, the fused revision, the role in force and the sampled HOSTSEL. For every device: bits 15
to 0 of DEV_ID are 0x1628, bits 23 to 16 the fused DEV_REV, bits 25 to 24 the role in force, bits 27 to 26 the sampled
HOSTSEL, and bits 31 to 28 are 0. (R91) -/
def Obligations.DeviceIdentityShowsItsFields : Prop :=
  (∀ d : Dev, d.devId.toNat % 2 ^ 16 = 0x1628 ∧ d.devId.toNat / 2 ^ 16 % 2 ^ 8 = d.fuseField 64 8 ∧ d.devId.toNat / 2 ^ 24 % 4 = d.boot.role.toNat
        ∧ d.devId.toNat / 2 ^ 26 % 4 = d.hostSel ∧ d.devId.toNat / 2 ^ 28 = 0)

/-- After n ticks a rate multiplier has advanced by n times its velocity, modulo 2^48. For every multiplier, and whether
it is a step channel or a chopper, running it for n ticks adds n times its signed velocity to its accumulator, modulo
2^48, and leaves the velocity; so n ticks and then m ticks leave the accumulator that n + m ticks leave. (R146) -/
def Obligations.PhaseAccumulatorsAdvanceByTheirVelocity : Prop :=
  (∀ (m : Mult) (n : Nat), (m.run n).1.now = m.now + BitVec.ofInt 48 (m.v * n) ∧ (m.run n).1.v = m.v)
  ∧ (∀ (m : Mult) (n k : Nat), ((m.run n).1.run k).1.now = (m.run (n + k)).1.now)

/-- Every safety item reads back from its bytes with every field at every value. For every item of the safety parameter
set that a command configures, the parameters read from the bytes that stand in the set image are those that were
written, whatever their values; the items with lists hold as many entries as their structure has. (R283, R458, R486,
R493) -/
def Obligations.SafetyItemsReadBackFromTheirBytes : Prop :=
  (∀ p : ConfigSeparation, parseConfigSeparation (bytesConfigSeparation p) = p)
  ∧ (∀ p : DefinePan, parseDefinePan (bytesDefinePan p) = p)
  ∧ (∀ p : SetParamSet, parseSetParamSet (bytesSetParamSet p) = p)
  ∧ (∀ p : SetObjectSource, parseSetObjectSource (bytesSetObjectSource p) = p)
  ∧ (∀ p : SetExport, p.capsules.length = 16 → p.pose.length = 7 → parseSetExport (bytesSetExport p) = p)
  ∧ (∀ p : ConfigSinPair, parseConfigSinPair (bytesConfigSinPair p) = p)
  ∧ (∀ p : ConfigStops, parseConfigStops (bytesConfigStops p) = p)
  ∧ (∀ p : ConfigSls, p.vSls.length = 128 → p.cSls.length = 16 → parseConfigSls (bytesConfigSls p) = p)
  ∧ (∀ p : ConfigStoEdm, parseConfigStoEdm (bytesConfigStoEdm p) = p)
  ∧ (∀ p : ConfigSbc, parseConfigSbc (bytesConfigSbc p) = p)
  ∧ (∀ p : ConfigSafetyConn, parseConfigSafetyConn (bytesConfigSafetyConn p) = p)
  ∧ (∀ p : ConfigSsmReaction, parseConfigSsmReaction (bytesConfigSsmReaction p) = p)
end

