-- ==== Sys2Proof/Laws/Bytes.lean ====
section
/-! SUPPORT. How long the byte forms of numbers and words are, and that they read back (R4). -/

namespace Sys2Proof.Machine

@[simp] theorem leBytes_length (n v : Nat) : (leBytes n v).length = n := by
  induction n generalizing v with
  | zero => rfl
  | succ n ih => simp [leBytes, ih]

@[simp] theorem wordBytes_length {w : Nat} (v : BitVec w) : (wordBytes v).length = w / 8 := by simp [wordBytes]

@[simp] theorem intBytes_length (n : Nat) (v : Int) : (intBytes n v).length = n := by simp [intBytes]

/-- Records of one length laid end to end. -/
theorem flatMap_length {α : Type} (l : List α) (f : α → List Byte) (n : Nat) (h : ∀ x ∈ l, (f x).length = n) :
    (l.flatMap f).length = n * l.length := by
  induction l with
  | nil => rfl
  | cons x l ih =>
    simp only [List.flatMap_cons, List.length_append, List.length_cons]
    rw [h x (by simp), ih (fun y hy => h y (by simp [hy]))]
    ring

/-- The bytes of a number read back the number, as far as they hold it. -/
theorem leNat_leBytes (n v : Nat) : leNat (leBytes n v) = v % 256 ^ n := by
  induction n generalizing v with
  | zero => simp [leBytes, leNat, Nat.mod_one]
  | succ n ih =>
    simp only [leBytes, leNat, ih, BitVec.toNat_ofNat]
    rw [show 256 ^ (n + 1) = 256 * 256 ^ n from Nat.pow_succ']
    exact Nat.mod_mul.symm

/-- A word of whole bytes reads back where its bytes stand. -/
theorem rd_wordBytes {w off : Nat} (hw : w % 8 = 0) (v : BitVec w) (pre suf : List Byte) (ho : pre.length = off) :
    rd w (pre ++ (wordBytes v ++ suf)) off = v := by
  have hp : 256 ^ (w / 8) = 2 ^ w := by
    rw [show (256 : Nat) = 2 ^ 8 from rfl, ← Nat.pow_mul, Nat.mul_div_cancel' (Nat.dvd_of_mod_eq_zero hw)]
  unfold rd
  rw [← ho, List.drop_left, List.take_left' (wordBytes_length v)]
  unfold wordBytes
  rw [leNat_leBytes, hp, Nat.mod_eq_of_lt v.isLt, BitVec.ofNat_toNat, BitVec.setWidth_eq]

/-- A read at an offset is a read at the front of what stands there. -/
theorem rd_drop (w : Nat) (b : List Byte) (off : Nat) : rd w b off = rd w (b.drop off) 0 := by simp [rd]

/-- A word reads back from the front of its bytes. -/
theorem rd_head {w : Nat} (hw : w % 8 = 0) (v : BitVec w) (s : List Byte) : rd w (wordBytes v ++ s) 0 = v :=
  rd_wordBytes hw v [] s rfl

/-- A word reads back from its bytes alone. -/
theorem rd_head' {w : Nat} (hw : w % 8 = 0) (v : BitVec w) : rd w (wordBytes v) 0 = v := by
  have := rd_head hw v []
  rwa [List.append_nil] at this

/-- A byte reads back from the front. -/
theorem rd_byte (v : Byte) (s : List Byte) : rd 8 (v :: s) 0 = v := by simp [rd, leNat]

/-- Words from an offset on are the words at the front of what stands there. -/
theorem rdList_drop (w : Nat) (b : List Byte) (off n : Nat) : rdList w b off n = rdList w (b.drop off) 0 n := by
  induction n generalizing b off with
  | zero => rfl
  | succ n ih =>
    simp only [rdList, List.length_drop, Nat.zero_add]
    rw [ih b, ih (b.drop off), List.drop_drop, rd_drop w b off]
    by_cases h : off < b.length
    · rw [if_pos h, if_pos (by omega)]
    · rw [if_neg h, if_neg (by omega)]

/-- The words of a list read back from their bytes. -/
theorem rdList_words {w : Nat} (hw : w % 8 = 0) (h0 : 0 < w) (l : List (BitVec w)) (s : List Byte) :
    rdList w (wordsBytes l ++ s) 0 l.length = l := by
  induction l with
  | nil => rfl
  | cons v l ih =>
    have hn : 0 < w / 8 := by omega
    have e : wordsBytes (v :: l) ++ s = wordBytes v ++ (wordsBytes l ++ s) := by simp [wordsBytes]
    rw [e, List.length_cons, rdList, if_pos (by simp; omega), rd_head hw, rdList_drop, Nat.zero_add, List.drop_left' (wordBytes_length v), ih]

/-- What stands behind the bytes of a word. -/
theorem drop_word {w : Nat} (v : BitVec w) (s : List Byte) (n : Nat) (h : w / 8 ≤ n) : (wordBytes v ++ s).drop n = s.drop (n - w / 8) := by
  rw [List.drop_append, List.drop_eq_nil_of_le (by simpa using h), wordBytes_length, List.nil_append]

/-- What stands behind the bytes of a list of words. -/
theorem drop_words {w : Nat} (l : List (BitVec w)) (s : List Byte) (n : Nat) (h : w / 8 * l.length ≤ n) : (wordsBytes l ++ s).drop n = s.drop (n - w / 8 * l.length) := by
  have e : (wordsBytes l).length = w / 8 * l.length := flatMap_length _ _ _ (fun _ _ => wordBytes_length _)
  rw [List.drop_append, List.drop_eq_nil_of_le (by omega), e, List.nil_append]

end Sys2Proof.Machine
end

