-- ==== Sys2Proof/Laws/State.lean ====
section
/-! SUPPORT. What each update of one unit of the device leaves in every field: true by unfolding, so that no later proof
unfolds a record update. -/

namespace Sys2Proof.Machine

/-! ### onTime -/

@[simp] theorem Dev.onTime_time (d : Dev) (f : Time → Time) : (d.onTime f).time = f d.time := rfl
@[simp] theorem Dev.onTime_power (d : Dev) (f : Time → Time) : (d.onTime f).power = d.power := rfl
@[simp] theorem Dev.onTime_fuses (d : Dev) (f : Time → Time) : (d.onTime f).fuses = d.fuses := rfl
@[simp] theorem Dev.onTime_boot (d : Dev) (f : Time → Time) : (d.onTime f).boot = d.boot := rfl
@[simp] theorem Dev.onTime_host (d : Dev) (f : Time → Time) : (d.onTime f).host = d.host := rfl
@[simp] theorem Dev.onTime_arms (d : Dev) (f : Time → Time) : (d.onTime f).arms = d.arms := rfl
@[simp] theorem Dev.onTime_joints (d : Dev) (f : Time → Time) : (d.onTime f).joints = d.joints := rfl
@[simp] theorem Dev.onTime_mults (d : Dev) (f : Time → Time) : (d.onTime f).mults = d.mults := rfl
@[simp] theorem Dev.onTime_chops (d : Dev) (f : Time → Time) : (d.onTime f).chops = d.chops := rfl
@[simp] theorem Dev.onTime_loop (d : Dev) (f : Time → Time) : (d.onTime f).loop = d.loop := rfl
@[simp] theorem Dev.onTime_tuning (d : Dev) (f : Time → Time) : (d.onTime f).tuning = d.tuning := rfl
@[simp] theorem Dev.onTime_solver (d : Dev) (f : Time → Time) : (d.onTime f).solver = d.solver := rfl
@[simp] theorem Dev.onTime_kin (d : Dev) (f : Time → Time) : (d.onTime f).kin = d.kin := rfl
@[simp] theorem Dev.onTime_sep (d : Dev) (f : Time → Time) : (d.onTime f).sep = d.sep := rfl
@[simp] theorem Dev.onTime_deck (d : Dev) (f : Time → Time) : (d.onTime f).deck = d.deck := rfl
@[simp] theorem Dev.onTime_sig (d : Dev) (f : Time → Time) : (d.onTime f).sig = d.sig := rfl
@[simp] theorem Dev.onTime_disp (d : Dev) (f : Time → Time) : (d.onTime f).disp = d.disp := rfl
@[simp] theorem Dev.onTime_skim (d : Dev) (f : Time → Time) : (d.onTime f).skim = d.skim := rfl
@[simp] theorem Dev.onTime_pwm (d : Dev) (f : Time → Time) : (d.onTime f).pwm = d.pwm := rfl
@[simp] theorem Dev.onTime_bus (d : Dev) (f : Time → Time) : (d.onTime f).bus = d.bus := rfl
@[simp] theorem Dev.onTime_pair (d : Dev) (f : Time → Time) : (d.onTime f).pair = d.pair := rfl
@[simp] theorem Dev.onTime_safety (d : Dev) (f : Time → Time) : (d.onTime f).safety = d.safety := rfl
@[simp] theorem Dev.onTime_faults (d : Dev) (f : Time → Time) : (d.onTime f).faults = d.faults := rfl
@[simp] theorem Dev.onTime_waiting (d : Dev) (f : Time → Time) : (d.onTime f).waiting = d.waiting := rfl
@[simp] theorem Dev.onTime_fresh (d : Dev) (f : Time → Time) : (d.onTime f).fresh = d.fresh := rfl

/-! ### onPower -/

@[simp] theorem Dev.onPower_time (d : Dev) (f : Power → Power) : (d.onPower f).time = d.time := rfl
@[simp] theorem Dev.onPower_power (d : Dev) (f : Power → Power) : (d.onPower f).power = f d.power := rfl
@[simp] theorem Dev.onPower_fuses (d : Dev) (f : Power → Power) : (d.onPower f).fuses = d.fuses := rfl
@[simp] theorem Dev.onPower_boot (d : Dev) (f : Power → Power) : (d.onPower f).boot = d.boot := rfl
@[simp] theorem Dev.onPower_host (d : Dev) (f : Power → Power) : (d.onPower f).host = d.host := rfl
@[simp] theorem Dev.onPower_arms (d : Dev) (f : Power → Power) : (d.onPower f).arms = d.arms := rfl
@[simp] theorem Dev.onPower_joints (d : Dev) (f : Power → Power) : (d.onPower f).joints = d.joints := rfl
@[simp] theorem Dev.onPower_mults (d : Dev) (f : Power → Power) : (d.onPower f).mults = d.mults := rfl
@[simp] theorem Dev.onPower_chops (d : Dev) (f : Power → Power) : (d.onPower f).chops = d.chops := rfl
@[simp] theorem Dev.onPower_loop (d : Dev) (f : Power → Power) : (d.onPower f).loop = d.loop := rfl
@[simp] theorem Dev.onPower_tuning (d : Dev) (f : Power → Power) : (d.onPower f).tuning = d.tuning := rfl
@[simp] theorem Dev.onPower_solver (d : Dev) (f : Power → Power) : (d.onPower f).solver = d.solver := rfl
@[simp] theorem Dev.onPower_kin (d : Dev) (f : Power → Power) : (d.onPower f).kin = d.kin := rfl
@[simp] theorem Dev.onPower_sep (d : Dev) (f : Power → Power) : (d.onPower f).sep = d.sep := rfl
@[simp] theorem Dev.onPower_deck (d : Dev) (f : Power → Power) : (d.onPower f).deck = d.deck := rfl
@[simp] theorem Dev.onPower_sig (d : Dev) (f : Power → Power) : (d.onPower f).sig = d.sig := rfl
@[simp] theorem Dev.onPower_disp (d : Dev) (f : Power → Power) : (d.onPower f).disp = d.disp := rfl
@[simp] theorem Dev.onPower_skim (d : Dev) (f : Power → Power) : (d.onPower f).skim = d.skim := rfl
@[simp] theorem Dev.onPower_pwm (d : Dev) (f : Power → Power) : (d.onPower f).pwm = d.pwm := rfl
@[simp] theorem Dev.onPower_bus (d : Dev) (f : Power → Power) : (d.onPower f).bus = d.bus := rfl
@[simp] theorem Dev.onPower_pair (d : Dev) (f : Power → Power) : (d.onPower f).pair = d.pair := rfl
@[simp] theorem Dev.onPower_safety (d : Dev) (f : Power → Power) : (d.onPower f).safety = d.safety := rfl
@[simp] theorem Dev.onPower_faults (d : Dev) (f : Power → Power) : (d.onPower f).faults = d.faults := rfl
@[simp] theorem Dev.onPower_waiting (d : Dev) (f : Power → Power) : (d.onPower f).waiting = d.waiting := rfl
@[simp] theorem Dev.onPower_fresh (d : Dev) (f : Power → Power) : (d.onPower f).fresh = d.fresh := rfl

/-! ### onFuses -/

@[simp] theorem Dev.onFuses_time (d : Dev) (f : Fuses → Fuses) : (d.onFuses f).time = d.time := rfl
@[simp] theorem Dev.onFuses_power (d : Dev) (f : Fuses → Fuses) : (d.onFuses f).power = d.power := rfl
@[simp] theorem Dev.onFuses_fuses (d : Dev) (f : Fuses → Fuses) : (d.onFuses f).fuses = f d.fuses := rfl
@[simp] theorem Dev.onFuses_boot (d : Dev) (f : Fuses → Fuses) : (d.onFuses f).boot = d.boot := rfl
@[simp] theorem Dev.onFuses_host (d : Dev) (f : Fuses → Fuses) : (d.onFuses f).host = d.host := rfl
@[simp] theorem Dev.onFuses_arms (d : Dev) (f : Fuses → Fuses) : (d.onFuses f).arms = d.arms := rfl
@[simp] theorem Dev.onFuses_joints (d : Dev) (f : Fuses → Fuses) : (d.onFuses f).joints = d.joints := rfl
@[simp] theorem Dev.onFuses_mults (d : Dev) (f : Fuses → Fuses) : (d.onFuses f).mults = d.mults := rfl
@[simp] theorem Dev.onFuses_chops (d : Dev) (f : Fuses → Fuses) : (d.onFuses f).chops = d.chops := rfl
@[simp] theorem Dev.onFuses_loop (d : Dev) (f : Fuses → Fuses) : (d.onFuses f).loop = d.loop := rfl
@[simp] theorem Dev.onFuses_tuning (d : Dev) (f : Fuses → Fuses) : (d.onFuses f).tuning = d.tuning := rfl
@[simp] theorem Dev.onFuses_solver (d : Dev) (f : Fuses → Fuses) : (d.onFuses f).solver = d.solver := rfl
@[simp] theorem Dev.onFuses_kin (d : Dev) (f : Fuses → Fuses) : (d.onFuses f).kin = d.kin := rfl
@[simp] theorem Dev.onFuses_sep (d : Dev) (f : Fuses → Fuses) : (d.onFuses f).sep = d.sep := rfl
@[simp] theorem Dev.onFuses_deck (d : Dev) (f : Fuses → Fuses) : (d.onFuses f).deck = d.deck := rfl
@[simp] theorem Dev.onFuses_sig (d : Dev) (f : Fuses → Fuses) : (d.onFuses f).sig = d.sig := rfl
@[simp] theorem Dev.onFuses_disp (d : Dev) (f : Fuses → Fuses) : (d.onFuses f).disp = d.disp := rfl
@[simp] theorem Dev.onFuses_skim (d : Dev) (f : Fuses → Fuses) : (d.onFuses f).skim = d.skim := rfl
@[simp] theorem Dev.onFuses_pwm (d : Dev) (f : Fuses → Fuses) : (d.onFuses f).pwm = d.pwm := rfl
@[simp] theorem Dev.onFuses_bus (d : Dev) (f : Fuses → Fuses) : (d.onFuses f).bus = d.bus := rfl
@[simp] theorem Dev.onFuses_pair (d : Dev) (f : Fuses → Fuses) : (d.onFuses f).pair = d.pair := rfl
@[simp] theorem Dev.onFuses_safety (d : Dev) (f : Fuses → Fuses) : (d.onFuses f).safety = d.safety := rfl
@[simp] theorem Dev.onFuses_faults (d : Dev) (f : Fuses → Fuses) : (d.onFuses f).faults = d.faults := rfl
@[simp] theorem Dev.onFuses_waiting (d : Dev) (f : Fuses → Fuses) : (d.onFuses f).waiting = d.waiting := rfl
@[simp] theorem Dev.onFuses_fresh (d : Dev) (f : Fuses → Fuses) : (d.onFuses f).fresh = d.fresh := rfl

/-! ### onBoot -/

@[simp] theorem Dev.onBoot_time (d : Dev) (f : Boot → Boot) : (d.onBoot f).time = d.time := rfl
@[simp] theorem Dev.onBoot_power (d : Dev) (f : Boot → Boot) : (d.onBoot f).power = d.power := rfl
@[simp] theorem Dev.onBoot_fuses (d : Dev) (f : Boot → Boot) : (d.onBoot f).fuses = d.fuses := rfl
@[simp] theorem Dev.onBoot_boot (d : Dev) (f : Boot → Boot) : (d.onBoot f).boot = f d.boot := rfl
@[simp] theorem Dev.onBoot_host (d : Dev) (f : Boot → Boot) : (d.onBoot f).host = d.host := rfl
@[simp] theorem Dev.onBoot_arms (d : Dev) (f : Boot → Boot) : (d.onBoot f).arms = d.arms := rfl
@[simp] theorem Dev.onBoot_joints (d : Dev) (f : Boot → Boot) : (d.onBoot f).joints = d.joints := rfl
@[simp] theorem Dev.onBoot_mults (d : Dev) (f : Boot → Boot) : (d.onBoot f).mults = d.mults := rfl
@[simp] theorem Dev.onBoot_chops (d : Dev) (f : Boot → Boot) : (d.onBoot f).chops = d.chops := rfl
@[simp] theorem Dev.onBoot_loop (d : Dev) (f : Boot → Boot) : (d.onBoot f).loop = d.loop := rfl
@[simp] theorem Dev.onBoot_tuning (d : Dev) (f : Boot → Boot) : (d.onBoot f).tuning = d.tuning := rfl
@[simp] theorem Dev.onBoot_solver (d : Dev) (f : Boot → Boot) : (d.onBoot f).solver = d.solver := rfl
@[simp] theorem Dev.onBoot_kin (d : Dev) (f : Boot → Boot) : (d.onBoot f).kin = d.kin := rfl
@[simp] theorem Dev.onBoot_sep (d : Dev) (f : Boot → Boot) : (d.onBoot f).sep = d.sep := rfl
@[simp] theorem Dev.onBoot_deck (d : Dev) (f : Boot → Boot) : (d.onBoot f).deck = d.deck := rfl
@[simp] theorem Dev.onBoot_sig (d : Dev) (f : Boot → Boot) : (d.onBoot f).sig = d.sig := rfl
@[simp] theorem Dev.onBoot_disp (d : Dev) (f : Boot → Boot) : (d.onBoot f).disp = d.disp := rfl
@[simp] theorem Dev.onBoot_skim (d : Dev) (f : Boot → Boot) : (d.onBoot f).skim = d.skim := rfl
@[simp] theorem Dev.onBoot_pwm (d : Dev) (f : Boot → Boot) : (d.onBoot f).pwm = d.pwm := rfl
@[simp] theorem Dev.onBoot_bus (d : Dev) (f : Boot → Boot) : (d.onBoot f).bus = d.bus := rfl
@[simp] theorem Dev.onBoot_pair (d : Dev) (f : Boot → Boot) : (d.onBoot f).pair = d.pair := rfl
@[simp] theorem Dev.onBoot_safety (d : Dev) (f : Boot → Boot) : (d.onBoot f).safety = d.safety := rfl
@[simp] theorem Dev.onBoot_faults (d : Dev) (f : Boot → Boot) : (d.onBoot f).faults = d.faults := rfl
@[simp] theorem Dev.onBoot_waiting (d : Dev) (f : Boot → Boot) : (d.onBoot f).waiting = d.waiting := rfl
@[simp] theorem Dev.onBoot_fresh (d : Dev) (f : Boot → Boot) : (d.onBoot f).fresh = d.fresh := rfl

/-! ### onHost -/

@[simp] theorem Dev.onHost_time (d : Dev) (f : HostIf → HostIf) : (d.onHost f).time = d.time := rfl
@[simp] theorem Dev.onHost_power (d : Dev) (f : HostIf → HostIf) : (d.onHost f).power = d.power := rfl
@[simp] theorem Dev.onHost_fuses (d : Dev) (f : HostIf → HostIf) : (d.onHost f).fuses = d.fuses := rfl
@[simp] theorem Dev.onHost_boot (d : Dev) (f : HostIf → HostIf) : (d.onHost f).boot = d.boot := rfl
@[simp] theorem Dev.onHost_host (d : Dev) (f : HostIf → HostIf) : (d.onHost f).host = f d.host := rfl
@[simp] theorem Dev.onHost_arms (d : Dev) (f : HostIf → HostIf) : (d.onHost f).arms = d.arms := rfl
@[simp] theorem Dev.onHost_joints (d : Dev) (f : HostIf → HostIf) : (d.onHost f).joints = d.joints := rfl
@[simp] theorem Dev.onHost_mults (d : Dev) (f : HostIf → HostIf) : (d.onHost f).mults = d.mults := rfl
@[simp] theorem Dev.onHost_chops (d : Dev) (f : HostIf → HostIf) : (d.onHost f).chops = d.chops := rfl
@[simp] theorem Dev.onHost_loop (d : Dev) (f : HostIf → HostIf) : (d.onHost f).loop = d.loop := rfl
@[simp] theorem Dev.onHost_tuning (d : Dev) (f : HostIf → HostIf) : (d.onHost f).tuning = d.tuning := rfl
@[simp] theorem Dev.onHost_solver (d : Dev) (f : HostIf → HostIf) : (d.onHost f).solver = d.solver := rfl
@[simp] theorem Dev.onHost_kin (d : Dev) (f : HostIf → HostIf) : (d.onHost f).kin = d.kin := rfl
@[simp] theorem Dev.onHost_sep (d : Dev) (f : HostIf → HostIf) : (d.onHost f).sep = d.sep := rfl
@[simp] theorem Dev.onHost_deck (d : Dev) (f : HostIf → HostIf) : (d.onHost f).deck = d.deck := rfl
@[simp] theorem Dev.onHost_sig (d : Dev) (f : HostIf → HostIf) : (d.onHost f).sig = d.sig := rfl
@[simp] theorem Dev.onHost_disp (d : Dev) (f : HostIf → HostIf) : (d.onHost f).disp = d.disp := rfl
@[simp] theorem Dev.onHost_skim (d : Dev) (f : HostIf → HostIf) : (d.onHost f).skim = d.skim := rfl
@[simp] theorem Dev.onHost_pwm (d : Dev) (f : HostIf → HostIf) : (d.onHost f).pwm = d.pwm := rfl
@[simp] theorem Dev.onHost_bus (d : Dev) (f : HostIf → HostIf) : (d.onHost f).bus = d.bus := rfl
@[simp] theorem Dev.onHost_pair (d : Dev) (f : HostIf → HostIf) : (d.onHost f).pair = d.pair := rfl
@[simp] theorem Dev.onHost_safety (d : Dev) (f : HostIf → HostIf) : (d.onHost f).safety = d.safety := rfl
@[simp] theorem Dev.onHost_faults (d : Dev) (f : HostIf → HostIf) : (d.onHost f).faults = d.faults := rfl
@[simp] theorem Dev.onHost_waiting (d : Dev) (f : HostIf → HostIf) : (d.onHost f).waiting = d.waiting := rfl
@[simp] theorem Dev.onHost_fresh (d : Dev) (f : HostIf → HostIf) : (d.onHost f).fresh = d.fresh := rfl

/-! ### onLoop -/

@[simp] theorem Dev.onLoop_time (d : Dev) (f : Loop → Loop) : (d.onLoop f).time = d.time := rfl
@[simp] theorem Dev.onLoop_power (d : Dev) (f : Loop → Loop) : (d.onLoop f).power = d.power := rfl
@[simp] theorem Dev.onLoop_fuses (d : Dev) (f : Loop → Loop) : (d.onLoop f).fuses = d.fuses := rfl
@[simp] theorem Dev.onLoop_boot (d : Dev) (f : Loop → Loop) : (d.onLoop f).boot = d.boot := rfl
@[simp] theorem Dev.onLoop_host (d : Dev) (f : Loop → Loop) : (d.onLoop f).host = d.host := rfl
@[simp] theorem Dev.onLoop_arms (d : Dev) (f : Loop → Loop) : (d.onLoop f).arms = d.arms := rfl
@[simp] theorem Dev.onLoop_joints (d : Dev) (f : Loop → Loop) : (d.onLoop f).joints = d.joints := rfl
@[simp] theorem Dev.onLoop_mults (d : Dev) (f : Loop → Loop) : (d.onLoop f).mults = d.mults := rfl
@[simp] theorem Dev.onLoop_chops (d : Dev) (f : Loop → Loop) : (d.onLoop f).chops = d.chops := rfl
@[simp] theorem Dev.onLoop_loop (d : Dev) (f : Loop → Loop) : (d.onLoop f).loop = f d.loop := rfl
@[simp] theorem Dev.onLoop_tuning (d : Dev) (f : Loop → Loop) : (d.onLoop f).tuning = d.tuning := rfl
@[simp] theorem Dev.onLoop_solver (d : Dev) (f : Loop → Loop) : (d.onLoop f).solver = d.solver := rfl
@[simp] theorem Dev.onLoop_kin (d : Dev) (f : Loop → Loop) : (d.onLoop f).kin = d.kin := rfl
@[simp] theorem Dev.onLoop_sep (d : Dev) (f : Loop → Loop) : (d.onLoop f).sep = d.sep := rfl
@[simp] theorem Dev.onLoop_deck (d : Dev) (f : Loop → Loop) : (d.onLoop f).deck = d.deck := rfl
@[simp] theorem Dev.onLoop_sig (d : Dev) (f : Loop → Loop) : (d.onLoop f).sig = d.sig := rfl
@[simp] theorem Dev.onLoop_disp (d : Dev) (f : Loop → Loop) : (d.onLoop f).disp = d.disp := rfl
@[simp] theorem Dev.onLoop_skim (d : Dev) (f : Loop → Loop) : (d.onLoop f).skim = d.skim := rfl
@[simp] theorem Dev.onLoop_pwm (d : Dev) (f : Loop → Loop) : (d.onLoop f).pwm = d.pwm := rfl
@[simp] theorem Dev.onLoop_bus (d : Dev) (f : Loop → Loop) : (d.onLoop f).bus = d.bus := rfl
@[simp] theorem Dev.onLoop_pair (d : Dev) (f : Loop → Loop) : (d.onLoop f).pair = d.pair := rfl
@[simp] theorem Dev.onLoop_safety (d : Dev) (f : Loop → Loop) : (d.onLoop f).safety = d.safety := rfl
@[simp] theorem Dev.onLoop_faults (d : Dev) (f : Loop → Loop) : (d.onLoop f).faults = d.faults := rfl
@[simp] theorem Dev.onLoop_waiting (d : Dev) (f : Loop → Loop) : (d.onLoop f).waiting = d.waiting := rfl
@[simp] theorem Dev.onLoop_fresh (d : Dev) (f : Loop → Loop) : (d.onLoop f).fresh = d.fresh := rfl

/-! ### onTuning -/

@[simp] theorem Dev.onTuning_time (d : Dev) (f : Tuning → Tuning) : (d.onTuning f).time = d.time := rfl
@[simp] theorem Dev.onTuning_power (d : Dev) (f : Tuning → Tuning) : (d.onTuning f).power = d.power := rfl
@[simp] theorem Dev.onTuning_fuses (d : Dev) (f : Tuning → Tuning) : (d.onTuning f).fuses = d.fuses := rfl
@[simp] theorem Dev.onTuning_boot (d : Dev) (f : Tuning → Tuning) : (d.onTuning f).boot = d.boot := rfl
@[simp] theorem Dev.onTuning_host (d : Dev) (f : Tuning → Tuning) : (d.onTuning f).host = d.host := rfl
@[simp] theorem Dev.onTuning_arms (d : Dev) (f : Tuning → Tuning) : (d.onTuning f).arms = d.arms := rfl
@[simp] theorem Dev.onTuning_joints (d : Dev) (f : Tuning → Tuning) : (d.onTuning f).joints = d.joints := rfl
@[simp] theorem Dev.onTuning_mults (d : Dev) (f : Tuning → Tuning) : (d.onTuning f).mults = d.mults := rfl
@[simp] theorem Dev.onTuning_chops (d : Dev) (f : Tuning → Tuning) : (d.onTuning f).chops = d.chops := rfl
@[simp] theorem Dev.onTuning_loop (d : Dev) (f : Tuning → Tuning) : (d.onTuning f).loop = d.loop := rfl
@[simp] theorem Dev.onTuning_tuning (d : Dev) (f : Tuning → Tuning) : (d.onTuning f).tuning = f d.tuning := rfl
@[simp] theorem Dev.onTuning_solver (d : Dev) (f : Tuning → Tuning) : (d.onTuning f).solver = d.solver := rfl
@[simp] theorem Dev.onTuning_kin (d : Dev) (f : Tuning → Tuning) : (d.onTuning f).kin = d.kin := rfl
@[simp] theorem Dev.onTuning_sep (d : Dev) (f : Tuning → Tuning) : (d.onTuning f).sep = d.sep := rfl
@[simp] theorem Dev.onTuning_deck (d : Dev) (f : Tuning → Tuning) : (d.onTuning f).deck = d.deck := rfl
@[simp] theorem Dev.onTuning_sig (d : Dev) (f : Tuning → Tuning) : (d.onTuning f).sig = d.sig := rfl
@[simp] theorem Dev.onTuning_disp (d : Dev) (f : Tuning → Tuning) : (d.onTuning f).disp = d.disp := rfl
@[simp] theorem Dev.onTuning_skim (d : Dev) (f : Tuning → Tuning) : (d.onTuning f).skim = d.skim := rfl
@[simp] theorem Dev.onTuning_pwm (d : Dev) (f : Tuning → Tuning) : (d.onTuning f).pwm = d.pwm := rfl
@[simp] theorem Dev.onTuning_bus (d : Dev) (f : Tuning → Tuning) : (d.onTuning f).bus = d.bus := rfl
@[simp] theorem Dev.onTuning_pair (d : Dev) (f : Tuning → Tuning) : (d.onTuning f).pair = d.pair := rfl
@[simp] theorem Dev.onTuning_safety (d : Dev) (f : Tuning → Tuning) : (d.onTuning f).safety = d.safety := rfl
@[simp] theorem Dev.onTuning_faults (d : Dev) (f : Tuning → Tuning) : (d.onTuning f).faults = d.faults := rfl
@[simp] theorem Dev.onTuning_waiting (d : Dev) (f : Tuning → Tuning) : (d.onTuning f).waiting = d.waiting := rfl
@[simp] theorem Dev.onTuning_fresh (d : Dev) (f : Tuning → Tuning) : (d.onTuning f).fresh = d.fresh := rfl

/-! ### onSolver -/

@[simp] theorem Dev.onSolver_time (d : Dev) (f : Solver → Solver) : (d.onSolver f).time = d.time := rfl
@[simp] theorem Dev.onSolver_power (d : Dev) (f : Solver → Solver) : (d.onSolver f).power = d.power := rfl
@[simp] theorem Dev.onSolver_fuses (d : Dev) (f : Solver → Solver) : (d.onSolver f).fuses = d.fuses := rfl
@[simp] theorem Dev.onSolver_boot (d : Dev) (f : Solver → Solver) : (d.onSolver f).boot = d.boot := rfl
@[simp] theorem Dev.onSolver_host (d : Dev) (f : Solver → Solver) : (d.onSolver f).host = d.host := rfl
@[simp] theorem Dev.onSolver_arms (d : Dev) (f : Solver → Solver) : (d.onSolver f).arms = d.arms := rfl
@[simp] theorem Dev.onSolver_joints (d : Dev) (f : Solver → Solver) : (d.onSolver f).joints = d.joints := rfl
@[simp] theorem Dev.onSolver_mults (d : Dev) (f : Solver → Solver) : (d.onSolver f).mults = d.mults := rfl
@[simp] theorem Dev.onSolver_chops (d : Dev) (f : Solver → Solver) : (d.onSolver f).chops = d.chops := rfl
@[simp] theorem Dev.onSolver_loop (d : Dev) (f : Solver → Solver) : (d.onSolver f).loop = d.loop := rfl
@[simp] theorem Dev.onSolver_tuning (d : Dev) (f : Solver → Solver) : (d.onSolver f).tuning = d.tuning := rfl
@[simp] theorem Dev.onSolver_solver (d : Dev) (f : Solver → Solver) : (d.onSolver f).solver = f d.solver := rfl
@[simp] theorem Dev.onSolver_kin (d : Dev) (f : Solver → Solver) : (d.onSolver f).kin = d.kin := rfl
@[simp] theorem Dev.onSolver_sep (d : Dev) (f : Solver → Solver) : (d.onSolver f).sep = d.sep := rfl
@[simp] theorem Dev.onSolver_deck (d : Dev) (f : Solver → Solver) : (d.onSolver f).deck = d.deck := rfl
@[simp] theorem Dev.onSolver_sig (d : Dev) (f : Solver → Solver) : (d.onSolver f).sig = d.sig := rfl
@[simp] theorem Dev.onSolver_disp (d : Dev) (f : Solver → Solver) : (d.onSolver f).disp = d.disp := rfl
@[simp] theorem Dev.onSolver_skim (d : Dev) (f : Solver → Solver) : (d.onSolver f).skim = d.skim := rfl
@[simp] theorem Dev.onSolver_pwm (d : Dev) (f : Solver → Solver) : (d.onSolver f).pwm = d.pwm := rfl
@[simp] theorem Dev.onSolver_bus (d : Dev) (f : Solver → Solver) : (d.onSolver f).bus = d.bus := rfl
@[simp] theorem Dev.onSolver_pair (d : Dev) (f : Solver → Solver) : (d.onSolver f).pair = d.pair := rfl
@[simp] theorem Dev.onSolver_safety (d : Dev) (f : Solver → Solver) : (d.onSolver f).safety = d.safety := rfl
@[simp] theorem Dev.onSolver_faults (d : Dev) (f : Solver → Solver) : (d.onSolver f).faults = d.faults := rfl
@[simp] theorem Dev.onSolver_waiting (d : Dev) (f : Solver → Solver) : (d.onSolver f).waiting = d.waiting := rfl
@[simp] theorem Dev.onSolver_fresh (d : Dev) (f : Solver → Solver) : (d.onSolver f).fresh = d.fresh := rfl

/-! ### onSep -/

@[simp] theorem Dev.onSep_time (d : Dev) (f : Sep → Sep) : (d.onSep f).time = d.time := rfl
@[simp] theorem Dev.onSep_power (d : Dev) (f : Sep → Sep) : (d.onSep f).power = d.power := rfl
@[simp] theorem Dev.onSep_fuses (d : Dev) (f : Sep → Sep) : (d.onSep f).fuses = d.fuses := rfl
@[simp] theorem Dev.onSep_boot (d : Dev) (f : Sep → Sep) : (d.onSep f).boot = d.boot := rfl
@[simp] theorem Dev.onSep_host (d : Dev) (f : Sep → Sep) : (d.onSep f).host = d.host := rfl
@[simp] theorem Dev.onSep_arms (d : Dev) (f : Sep → Sep) : (d.onSep f).arms = d.arms := rfl
@[simp] theorem Dev.onSep_joints (d : Dev) (f : Sep → Sep) : (d.onSep f).joints = d.joints := rfl
@[simp] theorem Dev.onSep_mults (d : Dev) (f : Sep → Sep) : (d.onSep f).mults = d.mults := rfl
@[simp] theorem Dev.onSep_chops (d : Dev) (f : Sep → Sep) : (d.onSep f).chops = d.chops := rfl
@[simp] theorem Dev.onSep_loop (d : Dev) (f : Sep → Sep) : (d.onSep f).loop = d.loop := rfl
@[simp] theorem Dev.onSep_tuning (d : Dev) (f : Sep → Sep) : (d.onSep f).tuning = d.tuning := rfl
@[simp] theorem Dev.onSep_solver (d : Dev) (f : Sep → Sep) : (d.onSep f).solver = d.solver := rfl
@[simp] theorem Dev.onSep_kin (d : Dev) (f : Sep → Sep) : (d.onSep f).kin = d.kin := rfl
@[simp] theorem Dev.onSep_sep (d : Dev) (f : Sep → Sep) : (d.onSep f).sep = f d.sep := rfl
@[simp] theorem Dev.onSep_deck (d : Dev) (f : Sep → Sep) : (d.onSep f).deck = d.deck := rfl
@[simp] theorem Dev.onSep_sig (d : Dev) (f : Sep → Sep) : (d.onSep f).sig = d.sig := rfl
@[simp] theorem Dev.onSep_disp (d : Dev) (f : Sep → Sep) : (d.onSep f).disp = d.disp := rfl
@[simp] theorem Dev.onSep_skim (d : Dev) (f : Sep → Sep) : (d.onSep f).skim = d.skim := rfl
@[simp] theorem Dev.onSep_pwm (d : Dev) (f : Sep → Sep) : (d.onSep f).pwm = d.pwm := rfl
@[simp] theorem Dev.onSep_bus (d : Dev) (f : Sep → Sep) : (d.onSep f).bus = d.bus := rfl
@[simp] theorem Dev.onSep_pair (d : Dev) (f : Sep → Sep) : (d.onSep f).pair = d.pair := rfl
@[simp] theorem Dev.onSep_safety (d : Dev) (f : Sep → Sep) : (d.onSep f).safety = d.safety := rfl
@[simp] theorem Dev.onSep_faults (d : Dev) (f : Sep → Sep) : (d.onSep f).faults = d.faults := rfl
@[simp] theorem Dev.onSep_waiting (d : Dev) (f : Sep → Sep) : (d.onSep f).waiting = d.waiting := rfl
@[simp] theorem Dev.onSep_fresh (d : Dev) (f : Sep → Sep) : (d.onSep f).fresh = d.fresh := rfl

/-! ### onDeck -/

@[simp] theorem Dev.onDeck_time (d : Dev) (f : Deck → Deck) : (d.onDeck f).time = d.time := rfl
@[simp] theorem Dev.onDeck_power (d : Dev) (f : Deck → Deck) : (d.onDeck f).power = d.power := rfl
@[simp] theorem Dev.onDeck_fuses (d : Dev) (f : Deck → Deck) : (d.onDeck f).fuses = d.fuses := rfl
@[simp] theorem Dev.onDeck_boot (d : Dev) (f : Deck → Deck) : (d.onDeck f).boot = d.boot := rfl
@[simp] theorem Dev.onDeck_host (d : Dev) (f : Deck → Deck) : (d.onDeck f).host = d.host := rfl
@[simp] theorem Dev.onDeck_arms (d : Dev) (f : Deck → Deck) : (d.onDeck f).arms = d.arms := rfl
@[simp] theorem Dev.onDeck_joints (d : Dev) (f : Deck → Deck) : (d.onDeck f).joints = d.joints := rfl
@[simp] theorem Dev.onDeck_mults (d : Dev) (f : Deck → Deck) : (d.onDeck f).mults = d.mults := rfl
@[simp] theorem Dev.onDeck_chops (d : Dev) (f : Deck → Deck) : (d.onDeck f).chops = d.chops := rfl
@[simp] theorem Dev.onDeck_loop (d : Dev) (f : Deck → Deck) : (d.onDeck f).loop = d.loop := rfl
@[simp] theorem Dev.onDeck_tuning (d : Dev) (f : Deck → Deck) : (d.onDeck f).tuning = d.tuning := rfl
@[simp] theorem Dev.onDeck_solver (d : Dev) (f : Deck → Deck) : (d.onDeck f).solver = d.solver := rfl
@[simp] theorem Dev.onDeck_kin (d : Dev) (f : Deck → Deck) : (d.onDeck f).kin = d.kin := rfl
@[simp] theorem Dev.onDeck_sep (d : Dev) (f : Deck → Deck) : (d.onDeck f).sep = d.sep := rfl
@[simp] theorem Dev.onDeck_deck (d : Dev) (f : Deck → Deck) : (d.onDeck f).deck = f d.deck := rfl
@[simp] theorem Dev.onDeck_sig (d : Dev) (f : Deck → Deck) : (d.onDeck f).sig = d.sig := rfl
@[simp] theorem Dev.onDeck_disp (d : Dev) (f : Deck → Deck) : (d.onDeck f).disp = d.disp := rfl
@[simp] theorem Dev.onDeck_skim (d : Dev) (f : Deck → Deck) : (d.onDeck f).skim = d.skim := rfl
@[simp] theorem Dev.onDeck_pwm (d : Dev) (f : Deck → Deck) : (d.onDeck f).pwm = d.pwm := rfl
@[simp] theorem Dev.onDeck_bus (d : Dev) (f : Deck → Deck) : (d.onDeck f).bus = d.bus := rfl
@[simp] theorem Dev.onDeck_pair (d : Dev) (f : Deck → Deck) : (d.onDeck f).pair = d.pair := rfl
@[simp] theorem Dev.onDeck_safety (d : Dev) (f : Deck → Deck) : (d.onDeck f).safety = d.safety := rfl
@[simp] theorem Dev.onDeck_faults (d : Dev) (f : Deck → Deck) : (d.onDeck f).faults = d.faults := rfl
@[simp] theorem Dev.onDeck_waiting (d : Dev) (f : Deck → Deck) : (d.onDeck f).waiting = d.waiting := rfl
@[simp] theorem Dev.onDeck_fresh (d : Dev) (f : Deck → Deck) : (d.onDeck f).fresh = d.fresh := rfl

/-! ### onSig -/

@[simp] theorem Dev.onSig_time (d : Dev) (f : Sig → Sig) : (d.onSig f).time = d.time := rfl
@[simp] theorem Dev.onSig_power (d : Dev) (f : Sig → Sig) : (d.onSig f).power = d.power := rfl
@[simp] theorem Dev.onSig_fuses (d : Dev) (f : Sig → Sig) : (d.onSig f).fuses = d.fuses := rfl
@[simp] theorem Dev.onSig_boot (d : Dev) (f : Sig → Sig) : (d.onSig f).boot = d.boot := rfl
@[simp] theorem Dev.onSig_host (d : Dev) (f : Sig → Sig) : (d.onSig f).host = d.host := rfl
@[simp] theorem Dev.onSig_arms (d : Dev) (f : Sig → Sig) : (d.onSig f).arms = d.arms := rfl
@[simp] theorem Dev.onSig_joints (d : Dev) (f : Sig → Sig) : (d.onSig f).joints = d.joints := rfl
@[simp] theorem Dev.onSig_mults (d : Dev) (f : Sig → Sig) : (d.onSig f).mults = d.mults := rfl
@[simp] theorem Dev.onSig_chops (d : Dev) (f : Sig → Sig) : (d.onSig f).chops = d.chops := rfl
@[simp] theorem Dev.onSig_loop (d : Dev) (f : Sig → Sig) : (d.onSig f).loop = d.loop := rfl
@[simp] theorem Dev.onSig_tuning (d : Dev) (f : Sig → Sig) : (d.onSig f).tuning = d.tuning := rfl
@[simp] theorem Dev.onSig_solver (d : Dev) (f : Sig → Sig) : (d.onSig f).solver = d.solver := rfl
@[simp] theorem Dev.onSig_kin (d : Dev) (f : Sig → Sig) : (d.onSig f).kin = d.kin := rfl
@[simp] theorem Dev.onSig_sep (d : Dev) (f : Sig → Sig) : (d.onSig f).sep = d.sep := rfl
@[simp] theorem Dev.onSig_deck (d : Dev) (f : Sig → Sig) : (d.onSig f).deck = d.deck := rfl
@[simp] theorem Dev.onSig_sig (d : Dev) (f : Sig → Sig) : (d.onSig f).sig = f d.sig := rfl
@[simp] theorem Dev.onSig_disp (d : Dev) (f : Sig → Sig) : (d.onSig f).disp = d.disp := rfl
@[simp] theorem Dev.onSig_skim (d : Dev) (f : Sig → Sig) : (d.onSig f).skim = d.skim := rfl
@[simp] theorem Dev.onSig_pwm (d : Dev) (f : Sig → Sig) : (d.onSig f).pwm = d.pwm := rfl
@[simp] theorem Dev.onSig_bus (d : Dev) (f : Sig → Sig) : (d.onSig f).bus = d.bus := rfl
@[simp] theorem Dev.onSig_pair (d : Dev) (f : Sig → Sig) : (d.onSig f).pair = d.pair := rfl
@[simp] theorem Dev.onSig_safety (d : Dev) (f : Sig → Sig) : (d.onSig f).safety = d.safety := rfl
@[simp] theorem Dev.onSig_faults (d : Dev) (f : Sig → Sig) : (d.onSig f).faults = d.faults := rfl
@[simp] theorem Dev.onSig_waiting (d : Dev) (f : Sig → Sig) : (d.onSig f).waiting = d.waiting := rfl
@[simp] theorem Dev.onSig_fresh (d : Dev) (f : Sig → Sig) : (d.onSig f).fresh = d.fresh := rfl

/-! ### onDisp -/

@[simp] theorem Dev.onDisp_time (d : Dev) (f : Disp → Disp) : (d.onDisp f).time = d.time := rfl
@[simp] theorem Dev.onDisp_power (d : Dev) (f : Disp → Disp) : (d.onDisp f).power = d.power := rfl
@[simp] theorem Dev.onDisp_fuses (d : Dev) (f : Disp → Disp) : (d.onDisp f).fuses = d.fuses := rfl
@[simp] theorem Dev.onDisp_boot (d : Dev) (f : Disp → Disp) : (d.onDisp f).boot = d.boot := rfl
@[simp] theorem Dev.onDisp_host (d : Dev) (f : Disp → Disp) : (d.onDisp f).host = d.host := rfl
@[simp] theorem Dev.onDisp_arms (d : Dev) (f : Disp → Disp) : (d.onDisp f).arms = d.arms := rfl
@[simp] theorem Dev.onDisp_joints (d : Dev) (f : Disp → Disp) : (d.onDisp f).joints = d.joints := rfl
@[simp] theorem Dev.onDisp_mults (d : Dev) (f : Disp → Disp) : (d.onDisp f).mults = d.mults := rfl
@[simp] theorem Dev.onDisp_chops (d : Dev) (f : Disp → Disp) : (d.onDisp f).chops = d.chops := rfl
@[simp] theorem Dev.onDisp_loop (d : Dev) (f : Disp → Disp) : (d.onDisp f).loop = d.loop := rfl
@[simp] theorem Dev.onDisp_tuning (d : Dev) (f : Disp → Disp) : (d.onDisp f).tuning = d.tuning := rfl
@[simp] theorem Dev.onDisp_solver (d : Dev) (f : Disp → Disp) : (d.onDisp f).solver = d.solver := rfl
@[simp] theorem Dev.onDisp_kin (d : Dev) (f : Disp → Disp) : (d.onDisp f).kin = d.kin := rfl
@[simp] theorem Dev.onDisp_sep (d : Dev) (f : Disp → Disp) : (d.onDisp f).sep = d.sep := rfl
@[simp] theorem Dev.onDisp_deck (d : Dev) (f : Disp → Disp) : (d.onDisp f).deck = d.deck := rfl
@[simp] theorem Dev.onDisp_sig (d : Dev) (f : Disp → Disp) : (d.onDisp f).sig = d.sig := rfl
@[simp] theorem Dev.onDisp_disp (d : Dev) (f : Disp → Disp) : (d.onDisp f).disp = f d.disp := rfl
@[simp] theorem Dev.onDisp_skim (d : Dev) (f : Disp → Disp) : (d.onDisp f).skim = d.skim := rfl
@[simp] theorem Dev.onDisp_pwm (d : Dev) (f : Disp → Disp) : (d.onDisp f).pwm = d.pwm := rfl
@[simp] theorem Dev.onDisp_bus (d : Dev) (f : Disp → Disp) : (d.onDisp f).bus = d.bus := rfl
@[simp] theorem Dev.onDisp_pair (d : Dev) (f : Disp → Disp) : (d.onDisp f).pair = d.pair := rfl
@[simp] theorem Dev.onDisp_safety (d : Dev) (f : Disp → Disp) : (d.onDisp f).safety = d.safety := rfl
@[simp] theorem Dev.onDisp_faults (d : Dev) (f : Disp → Disp) : (d.onDisp f).faults = d.faults := rfl
@[simp] theorem Dev.onDisp_waiting (d : Dev) (f : Disp → Disp) : (d.onDisp f).waiting = d.waiting := rfl
@[simp] theorem Dev.onDisp_fresh (d : Dev) (f : Disp → Disp) : (d.onDisp f).fresh = d.fresh := rfl

/-! ### onSkim -/

@[simp] theorem Dev.onSkim_time (d : Dev) (f : Skim → Skim) : (d.onSkim f).time = d.time := rfl
@[simp] theorem Dev.onSkim_power (d : Dev) (f : Skim → Skim) : (d.onSkim f).power = d.power := rfl
@[simp] theorem Dev.onSkim_fuses (d : Dev) (f : Skim → Skim) : (d.onSkim f).fuses = d.fuses := rfl
@[simp] theorem Dev.onSkim_boot (d : Dev) (f : Skim → Skim) : (d.onSkim f).boot = d.boot := rfl
@[simp] theorem Dev.onSkim_host (d : Dev) (f : Skim → Skim) : (d.onSkim f).host = d.host := rfl
@[simp] theorem Dev.onSkim_arms (d : Dev) (f : Skim → Skim) : (d.onSkim f).arms = d.arms := rfl
@[simp] theorem Dev.onSkim_joints (d : Dev) (f : Skim → Skim) : (d.onSkim f).joints = d.joints := rfl
@[simp] theorem Dev.onSkim_mults (d : Dev) (f : Skim → Skim) : (d.onSkim f).mults = d.mults := rfl
@[simp] theorem Dev.onSkim_chops (d : Dev) (f : Skim → Skim) : (d.onSkim f).chops = d.chops := rfl
@[simp] theorem Dev.onSkim_loop (d : Dev) (f : Skim → Skim) : (d.onSkim f).loop = d.loop := rfl
@[simp] theorem Dev.onSkim_tuning (d : Dev) (f : Skim → Skim) : (d.onSkim f).tuning = d.tuning := rfl
@[simp] theorem Dev.onSkim_solver (d : Dev) (f : Skim → Skim) : (d.onSkim f).solver = d.solver := rfl
@[simp] theorem Dev.onSkim_kin (d : Dev) (f : Skim → Skim) : (d.onSkim f).kin = d.kin := rfl
@[simp] theorem Dev.onSkim_sep (d : Dev) (f : Skim → Skim) : (d.onSkim f).sep = d.sep := rfl
@[simp] theorem Dev.onSkim_deck (d : Dev) (f : Skim → Skim) : (d.onSkim f).deck = d.deck := rfl
@[simp] theorem Dev.onSkim_sig (d : Dev) (f : Skim → Skim) : (d.onSkim f).sig = d.sig := rfl
@[simp] theorem Dev.onSkim_disp (d : Dev) (f : Skim → Skim) : (d.onSkim f).disp = d.disp := rfl
@[simp] theorem Dev.onSkim_skim (d : Dev) (f : Skim → Skim) : (d.onSkim f).skim = f d.skim := rfl
@[simp] theorem Dev.onSkim_pwm (d : Dev) (f : Skim → Skim) : (d.onSkim f).pwm = d.pwm := rfl
@[simp] theorem Dev.onSkim_bus (d : Dev) (f : Skim → Skim) : (d.onSkim f).bus = d.bus := rfl
@[simp] theorem Dev.onSkim_pair (d : Dev) (f : Skim → Skim) : (d.onSkim f).pair = d.pair := rfl
@[simp] theorem Dev.onSkim_safety (d : Dev) (f : Skim → Skim) : (d.onSkim f).safety = d.safety := rfl
@[simp] theorem Dev.onSkim_faults (d : Dev) (f : Skim → Skim) : (d.onSkim f).faults = d.faults := rfl
@[simp] theorem Dev.onSkim_waiting (d : Dev) (f : Skim → Skim) : (d.onSkim f).waiting = d.waiting := rfl
@[simp] theorem Dev.onSkim_fresh (d : Dev) (f : Skim → Skim) : (d.onSkim f).fresh = d.fresh := rfl

/-! ### onPwm -/

@[simp] theorem Dev.onPwm_time (d : Dev) (f : Pwm → Pwm) : (d.onPwm f).time = d.time := rfl
@[simp] theorem Dev.onPwm_power (d : Dev) (f : Pwm → Pwm) : (d.onPwm f).power = d.power := rfl
@[simp] theorem Dev.onPwm_fuses (d : Dev) (f : Pwm → Pwm) : (d.onPwm f).fuses = d.fuses := rfl
@[simp] theorem Dev.onPwm_boot (d : Dev) (f : Pwm → Pwm) : (d.onPwm f).boot = d.boot := rfl
@[simp] theorem Dev.onPwm_host (d : Dev) (f : Pwm → Pwm) : (d.onPwm f).host = d.host := rfl
@[simp] theorem Dev.onPwm_arms (d : Dev) (f : Pwm → Pwm) : (d.onPwm f).arms = d.arms := rfl
@[simp] theorem Dev.onPwm_joints (d : Dev) (f : Pwm → Pwm) : (d.onPwm f).joints = d.joints := rfl
@[simp] theorem Dev.onPwm_mults (d : Dev) (f : Pwm → Pwm) : (d.onPwm f).mults = d.mults := rfl
@[simp] theorem Dev.onPwm_chops (d : Dev) (f : Pwm → Pwm) : (d.onPwm f).chops = d.chops := rfl
@[simp] theorem Dev.onPwm_loop (d : Dev) (f : Pwm → Pwm) : (d.onPwm f).loop = d.loop := rfl
@[simp] theorem Dev.onPwm_tuning (d : Dev) (f : Pwm → Pwm) : (d.onPwm f).tuning = d.tuning := rfl
@[simp] theorem Dev.onPwm_solver (d : Dev) (f : Pwm → Pwm) : (d.onPwm f).solver = d.solver := rfl
@[simp] theorem Dev.onPwm_kin (d : Dev) (f : Pwm → Pwm) : (d.onPwm f).kin = d.kin := rfl
@[simp] theorem Dev.onPwm_sep (d : Dev) (f : Pwm → Pwm) : (d.onPwm f).sep = d.sep := rfl
@[simp] theorem Dev.onPwm_deck (d : Dev) (f : Pwm → Pwm) : (d.onPwm f).deck = d.deck := rfl
@[simp] theorem Dev.onPwm_sig (d : Dev) (f : Pwm → Pwm) : (d.onPwm f).sig = d.sig := rfl
@[simp] theorem Dev.onPwm_disp (d : Dev) (f : Pwm → Pwm) : (d.onPwm f).disp = d.disp := rfl
@[simp] theorem Dev.onPwm_skim (d : Dev) (f : Pwm → Pwm) : (d.onPwm f).skim = d.skim := rfl
@[simp] theorem Dev.onPwm_pwm (d : Dev) (f : Pwm → Pwm) : (d.onPwm f).pwm = f d.pwm := rfl
@[simp] theorem Dev.onPwm_bus (d : Dev) (f : Pwm → Pwm) : (d.onPwm f).bus = d.bus := rfl
@[simp] theorem Dev.onPwm_pair (d : Dev) (f : Pwm → Pwm) : (d.onPwm f).pair = d.pair := rfl
@[simp] theorem Dev.onPwm_safety (d : Dev) (f : Pwm → Pwm) : (d.onPwm f).safety = d.safety := rfl
@[simp] theorem Dev.onPwm_faults (d : Dev) (f : Pwm → Pwm) : (d.onPwm f).faults = d.faults := rfl
@[simp] theorem Dev.onPwm_waiting (d : Dev) (f : Pwm → Pwm) : (d.onPwm f).waiting = d.waiting := rfl
@[simp] theorem Dev.onPwm_fresh (d : Dev) (f : Pwm → Pwm) : (d.onPwm f).fresh = d.fresh := rfl

/-! ### onBus -/

@[simp] theorem Dev.onBus_time (d : Dev) (f : Bus → Bus) : (d.onBus f).time = d.time := rfl
@[simp] theorem Dev.onBus_power (d : Dev) (f : Bus → Bus) : (d.onBus f).power = d.power := rfl
@[simp] theorem Dev.onBus_fuses (d : Dev) (f : Bus → Bus) : (d.onBus f).fuses = d.fuses := rfl
@[simp] theorem Dev.onBus_boot (d : Dev) (f : Bus → Bus) : (d.onBus f).boot = d.boot := rfl
@[simp] theorem Dev.onBus_host (d : Dev) (f : Bus → Bus) : (d.onBus f).host = d.host := rfl
@[simp] theorem Dev.onBus_arms (d : Dev) (f : Bus → Bus) : (d.onBus f).arms = d.arms := rfl
@[simp] theorem Dev.onBus_joints (d : Dev) (f : Bus → Bus) : (d.onBus f).joints = d.joints := rfl
@[simp] theorem Dev.onBus_mults (d : Dev) (f : Bus → Bus) : (d.onBus f).mults = d.mults := rfl
@[simp] theorem Dev.onBus_chops (d : Dev) (f : Bus → Bus) : (d.onBus f).chops = d.chops := rfl
@[simp] theorem Dev.onBus_loop (d : Dev) (f : Bus → Bus) : (d.onBus f).loop = d.loop := rfl
@[simp] theorem Dev.onBus_tuning (d : Dev) (f : Bus → Bus) : (d.onBus f).tuning = d.tuning := rfl
@[simp] theorem Dev.onBus_solver (d : Dev) (f : Bus → Bus) : (d.onBus f).solver = d.solver := rfl
@[simp] theorem Dev.onBus_kin (d : Dev) (f : Bus → Bus) : (d.onBus f).kin = d.kin := rfl
@[simp] theorem Dev.onBus_sep (d : Dev) (f : Bus → Bus) : (d.onBus f).sep = d.sep := rfl
@[simp] theorem Dev.onBus_deck (d : Dev) (f : Bus → Bus) : (d.onBus f).deck = d.deck := rfl
@[simp] theorem Dev.onBus_sig (d : Dev) (f : Bus → Bus) : (d.onBus f).sig = d.sig := rfl
@[simp] theorem Dev.onBus_disp (d : Dev) (f : Bus → Bus) : (d.onBus f).disp = d.disp := rfl
@[simp] theorem Dev.onBus_skim (d : Dev) (f : Bus → Bus) : (d.onBus f).skim = d.skim := rfl
@[simp] theorem Dev.onBus_pwm (d : Dev) (f : Bus → Bus) : (d.onBus f).pwm = d.pwm := rfl
@[simp] theorem Dev.onBus_bus (d : Dev) (f : Bus → Bus) : (d.onBus f).bus = f d.bus := rfl
@[simp] theorem Dev.onBus_pair (d : Dev) (f : Bus → Bus) : (d.onBus f).pair = d.pair := rfl
@[simp] theorem Dev.onBus_safety (d : Dev) (f : Bus → Bus) : (d.onBus f).safety = d.safety := rfl
@[simp] theorem Dev.onBus_faults (d : Dev) (f : Bus → Bus) : (d.onBus f).faults = d.faults := rfl
@[simp] theorem Dev.onBus_waiting (d : Dev) (f : Bus → Bus) : (d.onBus f).waiting = d.waiting := rfl
@[simp] theorem Dev.onBus_fresh (d : Dev) (f : Bus → Bus) : (d.onBus f).fresh = d.fresh := rfl

/-! ### onPair -/

@[simp] theorem Dev.onPair_time (d : Dev) (f : Pair → Pair) : (d.onPair f).time = d.time := rfl
@[simp] theorem Dev.onPair_power (d : Dev) (f : Pair → Pair) : (d.onPair f).power = d.power := rfl
@[simp] theorem Dev.onPair_fuses (d : Dev) (f : Pair → Pair) : (d.onPair f).fuses = d.fuses := rfl
@[simp] theorem Dev.onPair_boot (d : Dev) (f : Pair → Pair) : (d.onPair f).boot = d.boot := rfl
@[simp] theorem Dev.onPair_host (d : Dev) (f : Pair → Pair) : (d.onPair f).host = d.host := rfl
@[simp] theorem Dev.onPair_arms (d : Dev) (f : Pair → Pair) : (d.onPair f).arms = d.arms := rfl
@[simp] theorem Dev.onPair_joints (d : Dev) (f : Pair → Pair) : (d.onPair f).joints = d.joints := rfl
@[simp] theorem Dev.onPair_mults (d : Dev) (f : Pair → Pair) : (d.onPair f).mults = d.mults := rfl
@[simp] theorem Dev.onPair_chops (d : Dev) (f : Pair → Pair) : (d.onPair f).chops = d.chops := rfl
@[simp] theorem Dev.onPair_loop (d : Dev) (f : Pair → Pair) : (d.onPair f).loop = d.loop := rfl
@[simp] theorem Dev.onPair_tuning (d : Dev) (f : Pair → Pair) : (d.onPair f).tuning = d.tuning := rfl
@[simp] theorem Dev.onPair_solver (d : Dev) (f : Pair → Pair) : (d.onPair f).solver = d.solver := rfl
@[simp] theorem Dev.onPair_kin (d : Dev) (f : Pair → Pair) : (d.onPair f).kin = d.kin := rfl
@[simp] theorem Dev.onPair_sep (d : Dev) (f : Pair → Pair) : (d.onPair f).sep = d.sep := rfl
@[simp] theorem Dev.onPair_deck (d : Dev) (f : Pair → Pair) : (d.onPair f).deck = d.deck := rfl
@[simp] theorem Dev.onPair_sig (d : Dev) (f : Pair → Pair) : (d.onPair f).sig = d.sig := rfl
@[simp] theorem Dev.onPair_disp (d : Dev) (f : Pair → Pair) : (d.onPair f).disp = d.disp := rfl
@[simp] theorem Dev.onPair_skim (d : Dev) (f : Pair → Pair) : (d.onPair f).skim = d.skim := rfl
@[simp] theorem Dev.onPair_pwm (d : Dev) (f : Pair → Pair) : (d.onPair f).pwm = d.pwm := rfl
@[simp] theorem Dev.onPair_bus (d : Dev) (f : Pair → Pair) : (d.onPair f).bus = d.bus := rfl
@[simp] theorem Dev.onPair_pair (d : Dev) (f : Pair → Pair) : (d.onPair f).pair = f d.pair := rfl
@[simp] theorem Dev.onPair_safety (d : Dev) (f : Pair → Pair) : (d.onPair f).safety = d.safety := rfl
@[simp] theorem Dev.onPair_faults (d : Dev) (f : Pair → Pair) : (d.onPair f).faults = d.faults := rfl
@[simp] theorem Dev.onPair_waiting (d : Dev) (f : Pair → Pair) : (d.onPair f).waiting = d.waiting := rfl
@[simp] theorem Dev.onPair_fresh (d : Dev) (f : Pair → Pair) : (d.onPair f).fresh = d.fresh := rfl

/-! ### onSafety -/

@[simp] theorem Dev.onSafety_time (d : Dev) (f : Safety → Safety) : (d.onSafety f).time = d.time := rfl
@[simp] theorem Dev.onSafety_power (d : Dev) (f : Safety → Safety) : (d.onSafety f).power = d.power := rfl
@[simp] theorem Dev.onSafety_fuses (d : Dev) (f : Safety → Safety) : (d.onSafety f).fuses = d.fuses := rfl
@[simp] theorem Dev.onSafety_boot (d : Dev) (f : Safety → Safety) : (d.onSafety f).boot = d.boot := rfl
@[simp] theorem Dev.onSafety_host (d : Dev) (f : Safety → Safety) : (d.onSafety f).host = d.host := rfl
@[simp] theorem Dev.onSafety_arms (d : Dev) (f : Safety → Safety) : (d.onSafety f).arms = d.arms := rfl
@[simp] theorem Dev.onSafety_joints (d : Dev) (f : Safety → Safety) : (d.onSafety f).joints = d.joints := rfl
@[simp] theorem Dev.onSafety_mults (d : Dev) (f : Safety → Safety) : (d.onSafety f).mults = d.mults := rfl
@[simp] theorem Dev.onSafety_chops (d : Dev) (f : Safety → Safety) : (d.onSafety f).chops = d.chops := rfl
@[simp] theorem Dev.onSafety_loop (d : Dev) (f : Safety → Safety) : (d.onSafety f).loop = d.loop := rfl
@[simp] theorem Dev.onSafety_tuning (d : Dev) (f : Safety → Safety) : (d.onSafety f).tuning = d.tuning := rfl
@[simp] theorem Dev.onSafety_solver (d : Dev) (f : Safety → Safety) : (d.onSafety f).solver = d.solver := rfl
@[simp] theorem Dev.onSafety_kin (d : Dev) (f : Safety → Safety) : (d.onSafety f).kin = d.kin := rfl
@[simp] theorem Dev.onSafety_sep (d : Dev) (f : Safety → Safety) : (d.onSafety f).sep = d.sep := rfl
@[simp] theorem Dev.onSafety_deck (d : Dev) (f : Safety → Safety) : (d.onSafety f).deck = d.deck := rfl
@[simp] theorem Dev.onSafety_sig (d : Dev) (f : Safety → Safety) : (d.onSafety f).sig = d.sig := rfl
@[simp] theorem Dev.onSafety_disp (d : Dev) (f : Safety → Safety) : (d.onSafety f).disp = d.disp := rfl
@[simp] theorem Dev.onSafety_skim (d : Dev) (f : Safety → Safety) : (d.onSafety f).skim = d.skim := rfl
@[simp] theorem Dev.onSafety_pwm (d : Dev) (f : Safety → Safety) : (d.onSafety f).pwm = d.pwm := rfl
@[simp] theorem Dev.onSafety_bus (d : Dev) (f : Safety → Safety) : (d.onSafety f).bus = d.bus := rfl
@[simp] theorem Dev.onSafety_pair (d : Dev) (f : Safety → Safety) : (d.onSafety f).pair = d.pair := rfl
@[simp] theorem Dev.onSafety_safety (d : Dev) (f : Safety → Safety) : (d.onSafety f).safety = f d.safety := rfl
@[simp] theorem Dev.onSafety_faults (d : Dev) (f : Safety → Safety) : (d.onSafety f).faults = d.faults := rfl
@[simp] theorem Dev.onSafety_waiting (d : Dev) (f : Safety → Safety) : (d.onSafety f).waiting = d.waiting := rfl
@[simp] theorem Dev.onSafety_fresh (d : Dev) (f : Safety → Safety) : (d.onSafety f).fresh = d.fresh := rfl

/-! ### onFaults -/

@[simp] theorem Dev.onFaults_time (d : Dev) (f : Faults → Faults) : (d.onFaults f).time = d.time := rfl
@[simp] theorem Dev.onFaults_power (d : Dev) (f : Faults → Faults) : (d.onFaults f).power = d.power := rfl
@[simp] theorem Dev.onFaults_fuses (d : Dev) (f : Faults → Faults) : (d.onFaults f).fuses = d.fuses := rfl
@[simp] theorem Dev.onFaults_boot (d : Dev) (f : Faults → Faults) : (d.onFaults f).boot = d.boot := rfl
@[simp] theorem Dev.onFaults_host (d : Dev) (f : Faults → Faults) : (d.onFaults f).host = d.host := rfl
@[simp] theorem Dev.onFaults_arms (d : Dev) (f : Faults → Faults) : (d.onFaults f).arms = d.arms := rfl
@[simp] theorem Dev.onFaults_joints (d : Dev) (f : Faults → Faults) : (d.onFaults f).joints = d.joints := rfl
@[simp] theorem Dev.onFaults_mults (d : Dev) (f : Faults → Faults) : (d.onFaults f).mults = d.mults := rfl
@[simp] theorem Dev.onFaults_chops (d : Dev) (f : Faults → Faults) : (d.onFaults f).chops = d.chops := rfl
@[simp] theorem Dev.onFaults_loop (d : Dev) (f : Faults → Faults) : (d.onFaults f).loop = d.loop := rfl
@[simp] theorem Dev.onFaults_tuning (d : Dev) (f : Faults → Faults) : (d.onFaults f).tuning = d.tuning := rfl
@[simp] theorem Dev.onFaults_solver (d : Dev) (f : Faults → Faults) : (d.onFaults f).solver = d.solver := rfl
@[simp] theorem Dev.onFaults_kin (d : Dev) (f : Faults → Faults) : (d.onFaults f).kin = d.kin := rfl
@[simp] theorem Dev.onFaults_sep (d : Dev) (f : Faults → Faults) : (d.onFaults f).sep = d.sep := rfl
@[simp] theorem Dev.onFaults_deck (d : Dev) (f : Faults → Faults) : (d.onFaults f).deck = d.deck := rfl
@[simp] theorem Dev.onFaults_sig (d : Dev) (f : Faults → Faults) : (d.onFaults f).sig = d.sig := rfl
@[simp] theorem Dev.onFaults_disp (d : Dev) (f : Faults → Faults) : (d.onFaults f).disp = d.disp := rfl
@[simp] theorem Dev.onFaults_skim (d : Dev) (f : Faults → Faults) : (d.onFaults f).skim = d.skim := rfl
@[simp] theorem Dev.onFaults_pwm (d : Dev) (f : Faults → Faults) : (d.onFaults f).pwm = d.pwm := rfl
@[simp] theorem Dev.onFaults_bus (d : Dev) (f : Faults → Faults) : (d.onFaults f).bus = d.bus := rfl
@[simp] theorem Dev.onFaults_pair (d : Dev) (f : Faults → Faults) : (d.onFaults f).pair = d.pair := rfl
@[simp] theorem Dev.onFaults_safety (d : Dev) (f : Faults → Faults) : (d.onFaults f).safety = d.safety := rfl
@[simp] theorem Dev.onFaults_faults (d : Dev) (f : Faults → Faults) : (d.onFaults f).faults = f d.faults := rfl
@[simp] theorem Dev.onFaults_waiting (d : Dev) (f : Faults → Faults) : (d.onFaults f).waiting = d.waiting := rfl
@[simp] theorem Dev.onFaults_fresh (d : Dev) (f : Faults → Faults) : (d.onFaults f).fresh = d.fresh := rfl

/-! ### onArm -/

@[simp] theorem Dev.onArm_time (d : Dev) (i : Nat) (f : Arm → Arm) : (d.onArm i f).time = d.time := rfl
@[simp] theorem Dev.onArm_power (d : Dev) (i : Nat) (f : Arm → Arm) : (d.onArm i f).power = d.power := rfl
@[simp] theorem Dev.onArm_fuses (d : Dev) (i : Nat) (f : Arm → Arm) : (d.onArm i f).fuses = d.fuses := rfl
@[simp] theorem Dev.onArm_boot (d : Dev) (i : Nat) (f : Arm → Arm) : (d.onArm i f).boot = d.boot := rfl
@[simp] theorem Dev.onArm_host (d : Dev) (i : Nat) (f : Arm → Arm) : (d.onArm i f).host = d.host := rfl
@[simp] theorem Dev.onArm_arms (d : Dev) (i : Nat) (f : Arm → Arm) : (d.onArm i f).arms = upd d.arms i f := rfl
@[simp] theorem Dev.onArm_joints (d : Dev) (i : Nat) (f : Arm → Arm) : (d.onArm i f).joints = d.joints := rfl
@[simp] theorem Dev.onArm_mults (d : Dev) (i : Nat) (f : Arm → Arm) : (d.onArm i f).mults = d.mults := rfl
@[simp] theorem Dev.onArm_chops (d : Dev) (i : Nat) (f : Arm → Arm) : (d.onArm i f).chops = d.chops := rfl
@[simp] theorem Dev.onArm_loop (d : Dev) (i : Nat) (f : Arm → Arm) : (d.onArm i f).loop = d.loop := rfl
@[simp] theorem Dev.onArm_tuning (d : Dev) (i : Nat) (f : Arm → Arm) : (d.onArm i f).tuning = d.tuning := rfl
@[simp] theorem Dev.onArm_solver (d : Dev) (i : Nat) (f : Arm → Arm) : (d.onArm i f).solver = d.solver := rfl
@[simp] theorem Dev.onArm_kin (d : Dev) (i : Nat) (f : Arm → Arm) : (d.onArm i f).kin = d.kin := rfl
@[simp] theorem Dev.onArm_sep (d : Dev) (i : Nat) (f : Arm → Arm) : (d.onArm i f).sep = d.sep := rfl
@[simp] theorem Dev.onArm_deck (d : Dev) (i : Nat) (f : Arm → Arm) : (d.onArm i f).deck = d.deck := rfl
@[simp] theorem Dev.onArm_sig (d : Dev) (i : Nat) (f : Arm → Arm) : (d.onArm i f).sig = d.sig := rfl
@[simp] theorem Dev.onArm_disp (d : Dev) (i : Nat) (f : Arm → Arm) : (d.onArm i f).disp = d.disp := rfl
@[simp] theorem Dev.onArm_skim (d : Dev) (i : Nat) (f : Arm → Arm) : (d.onArm i f).skim = d.skim := rfl
@[simp] theorem Dev.onArm_pwm (d : Dev) (i : Nat) (f : Arm → Arm) : (d.onArm i f).pwm = d.pwm := rfl
@[simp] theorem Dev.onArm_bus (d : Dev) (i : Nat) (f : Arm → Arm) : (d.onArm i f).bus = d.bus := rfl
@[simp] theorem Dev.onArm_pair (d : Dev) (i : Nat) (f : Arm → Arm) : (d.onArm i f).pair = d.pair := rfl
@[simp] theorem Dev.onArm_safety (d : Dev) (i : Nat) (f : Arm → Arm) : (d.onArm i f).safety = d.safety := rfl
@[simp] theorem Dev.onArm_faults (d : Dev) (i : Nat) (f : Arm → Arm) : (d.onArm i f).faults = d.faults := rfl
@[simp] theorem Dev.onArm_waiting (d : Dev) (i : Nat) (f : Arm → Arm) : (d.onArm i f).waiting = d.waiting := rfl
@[simp] theorem Dev.onArm_fresh (d : Dev) (i : Nat) (f : Arm → Arm) : (d.onArm i f).fresh = d.fresh := rfl

/-! ### onJoint -/

@[simp] theorem Dev.onJoint_time (d : Dev) (i : Nat) (f : Joint → Joint) : (d.onJoint i f).time = d.time := rfl
@[simp] theorem Dev.onJoint_power (d : Dev) (i : Nat) (f : Joint → Joint) : (d.onJoint i f).power = d.power := rfl
@[simp] theorem Dev.onJoint_fuses (d : Dev) (i : Nat) (f : Joint → Joint) : (d.onJoint i f).fuses = d.fuses := rfl
@[simp] theorem Dev.onJoint_boot (d : Dev) (i : Nat) (f : Joint → Joint) : (d.onJoint i f).boot = d.boot := rfl
@[simp] theorem Dev.onJoint_host (d : Dev) (i : Nat) (f : Joint → Joint) : (d.onJoint i f).host = d.host := rfl
@[simp] theorem Dev.onJoint_arms (d : Dev) (i : Nat) (f : Joint → Joint) : (d.onJoint i f).arms = d.arms := rfl
@[simp] theorem Dev.onJoint_joints (d : Dev) (i : Nat) (f : Joint → Joint) : (d.onJoint i f).joints = upd d.joints i f := rfl
@[simp] theorem Dev.onJoint_mults (d : Dev) (i : Nat) (f : Joint → Joint) : (d.onJoint i f).mults = d.mults := rfl
@[simp] theorem Dev.onJoint_chops (d : Dev) (i : Nat) (f : Joint → Joint) : (d.onJoint i f).chops = d.chops := rfl
@[simp] theorem Dev.onJoint_loop (d : Dev) (i : Nat) (f : Joint → Joint) : (d.onJoint i f).loop = d.loop := rfl
@[simp] theorem Dev.onJoint_tuning (d : Dev) (i : Nat) (f : Joint → Joint) : (d.onJoint i f).tuning = d.tuning := rfl
@[simp] theorem Dev.onJoint_solver (d : Dev) (i : Nat) (f : Joint → Joint) : (d.onJoint i f).solver = d.solver := rfl
@[simp] theorem Dev.onJoint_kin (d : Dev) (i : Nat) (f : Joint → Joint) : (d.onJoint i f).kin = d.kin := rfl
@[simp] theorem Dev.onJoint_sep (d : Dev) (i : Nat) (f : Joint → Joint) : (d.onJoint i f).sep = d.sep := rfl
@[simp] theorem Dev.onJoint_deck (d : Dev) (i : Nat) (f : Joint → Joint) : (d.onJoint i f).deck = d.deck := rfl
@[simp] theorem Dev.onJoint_sig (d : Dev) (i : Nat) (f : Joint → Joint) : (d.onJoint i f).sig = d.sig := rfl
@[simp] theorem Dev.onJoint_disp (d : Dev) (i : Nat) (f : Joint → Joint) : (d.onJoint i f).disp = d.disp := rfl
@[simp] theorem Dev.onJoint_skim (d : Dev) (i : Nat) (f : Joint → Joint) : (d.onJoint i f).skim = d.skim := rfl
@[simp] theorem Dev.onJoint_pwm (d : Dev) (i : Nat) (f : Joint → Joint) : (d.onJoint i f).pwm = d.pwm := rfl
@[simp] theorem Dev.onJoint_bus (d : Dev) (i : Nat) (f : Joint → Joint) : (d.onJoint i f).bus = d.bus := rfl
@[simp] theorem Dev.onJoint_pair (d : Dev) (i : Nat) (f : Joint → Joint) : (d.onJoint i f).pair = d.pair := rfl
@[simp] theorem Dev.onJoint_safety (d : Dev) (i : Nat) (f : Joint → Joint) : (d.onJoint i f).safety = d.safety := rfl
@[simp] theorem Dev.onJoint_faults (d : Dev) (i : Nat) (f : Joint → Joint) : (d.onJoint i f).faults = d.faults := rfl
@[simp] theorem Dev.onJoint_waiting (d : Dev) (i : Nat) (f : Joint → Joint) : (d.onJoint i f).waiting = d.waiting := rfl
@[simp] theorem Dev.onJoint_fresh (d : Dev) (i : Nat) (f : Joint → Joint) : (d.onJoint i f).fresh = d.fresh := rfl

/-! ### onMult -/

@[simp] theorem Dev.onMult_time (d : Dev) (i : Nat) (f : Mult → Mult) : (d.onMult i f).time = d.time := rfl
@[simp] theorem Dev.onMult_power (d : Dev) (i : Nat) (f : Mult → Mult) : (d.onMult i f).power = d.power := rfl
@[simp] theorem Dev.onMult_fuses (d : Dev) (i : Nat) (f : Mult → Mult) : (d.onMult i f).fuses = d.fuses := rfl
@[simp] theorem Dev.onMult_boot (d : Dev) (i : Nat) (f : Mult → Mult) : (d.onMult i f).boot = d.boot := rfl
@[simp] theorem Dev.onMult_host (d : Dev) (i : Nat) (f : Mult → Mult) : (d.onMult i f).host = d.host := rfl
@[simp] theorem Dev.onMult_arms (d : Dev) (i : Nat) (f : Mult → Mult) : (d.onMult i f).arms = d.arms := rfl
@[simp] theorem Dev.onMult_joints (d : Dev) (i : Nat) (f : Mult → Mult) : (d.onMult i f).joints = d.joints := rfl
@[simp] theorem Dev.onMult_mults (d : Dev) (i : Nat) (f : Mult → Mult) : (d.onMult i f).mults = upd d.mults i f := rfl
@[simp] theorem Dev.onMult_chops (d : Dev) (i : Nat) (f : Mult → Mult) : (d.onMult i f).chops = d.chops := rfl
@[simp] theorem Dev.onMult_loop (d : Dev) (i : Nat) (f : Mult → Mult) : (d.onMult i f).loop = d.loop := rfl
@[simp] theorem Dev.onMult_tuning (d : Dev) (i : Nat) (f : Mult → Mult) : (d.onMult i f).tuning = d.tuning := rfl
@[simp] theorem Dev.onMult_solver (d : Dev) (i : Nat) (f : Mult → Mult) : (d.onMult i f).solver = d.solver := rfl
@[simp] theorem Dev.onMult_kin (d : Dev) (i : Nat) (f : Mult → Mult) : (d.onMult i f).kin = d.kin := rfl
@[simp] theorem Dev.onMult_sep (d : Dev) (i : Nat) (f : Mult → Mult) : (d.onMult i f).sep = d.sep := rfl
@[simp] theorem Dev.onMult_deck (d : Dev) (i : Nat) (f : Mult → Mult) : (d.onMult i f).deck = d.deck := rfl
@[simp] theorem Dev.onMult_sig (d : Dev) (i : Nat) (f : Mult → Mult) : (d.onMult i f).sig = d.sig := rfl
@[simp] theorem Dev.onMult_disp (d : Dev) (i : Nat) (f : Mult → Mult) : (d.onMult i f).disp = d.disp := rfl
@[simp] theorem Dev.onMult_skim (d : Dev) (i : Nat) (f : Mult → Mult) : (d.onMult i f).skim = d.skim := rfl
@[simp] theorem Dev.onMult_pwm (d : Dev) (i : Nat) (f : Mult → Mult) : (d.onMult i f).pwm = d.pwm := rfl
@[simp] theorem Dev.onMult_bus (d : Dev) (i : Nat) (f : Mult → Mult) : (d.onMult i f).bus = d.bus := rfl
@[simp] theorem Dev.onMult_pair (d : Dev) (i : Nat) (f : Mult → Mult) : (d.onMult i f).pair = d.pair := rfl
@[simp] theorem Dev.onMult_safety (d : Dev) (i : Nat) (f : Mult → Mult) : (d.onMult i f).safety = d.safety := rfl
@[simp] theorem Dev.onMult_faults (d : Dev) (i : Nat) (f : Mult → Mult) : (d.onMult i f).faults = d.faults := rfl
@[simp] theorem Dev.onMult_waiting (d : Dev) (i : Nat) (f : Mult → Mult) : (d.onMult i f).waiting = d.waiting := rfl
@[simp] theorem Dev.onMult_fresh (d : Dev) (i : Nat) (f : Mult → Mult) : (d.onMult i f).fresh = d.fresh := rfl

/-! ### onChop -/

@[simp] theorem Dev.onChop_time (d : Dev) (i : Nat) (f : Chopper → Chopper) : (d.onChop i f).time = d.time := rfl
@[simp] theorem Dev.onChop_power (d : Dev) (i : Nat) (f : Chopper → Chopper) : (d.onChop i f).power = d.power := rfl
@[simp] theorem Dev.onChop_fuses (d : Dev) (i : Nat) (f : Chopper → Chopper) : (d.onChop i f).fuses = d.fuses := rfl
@[simp] theorem Dev.onChop_boot (d : Dev) (i : Nat) (f : Chopper → Chopper) : (d.onChop i f).boot = d.boot := rfl
@[simp] theorem Dev.onChop_host (d : Dev) (i : Nat) (f : Chopper → Chopper) : (d.onChop i f).host = d.host := rfl
@[simp] theorem Dev.onChop_arms (d : Dev) (i : Nat) (f : Chopper → Chopper) : (d.onChop i f).arms = d.arms := rfl
@[simp] theorem Dev.onChop_joints (d : Dev) (i : Nat) (f : Chopper → Chopper) : (d.onChop i f).joints = d.joints := rfl
@[simp] theorem Dev.onChop_mults (d : Dev) (i : Nat) (f : Chopper → Chopper) : (d.onChop i f).mults = d.mults := rfl
@[simp] theorem Dev.onChop_chops (d : Dev) (i : Nat) (f : Chopper → Chopper) : (d.onChop i f).chops = upd d.chops i f := rfl
@[simp] theorem Dev.onChop_loop (d : Dev) (i : Nat) (f : Chopper → Chopper) : (d.onChop i f).loop = d.loop := rfl
@[simp] theorem Dev.onChop_tuning (d : Dev) (i : Nat) (f : Chopper → Chopper) : (d.onChop i f).tuning = d.tuning := rfl
@[simp] theorem Dev.onChop_solver (d : Dev) (i : Nat) (f : Chopper → Chopper) : (d.onChop i f).solver = d.solver := rfl
@[simp] theorem Dev.onChop_kin (d : Dev) (i : Nat) (f : Chopper → Chopper) : (d.onChop i f).kin = d.kin := rfl
@[simp] theorem Dev.onChop_sep (d : Dev) (i : Nat) (f : Chopper → Chopper) : (d.onChop i f).sep = d.sep := rfl
@[simp] theorem Dev.onChop_deck (d : Dev) (i : Nat) (f : Chopper → Chopper) : (d.onChop i f).deck = d.deck := rfl
@[simp] theorem Dev.onChop_sig (d : Dev) (i : Nat) (f : Chopper → Chopper) : (d.onChop i f).sig = d.sig := rfl
@[simp] theorem Dev.onChop_disp (d : Dev) (i : Nat) (f : Chopper → Chopper) : (d.onChop i f).disp = d.disp := rfl
@[simp] theorem Dev.onChop_skim (d : Dev) (i : Nat) (f : Chopper → Chopper) : (d.onChop i f).skim = d.skim := rfl
@[simp] theorem Dev.onChop_pwm (d : Dev) (i : Nat) (f : Chopper → Chopper) : (d.onChop i f).pwm = d.pwm := rfl
@[simp] theorem Dev.onChop_bus (d : Dev) (i : Nat) (f : Chopper → Chopper) : (d.onChop i f).bus = d.bus := rfl
@[simp] theorem Dev.onChop_pair (d : Dev) (i : Nat) (f : Chopper → Chopper) : (d.onChop i f).pair = d.pair := rfl
@[simp] theorem Dev.onChop_safety (d : Dev) (i : Nat) (f : Chopper → Chopper) : (d.onChop i f).safety = d.safety := rfl
@[simp] theorem Dev.onChop_faults (d : Dev) (i : Nat) (f : Chopper → Chopper) : (d.onChop i f).faults = d.faults := rfl
@[simp] theorem Dev.onChop_waiting (d : Dev) (i : Nat) (f : Chopper → Chopper) : (d.onChop i f).waiting = d.waiting := rfl
@[simp] theorem Dev.onChop_fresh (d : Dev) (i : Nat) (f : Chopper → Chopper) : (d.onChop i f).fresh = d.fresh := rfl

/-! ### onKin -/

@[simp] theorem Dev.onKin_time (d : Dev) (i : Nat) (f : Kin → Kin) : (d.onKin i f).time = d.time := rfl
@[simp] theorem Dev.onKin_power (d : Dev) (i : Nat) (f : Kin → Kin) : (d.onKin i f).power = d.power := rfl
@[simp] theorem Dev.onKin_fuses (d : Dev) (i : Nat) (f : Kin → Kin) : (d.onKin i f).fuses = d.fuses := rfl
@[simp] theorem Dev.onKin_boot (d : Dev) (i : Nat) (f : Kin → Kin) : (d.onKin i f).boot = d.boot := rfl
@[simp] theorem Dev.onKin_host (d : Dev) (i : Nat) (f : Kin → Kin) : (d.onKin i f).host = d.host := rfl
@[simp] theorem Dev.onKin_arms (d : Dev) (i : Nat) (f : Kin → Kin) : (d.onKin i f).arms = d.arms := rfl
@[simp] theorem Dev.onKin_joints (d : Dev) (i : Nat) (f : Kin → Kin) : (d.onKin i f).joints = d.joints := rfl
@[simp] theorem Dev.onKin_mults (d : Dev) (i : Nat) (f : Kin → Kin) : (d.onKin i f).mults = d.mults := rfl
@[simp] theorem Dev.onKin_chops (d : Dev) (i : Nat) (f : Kin → Kin) : (d.onKin i f).chops = d.chops := rfl
@[simp] theorem Dev.onKin_loop (d : Dev) (i : Nat) (f : Kin → Kin) : (d.onKin i f).loop = d.loop := rfl
@[simp] theorem Dev.onKin_tuning (d : Dev) (i : Nat) (f : Kin → Kin) : (d.onKin i f).tuning = d.tuning := rfl
@[simp] theorem Dev.onKin_solver (d : Dev) (i : Nat) (f : Kin → Kin) : (d.onKin i f).solver = d.solver := rfl
@[simp] theorem Dev.onKin_kin (d : Dev) (i : Nat) (f : Kin → Kin) : (d.onKin i f).kin = upd d.kin i f := rfl
@[simp] theorem Dev.onKin_sep (d : Dev) (i : Nat) (f : Kin → Kin) : (d.onKin i f).sep = d.sep := rfl
@[simp] theorem Dev.onKin_deck (d : Dev) (i : Nat) (f : Kin → Kin) : (d.onKin i f).deck = d.deck := rfl
@[simp] theorem Dev.onKin_sig (d : Dev) (i : Nat) (f : Kin → Kin) : (d.onKin i f).sig = d.sig := rfl
@[simp] theorem Dev.onKin_disp (d : Dev) (i : Nat) (f : Kin → Kin) : (d.onKin i f).disp = d.disp := rfl
@[simp] theorem Dev.onKin_skim (d : Dev) (i : Nat) (f : Kin → Kin) : (d.onKin i f).skim = d.skim := rfl
@[simp] theorem Dev.onKin_pwm (d : Dev) (i : Nat) (f : Kin → Kin) : (d.onKin i f).pwm = d.pwm := rfl
@[simp] theorem Dev.onKin_bus (d : Dev) (i : Nat) (f : Kin → Kin) : (d.onKin i f).bus = d.bus := rfl
@[simp] theorem Dev.onKin_pair (d : Dev) (i : Nat) (f : Kin → Kin) : (d.onKin i f).pair = d.pair := rfl
@[simp] theorem Dev.onKin_safety (d : Dev) (i : Nat) (f : Kin → Kin) : (d.onKin i f).safety = d.safety := rfl
@[simp] theorem Dev.onKin_faults (d : Dev) (i : Nat) (f : Kin → Kin) : (d.onKin i f).faults = d.faults := rfl
@[simp] theorem Dev.onKin_waiting (d : Dev) (i : Nat) (f : Kin → Kin) : (d.onKin i f).waiting = d.waiting := rfl
@[simp] theorem Dev.onKin_fresh (d : Dev) (i : Nat) (f : Kin → Kin) : (d.onKin i f).fresh = d.fresh := rfl

@[simp] theorem Dev.advance_time (d : Dev) (t : Nat) : (d.advance t).time = { d.time with ct := max d.time.ct t } := rfl
@[simp] theorem Dev.advance_power (d : Dev) (t : Nat) : (d.advance t).power = d.power := rfl
@[simp] theorem Dev.advance_fuses (d : Dev) (t : Nat) : (d.advance t).fuses = d.fuses := rfl
@[simp] theorem Dev.advance_boot (d : Dev) (t : Nat) : (d.advance t).boot = d.boot := rfl
@[simp] theorem Dev.advance_host (d : Dev) (t : Nat) : (d.advance t).host = d.host := rfl
@[simp] theorem Dev.advance_arms (d : Dev) (t : Nat) : (d.advance t).arms = d.arms := rfl
@[simp] theorem Dev.advance_joints (d : Dev) (t : Nat) : (d.advance t).joints = d.joints := rfl
@[simp] theorem Dev.advance_mults (d : Dev) (t : Nat) : (d.advance t).mults = d.mults := rfl
@[simp] theorem Dev.advance_chops (d : Dev) (t : Nat) : (d.advance t).chops = d.chops := rfl
@[simp] theorem Dev.advance_loop (d : Dev) (t : Nat) : (d.advance t).loop = d.loop := rfl
@[simp] theorem Dev.advance_tuning (d : Dev) (t : Nat) : (d.advance t).tuning = d.tuning := rfl
@[simp] theorem Dev.advance_solver (d : Dev) (t : Nat) : (d.advance t).solver = d.solver := rfl
@[simp] theorem Dev.advance_kin (d : Dev) (t : Nat) : (d.advance t).kin = d.kin := rfl
@[simp] theorem Dev.advance_sep (d : Dev) (t : Nat) : (d.advance t).sep = d.sep := rfl
@[simp] theorem Dev.advance_deck (d : Dev) (t : Nat) : (d.advance t).deck = d.deck := rfl
@[simp] theorem Dev.advance_sig (d : Dev) (t : Nat) : (d.advance t).sig = d.sig := rfl
@[simp] theorem Dev.advance_disp (d : Dev) (t : Nat) : (d.advance t).disp = d.disp := rfl
@[simp] theorem Dev.advance_skim (d : Dev) (t : Nat) : (d.advance t).skim = d.skim := rfl
@[simp] theorem Dev.advance_pwm (d : Dev) (t : Nat) : (d.advance t).pwm = d.pwm := rfl
@[simp] theorem Dev.advance_bus (d : Dev) (t : Nat) : (d.advance t).bus = d.bus := rfl
@[simp] theorem Dev.advance_pair (d : Dev) (t : Nat) : (d.advance t).pair = d.pair := rfl
@[simp] theorem Dev.advance_safety (d : Dev) (t : Nat) : (d.advance t).safety = d.safety := rfl
@[simp] theorem Dev.advance_faults (d : Dev) (t : Nat) : (d.advance t).faults = d.faults := rfl
@[simp] theorem Dev.advance_waiting (d : Dev) (t : Nat) : (d.advance t).waiting = d.waiting := rfl
@[simp] theorem Dev.advance_fresh (d : Dev) (t : Nat) : (d.advance t).fresh = d.fresh := rfl

@[simp] theorem Dev.draw_time (d : Dev) (n : Nat) : (d.draw n).time = d.time := rfl
@[simp] theorem Dev.draw_power (d : Dev) (n : Nat) : (d.draw n).power = d.power := rfl
@[simp] theorem Dev.draw_fuses (d : Dev) (n : Nat) : (d.draw n).fuses = d.fuses := rfl
@[simp] theorem Dev.draw_boot (d : Dev) (n : Nat) : (d.draw n).boot = d.boot := rfl
@[simp] theorem Dev.draw_host (d : Dev) (n : Nat) : (d.draw n).host = d.host := rfl
@[simp] theorem Dev.draw_arms (d : Dev) (n : Nat) : (d.draw n).arms = d.arms := rfl
@[simp] theorem Dev.draw_joints (d : Dev) (n : Nat) : (d.draw n).joints = d.joints := rfl
@[simp] theorem Dev.draw_mults (d : Dev) (n : Nat) : (d.draw n).mults = d.mults := rfl
@[simp] theorem Dev.draw_chops (d : Dev) (n : Nat) : (d.draw n).chops = d.chops := rfl
@[simp] theorem Dev.draw_loop (d : Dev) (n : Nat) : (d.draw n).loop = d.loop := rfl
@[simp] theorem Dev.draw_tuning (d : Dev) (n : Nat) : (d.draw n).tuning = d.tuning := rfl
@[simp] theorem Dev.draw_solver (d : Dev) (n : Nat) : (d.draw n).solver = d.solver := rfl
@[simp] theorem Dev.draw_kin (d : Dev) (n : Nat) : (d.draw n).kin = d.kin := rfl
@[simp] theorem Dev.draw_sep (d : Dev) (n : Nat) : (d.draw n).sep = d.sep := rfl
@[simp] theorem Dev.draw_deck (d : Dev) (n : Nat) : (d.draw n).deck = d.deck := rfl
@[simp] theorem Dev.draw_sig (d : Dev) (n : Nat) : (d.draw n).sig = d.sig := rfl
@[simp] theorem Dev.draw_disp (d : Dev) (n : Nat) : (d.draw n).disp = d.disp := rfl
@[simp] theorem Dev.draw_skim (d : Dev) (n : Nat) : (d.draw n).skim = d.skim := rfl
@[simp] theorem Dev.draw_pwm (d : Dev) (n : Nat) : (d.draw n).pwm = d.pwm := rfl
@[simp] theorem Dev.draw_bus (d : Dev) (n : Nat) : (d.draw n).bus = d.bus := rfl
@[simp] theorem Dev.draw_pair (d : Dev) (n : Nat) : (d.draw n).pair = d.pair := rfl
@[simp] theorem Dev.draw_safety (d : Dev) (n : Nat) : (d.draw n).safety = d.safety := rfl
@[simp] theorem Dev.draw_faults (d : Dev) (n : Nat) : (d.draw n).faults = d.faults := rfl
@[simp] theorem Dev.draw_waiting (d : Dev) (n : Nat) : (d.draw n).waiting = d.waiting := rfl
@[simp] theorem Dev.draw_fresh (d : Dev) (n : Nat) : (d.draw n).fresh = d.fresh + n := rfl

end Sys2Proof.Machine
end

