-- ==== Sys2Proof/Laws/Commands.lean ====
section
/-! SUPPORT. What taking, judging and answering a message can do, once for every command (R100 to R102), and what follows
from the state after every step (R97, R501). -/

namespace Sys2Proof.Machine

/-! ### Taking a message -/

@[simp] theorem Dev.take_power (d : Dev) (h : Hdr) : (d.take h).power = d.power := by cases h with | mk l => cases l <;> rfl

@[simp] theorem Dev.take_fuses (d : Dev) (h : Hdr) : (d.take h).fuses = d.fuses := by cases h with | mk l => cases l <;> rfl

@[simp] theorem Dev.take_boot (d : Dev) (h : Hdr) : (d.take h).boot = d.boot := by cases h with | mk l => cases l <;> rfl

@[simp] theorem Dev.take_safety (d : Dev) (h : Hdr) : (d.take h).safety = d.safety := by cases h with | mk l => cases l <;> rfl

@[simp] theorem Dev.take_arms (d : Dev) (h : Hdr) : (d.take h).arms = d.arms := by cases h with | mk l => cases l <;> rfl

@[simp] theorem Dev.take_joints (d : Dev) (h : Hdr) : (d.take h).joints = d.joints := by cases h with | mk l => cases l <;> rfl

@[simp] theorem Dev.take_mults (d : Dev) (h : Hdr) : (d.take h).mults = d.mults := by cases h with | mk l => cases l <;> rfl

@[simp] theorem Dev.take_chops (d : Dev) (h : Hdr) : (d.take h).chops = d.chops := by cases h with | mk l => cases l <;> rfl

@[simp] theorem Dev.take_loop (d : Dev) (h : Hdr) : (d.take h).loop = d.loop := by cases h with | mk l => cases l <;> rfl

@[simp] theorem Dev.take_tuning (d : Dev) (h : Hdr) : (d.take h).tuning = d.tuning := by cases h with | mk l => cases l <;> rfl

@[simp] theorem Dev.take_solver (d : Dev) (h : Hdr) : (d.take h).solver = d.solver := by cases h with | mk l => cases l <;> rfl

@[simp] theorem Dev.take_kin (d : Dev) (h : Hdr) : (d.take h).kin = d.kin := by cases h with | mk l => cases l <;> rfl

@[simp] theorem Dev.take_sep (d : Dev) (h : Hdr) : (d.take h).sep = d.sep := by cases h with | mk l => cases l <;> rfl

@[simp] theorem Dev.take_deck (d : Dev) (h : Hdr) : (d.take h).deck = d.deck := by cases h with | mk l => cases l <;> rfl

@[simp] theorem Dev.take_sig (d : Dev) (h : Hdr) : (d.take h).sig = d.sig := by cases h with | mk l => cases l <;> rfl

@[simp] theorem Dev.take_disp (d : Dev) (h : Hdr) : (d.take h).disp = d.disp := by cases h with | mk l => cases l <;> rfl

@[simp] theorem Dev.take_skim (d : Dev) (h : Hdr) : (d.take h).skim = d.skim := by cases h with | mk l => cases l <;> rfl

@[simp] theorem Dev.take_pwm (d : Dev) (h : Hdr) : (d.take h).pwm = d.pwm := by cases h with | mk l => cases l <;> rfl

@[simp] theorem Dev.take_bus (d : Dev) (h : Hdr) : (d.take h).bus = d.bus := by cases h with | mk l => cases l <;> rfl

@[simp] theorem Dev.take_pair (d : Dev) (h : Hdr) : (d.take h).pair = d.pair := by cases h with | mk l => cases l <;> rfl

@[simp] theorem Dev.take_faults (d : Dev) (h : Hdr) : (d.take h).faults = d.faults := by cases h with | mk l => cases l <;> rfl

@[simp] theorem Dev.take_waiting (d : Dev) (h : Hdr) : (d.take h).waiting = d.waiting := by cases h with | mk l => cases l <;> rfl

@[simp] theorem Dev.take_fresh (d : Dev) (h : Hdr) : (d.take h).fresh = d.fresh := by cases h with | mk l => cases l <;> rfl

@[simp] theorem Dev.take_time (d : Dev) (h : Hdr) : (d.take h).time = { d.time with ct := max d.time.ct h.stamp } := by
  cases h with | mk l => cases l <;> rfl

@[simp] theorem Dev.take_fuse (d : Dev) (h : Hdr) (i : Nat) : (d.take h).fuse i = d.fuse i := by simp [Dev.fuse]

@[simp] theorem Dev.take_server (d : Dev) (h : Hdr) (l : Link) : (d.take h).server l = d.server l := by simp [Dev.server]

@[simp] theorem Dev.take_classForbidden (d : Dev) (h : Hdr) (c : Nat) :
    (d.take h).classForbidden c = d.classForbidden c := by simp [Dev.classForbidden]

@[simp] theorem Dev.take_linkJudge (r : LinkRule) (d : Dev) (h : Hdr) (l : Link) : r.judge (d.take h) l = r.judge d l := by
  cases r <;> cases l <;> simp [LinkRule.judge]

/-! ### Judging and answering -/

/-- The device after the effect of a command that passed every step of R100: its answer is posted, or is to come. -/
def finish (m : Sem) (h : Hdr) (r : Dev × Option (Status × List Byte)) : Dev :=
  match r with
  | (d, some (st, data)) => d.reply h m.op st data
  | (d, none) => d

/-- A late message is answered DEADLINE, whatever else holds (R102). -/
theorem runCmd_late (m : Sem) (h : Hdr) (d : Dev) (hs : d.server h.link ≠ .nobody) (h0 : h.ct ≠ 0) (h1 : h.ct < h.stamp) :
    runCmd m h d = (d.take h).reply h m.op .deadline [] := by
  simp [runCmd, Sem.judge, hs, h0, h1]

/-- A status other than OK is answered, and nothing of the command is executed (R100). -/
theorem runCmd_refused (m : Sem) (h : Hdr) (d : Dev) (hs : d.server h.link ≠ .nobody)
    (hj : m.judge h (d.take h) ≠ .ok) : runCmd m h d = (d.take h).reply h m.op (m.judge h (d.take h)) [] := by
  unfold runCmd
  simp only [hs, if_false]

/-- A message that is served and accepted has its command's effect, and is answered as the effect says. -/
theorem runCmd_served {m : Sem} {op len : Nat} {link : LinkRule} {modes : List Mode} {h : Hdr} {s : State}
    (hS : Serves op len link modes h s) (hA : Accepted m h s) (hop : m.op = op) (hlink : m.link = link)
    (hmodes : m.modes = modes) (hlen : m.lenOk = decide (h.length = len)) :
    runCmd m h s.dev = finish m h (m.eff (s.dev.take h)) := by
  obtain ⟨h1, h2, h3, h4, h5, h6, h7⟩ := hS
  obtain ⟨h8, h9⟩ := hA
  have hj : m.judge h (s.dev.take h) = .ok := by
    have : ¬ (h.ct ≠ 0 ∧ h.ct < h.stamp) := by omega
    simp [Sem.judge, this, h2, hop, h3, hlink, h4, hmodes, h5, Sem.lastSteps, hlen, h6, h7, h8, h9]
  simp only [runCmd, h2, hj, finish]
  rfl

/-! ### After every step -/

@[simp] theorem Dev.irq_faultAsserted (d : Dev) (i : Nat) : (d.irq i).faultAsserted = d.faultAsserted := rfl

/-- What settling leaves: the pin and the interrupt condition say what the state says. -/
theorem settle_settled (d : Dev) (p : List Instr) : Settled { dev := d.settle, pending := p } := by
  unfold Settled Dev.settle
  by_cases h : (d.faultAsserted && d.boot.faultN) = true
  · simp only [h, if_true]
    exact ⟨rfl, rfl⟩
  · simp only [h]
    exact ⟨rfl, rfl⟩

/-- Every step leaves a settled device. -/
theorem after_settled (s : State) (d : Dev) : Settled (s.after d) := by
  unfold State.after
  exact settle_settled ((s.dev.skimInternal d.runContinuous.settle).skimPins) s.pending

@[simp] theorem after_pending (s : State) (d : Dev) : (s.after d).pending = s.pending := by
  unfold State.after
  rfl

end Sys2Proof.Machine
end

