-- ==== Sys2Proof/Laws/Records.lean ====
section
/-! SUPPORT. What the shared operations that write records and notices leave alone: a stamp moves only the time base's
sequences, a record the journal, a notice the host's queue, a trace record the dispatch unit. -/

namespace Sys2Proof.Machine

/-! ### stampItem -/

@[simp] theorem Dev.stampItem_power (d : Dev) (c i t : Nat) : ((d.stampItem c i t).2.2).power = d.power := rfl
@[simp] theorem Dev.stampItem_fuses (d : Dev) (c i t : Nat) : ((d.stampItem c i t).2.2).fuses = d.fuses := rfl
@[simp] theorem Dev.stampItem_boot (d : Dev) (c i t : Nat) : ((d.stampItem c i t).2.2).boot = d.boot := rfl
@[simp] theorem Dev.stampItem_host (d : Dev) (c i t : Nat) : ((d.stampItem c i t).2.2).host = d.host := rfl
@[simp] theorem Dev.stampItem_arms (d : Dev) (c i t : Nat) : ((d.stampItem c i t).2.2).arms = d.arms := rfl
@[simp] theorem Dev.stampItem_joints (d : Dev) (c i t : Nat) : ((d.stampItem c i t).2.2).joints = d.joints := rfl
@[simp] theorem Dev.stampItem_mults (d : Dev) (c i t : Nat) : ((d.stampItem c i t).2.2).mults = d.mults := rfl
@[simp] theorem Dev.stampItem_chops (d : Dev) (c i t : Nat) : ((d.stampItem c i t).2.2).chops = d.chops := rfl
@[simp] theorem Dev.stampItem_loop (d : Dev) (c i t : Nat) : ((d.stampItem c i t).2.2).loop = d.loop := rfl
@[simp] theorem Dev.stampItem_tuning (d : Dev) (c i t : Nat) : ((d.stampItem c i t).2.2).tuning = d.tuning := rfl
@[simp] theorem Dev.stampItem_solver (d : Dev) (c i t : Nat) : ((d.stampItem c i t).2.2).solver = d.solver := rfl
@[simp] theorem Dev.stampItem_kin (d : Dev) (c i t : Nat) : ((d.stampItem c i t).2.2).kin = d.kin := rfl
@[simp] theorem Dev.stampItem_sep (d : Dev) (c i t : Nat) : ((d.stampItem c i t).2.2).sep = d.sep := rfl
@[simp] theorem Dev.stampItem_deck (d : Dev) (c i t : Nat) : ((d.stampItem c i t).2.2).deck = d.deck := rfl
@[simp] theorem Dev.stampItem_sig (d : Dev) (c i t : Nat) : ((d.stampItem c i t).2.2).sig = d.sig := rfl
@[simp] theorem Dev.stampItem_disp (d : Dev) (c i t : Nat) : ((d.stampItem c i t).2.2).disp = d.disp := rfl
@[simp] theorem Dev.stampItem_skim (d : Dev) (c i t : Nat) : ((d.stampItem c i t).2.2).skim = d.skim := rfl
@[simp] theorem Dev.stampItem_pwm (d : Dev) (c i t : Nat) : ((d.stampItem c i t).2.2).pwm = d.pwm := rfl
@[simp] theorem Dev.stampItem_bus (d : Dev) (c i t : Nat) : ((d.stampItem c i t).2.2).bus = d.bus := rfl
@[simp] theorem Dev.stampItem_pair (d : Dev) (c i t : Nat) : ((d.stampItem c i t).2.2).pair = d.pair := rfl
@[simp] theorem Dev.stampItem_safety (d : Dev) (c i t : Nat) : ((d.stampItem c i t).2.2).safety = d.safety := rfl
@[simp] theorem Dev.stampItem_faults (d : Dev) (c i t : Nat) : ((d.stampItem c i t).2.2).faults = d.faults := rfl
@[simp] theorem Dev.stampItem_waiting (d : Dev) (c i t : Nat) : ((d.stampItem c i t).2.2).waiting = d.waiting := rfl
@[simp] theorem Dev.stampItem_fresh (d : Dev) (c i t : Nat) : ((d.stampItem c i t).2.2).fresh = d.fresh := rfl

@[simp] theorem Dev.stampItem_ct (d : Dev) (c i t : Nat) : (d.stampItem c i t).2.2.time.ct = d.time.ct := rfl

/-! ### queueRecord -/

@[simp] theorem Dev.queueRecord_time (d : Dev) (r : JRec) : (d.queueRecord r).time = d.time := rfl
@[simp] theorem Dev.queueRecord_power (d : Dev) (r : JRec) : (d.queueRecord r).power = d.power := rfl
@[simp] theorem Dev.queueRecord_fuses (d : Dev) (r : JRec) : (d.queueRecord r).fuses = d.fuses := rfl
@[simp] theorem Dev.queueRecord_boot (d : Dev) (r : JRec) : (d.queueRecord r).boot = d.boot := rfl
@[simp] theorem Dev.queueRecord_host (d : Dev) (r : JRec) : (d.queueRecord r).host = d.host := rfl
@[simp] theorem Dev.queueRecord_arms (d : Dev) (r : JRec) : (d.queueRecord r).arms = d.arms := rfl
@[simp] theorem Dev.queueRecord_joints (d : Dev) (r : JRec) : (d.queueRecord r).joints = d.joints := rfl
@[simp] theorem Dev.queueRecord_mults (d : Dev) (r : JRec) : (d.queueRecord r).mults = d.mults := rfl
@[simp] theorem Dev.queueRecord_chops (d : Dev) (r : JRec) : (d.queueRecord r).chops = d.chops := rfl
@[simp] theorem Dev.queueRecord_loop (d : Dev) (r : JRec) : (d.queueRecord r).loop = d.loop := rfl
@[simp] theorem Dev.queueRecord_tuning (d : Dev) (r : JRec) : (d.queueRecord r).tuning = d.tuning := rfl
@[simp] theorem Dev.queueRecord_solver (d : Dev) (r : JRec) : (d.queueRecord r).solver = d.solver := rfl
@[simp] theorem Dev.queueRecord_kin (d : Dev) (r : JRec) : (d.queueRecord r).kin = d.kin := rfl
@[simp] theorem Dev.queueRecord_sep (d : Dev) (r : JRec) : (d.queueRecord r).sep = d.sep := rfl
@[simp] theorem Dev.queueRecord_deck (d : Dev) (r : JRec) : (d.queueRecord r).deck = d.deck := rfl
@[simp] theorem Dev.queueRecord_sig (d : Dev) (r : JRec) : (d.queueRecord r).sig = d.sig := rfl
@[simp] theorem Dev.queueRecord_disp (d : Dev) (r : JRec) : (d.queueRecord r).disp = d.disp := rfl
@[simp] theorem Dev.queueRecord_skim (d : Dev) (r : JRec) : (d.queueRecord r).skim = d.skim := rfl
@[simp] theorem Dev.queueRecord_pwm (d : Dev) (r : JRec) : (d.queueRecord r).pwm = d.pwm := rfl
@[simp] theorem Dev.queueRecord_bus (d : Dev) (r : JRec) : (d.queueRecord r).bus = d.bus := rfl
@[simp] theorem Dev.queueRecord_pair (d : Dev) (r : JRec) : (d.queueRecord r).pair = d.pair := rfl
@[simp] theorem Dev.queueRecord_safety (d : Dev) (r : JRec) : (d.queueRecord r).safety = d.safety := rfl
@[simp] theorem Dev.queueRecord_waiting (d : Dev) (r : JRec) : (d.queueRecord r).waiting = d.waiting := rfl
@[simp] theorem Dev.queueRecord_fresh (d : Dev) (r : JRec) : (d.queueRecord r).fresh = d.fresh := rfl

/-! ### journal -/

@[simp] theorem Dev.journal_power (d : Dev) (c i t : Nat) (k : BitVec 16) (p : List Byte) : (d.journal c i t k p).power = d.power := rfl
@[simp] theorem Dev.journal_fuses (d : Dev) (c i t : Nat) (k : BitVec 16) (p : List Byte) : (d.journal c i t k p).fuses = d.fuses := rfl
@[simp] theorem Dev.journal_boot (d : Dev) (c i t : Nat) (k : BitVec 16) (p : List Byte) : (d.journal c i t k p).boot = d.boot := rfl
@[simp] theorem Dev.journal_host (d : Dev) (c i t : Nat) (k : BitVec 16) (p : List Byte) : (d.journal c i t k p).host = d.host := rfl
@[simp] theorem Dev.journal_arms (d : Dev) (c i t : Nat) (k : BitVec 16) (p : List Byte) : (d.journal c i t k p).arms = d.arms := rfl
@[simp] theorem Dev.journal_joints (d : Dev) (c i t : Nat) (k : BitVec 16) (p : List Byte) : (d.journal c i t k p).joints = d.joints := rfl
@[simp] theorem Dev.journal_mults (d : Dev) (c i t : Nat) (k : BitVec 16) (p : List Byte) : (d.journal c i t k p).mults = d.mults := rfl
@[simp] theorem Dev.journal_chops (d : Dev) (c i t : Nat) (k : BitVec 16) (p : List Byte) : (d.journal c i t k p).chops = d.chops := rfl
@[simp] theorem Dev.journal_loop (d : Dev) (c i t : Nat) (k : BitVec 16) (p : List Byte) : (d.journal c i t k p).loop = d.loop := rfl
@[simp] theorem Dev.journal_tuning (d : Dev) (c i t : Nat) (k : BitVec 16) (p : List Byte) : (d.journal c i t k p).tuning = d.tuning := rfl
@[simp] theorem Dev.journal_solver (d : Dev) (c i t : Nat) (k : BitVec 16) (p : List Byte) : (d.journal c i t k p).solver = d.solver := rfl
@[simp] theorem Dev.journal_kin (d : Dev) (c i t : Nat) (k : BitVec 16) (p : List Byte) : (d.journal c i t k p).kin = d.kin := rfl
@[simp] theorem Dev.journal_sep (d : Dev) (c i t : Nat) (k : BitVec 16) (p : List Byte) : (d.journal c i t k p).sep = d.sep := rfl
@[simp] theorem Dev.journal_deck (d : Dev) (c i t : Nat) (k : BitVec 16) (p : List Byte) : (d.journal c i t k p).deck = d.deck := rfl
@[simp] theorem Dev.journal_sig (d : Dev) (c i t : Nat) (k : BitVec 16) (p : List Byte) : (d.journal c i t k p).sig = d.sig := rfl
@[simp] theorem Dev.journal_disp (d : Dev) (c i t : Nat) (k : BitVec 16) (p : List Byte) : (d.journal c i t k p).disp = d.disp := rfl
@[simp] theorem Dev.journal_skim (d : Dev) (c i t : Nat) (k : BitVec 16) (p : List Byte) : (d.journal c i t k p).skim = d.skim := rfl
@[simp] theorem Dev.journal_pwm (d : Dev) (c i t : Nat) (k : BitVec 16) (p : List Byte) : (d.journal c i t k p).pwm = d.pwm := rfl
@[simp] theorem Dev.journal_bus (d : Dev) (c i t : Nat) (k : BitVec 16) (p : List Byte) : (d.journal c i t k p).bus = d.bus := rfl
@[simp] theorem Dev.journal_pair (d : Dev) (c i t : Nat) (k : BitVec 16) (p : List Byte) : (d.journal c i t k p).pair = d.pair := rfl
@[simp] theorem Dev.journal_safety (d : Dev) (c i t : Nat) (k : BitVec 16) (p : List Byte) : (d.journal c i t k p).safety = d.safety := rfl
@[simp] theorem Dev.journal_waiting (d : Dev) (c i t : Nat) (k : BitVec 16) (p : List Byte) : (d.journal c i t k p).waiting = d.waiting := rfl
@[simp] theorem Dev.journal_fresh (d : Dev) (c i t : Nat) (k : BitVec 16) (p : List Byte) : (d.journal c i t k p).fresh = d.fresh := rfl

@[simp] theorem Dev.journal_ct (d : Dev) (c i t : Nat) (k : BitVec 16) (p : List Byte) : (d.journal c i t k p).time.ct = d.time.ct := rfl

/-! ### insertNotice -/

/-- The queue grows by one notice. -/
@[simp] theorem insertNotice_length (n : Notice) (l : List Notice) : (insertNotice n l).length = l.length + 1 := by
  induction l generalizing n with
  | nil => rfl
  | cons m l ih => unfold insertNotice; split <;> simp [ih]

/-- A notice that no waiting one follows in stamp goes to the end. -/
theorem insertNotice_last {n : Notice} {l : List Notice} (h : ∀ m ∈ l, m.ct ≤ n.ct) : insertNotice n l = l ++ [n] := by
  induction l with
  | nil => rfl
  | cons m l ih =>
    have h1 := h m (by simp)
    unfold insertNotice
    rw [if_neg (by omega), ih (fun x hx => h x (by simp [hx]))]
    rfl

/-- The stamps of the queue are those it had and that of the notice. -/
theorem insertNotice_ct (n : Notice) (l : List Notice) : ∀ x ∈ insertNotice n l, x.ct = n.ct ∨ ∃ m ∈ l, x.ct = m.ct := by
  induction l generalizing n with
  | nil => intro x hx; simp [insertNotice] at hx; exact .inl (by rw [hx])
  | cons m l ih =>
    intro x hx
    unfold insertNotice at hx
    split at hx
    · rcases List.mem_cons.1 hx with rfl | hx
      · exact .inl rfl
      · rcases ih _ x hx with e | ⟨y, hy, e⟩
        · exact .inr ⟨m, by simp, e⟩
        · exact .inr ⟨y, by simp [hy], e⟩
    · rcases List.mem_cons.1 hx with rfl | hx
      · exact .inr ⟨x, by simp, rfl⟩
      · rcases ih _ x hx with e | ⟨y, hy, e⟩
        · exact .inl e
        · exact .inr ⟨y, by simp [hy], e⟩

/-- A queue in order of stamp stays so (R107). -/
theorem insertNotice_sorted {n : Notice} {l : List Notice} (h : l.Pairwise (fun a b => a.ct ≤ b.ct)) :
    (insertNotice n l).Pairwise (fun a b => a.ct ≤ b.ct) := by
  induction l generalizing n with
  | nil => simp [insertNotice]
  | cons m l ih =>
    have h1 := List.pairwise_cons.1 h
    unfold insertNotice
    split
    · rename_i hlt
      refine List.pairwise_cons.2 ⟨fun x hx => ?_, ih h1.2⟩
      rcases insertNotice_ct _ _ x hx with e | ⟨y, hy, e⟩
      · have : x.ct = m.ct := e
        show n.ct ≤ x.ct
        omega
      · have := h1.1 y hy
        show n.ct ≤ x.ct
        omega
    · rename_i hge
      refine List.pairwise_cons.2 ⟨fun x hx => ?_, ih h1.2⟩
      rcases insertNotice_ct _ _ x hx with e | ⟨y, hy, e⟩
      · omega
      · have := h1.1 y hy
        omega

/-! ### queueNotice -/

@[simp] theorem Dev.queueNotice_time (d : Dev) (n : Notice) : (d.queueNotice n).time = d.time := rfl
@[simp] theorem Dev.queueNotice_power (d : Dev) (n : Notice) : (d.queueNotice n).power = d.power := rfl
@[simp] theorem Dev.queueNotice_fuses (d : Dev) (n : Notice) : (d.queueNotice n).fuses = d.fuses := rfl
@[simp] theorem Dev.queueNotice_boot (d : Dev) (n : Notice) : (d.queueNotice n).boot = d.boot := rfl
@[simp] theorem Dev.queueNotice_arms (d : Dev) (n : Notice) : (d.queueNotice n).arms = d.arms := rfl
@[simp] theorem Dev.queueNotice_joints (d : Dev) (n : Notice) : (d.queueNotice n).joints = d.joints := rfl
@[simp] theorem Dev.queueNotice_mults (d : Dev) (n : Notice) : (d.queueNotice n).mults = d.mults := rfl
@[simp] theorem Dev.queueNotice_chops (d : Dev) (n : Notice) : (d.queueNotice n).chops = d.chops := rfl
@[simp] theorem Dev.queueNotice_loop (d : Dev) (n : Notice) : (d.queueNotice n).loop = d.loop := rfl
@[simp] theorem Dev.queueNotice_tuning (d : Dev) (n : Notice) : (d.queueNotice n).tuning = d.tuning := rfl
@[simp] theorem Dev.queueNotice_solver (d : Dev) (n : Notice) : (d.queueNotice n).solver = d.solver := rfl
@[simp] theorem Dev.queueNotice_kin (d : Dev) (n : Notice) : (d.queueNotice n).kin = d.kin := rfl
@[simp] theorem Dev.queueNotice_sep (d : Dev) (n : Notice) : (d.queueNotice n).sep = d.sep := rfl
@[simp] theorem Dev.queueNotice_deck (d : Dev) (n : Notice) : (d.queueNotice n).deck = d.deck := rfl
@[simp] theorem Dev.queueNotice_sig (d : Dev) (n : Notice) : (d.queueNotice n).sig = d.sig := rfl
@[simp] theorem Dev.queueNotice_disp (d : Dev) (n : Notice) : (d.queueNotice n).disp = d.disp := rfl
@[simp] theorem Dev.queueNotice_skim (d : Dev) (n : Notice) : (d.queueNotice n).skim = d.skim := rfl
@[simp] theorem Dev.queueNotice_pwm (d : Dev) (n : Notice) : (d.queueNotice n).pwm = d.pwm := rfl
@[simp] theorem Dev.queueNotice_bus (d : Dev) (n : Notice) : (d.queueNotice n).bus = d.bus := rfl
@[simp] theorem Dev.queueNotice_pair (d : Dev) (n : Notice) : (d.queueNotice n).pair = d.pair := rfl
@[simp] theorem Dev.queueNotice_safety (d : Dev) (n : Notice) : (d.queueNotice n).safety = d.safety := rfl
@[simp] theorem Dev.queueNotice_faults (d : Dev) (n : Notice) : (d.queueNotice n).faults = d.faults := rfl
@[simp] theorem Dev.queueNotice_waiting (d : Dev) (n : Notice) : (d.queueNotice n).waiting = d.waiting := rfl
@[simp] theorem Dev.queueNotice_fresh (d : Dev) (n : Notice) : (d.queueNotice n).fresh = d.fresh := rfl

/-! ### notice -/

@[simp] theorem Dev.notice_power (d : Dev) (c i t : Nat) (k : BitVec 16) (a : BitVec 32) (j : Bool) (p : List Byte) : (d.notice c i t k a j p).power = d.power := by
  unfold Dev.notice; cases j <;> rfl
@[simp] theorem Dev.notice_fuses (d : Dev) (c i t : Nat) (k : BitVec 16) (a : BitVec 32) (j : Bool) (p : List Byte) : (d.notice c i t k a j p).fuses = d.fuses := by
  unfold Dev.notice; cases j <;> rfl
@[simp] theorem Dev.notice_boot (d : Dev) (c i t : Nat) (k : BitVec 16) (a : BitVec 32) (j : Bool) (p : List Byte) : (d.notice c i t k a j p).boot = d.boot := by
  unfold Dev.notice; cases j <;> rfl
@[simp] theorem Dev.notice_arms (d : Dev) (c i t : Nat) (k : BitVec 16) (a : BitVec 32) (j : Bool) (p : List Byte) : (d.notice c i t k a j p).arms = d.arms := by
  unfold Dev.notice; cases j <;> rfl
@[simp] theorem Dev.notice_joints (d : Dev) (c i t : Nat) (k : BitVec 16) (a : BitVec 32) (j : Bool) (p : List Byte) : (d.notice c i t k a j p).joints = d.joints := by
  unfold Dev.notice; cases j <;> rfl
@[simp] theorem Dev.notice_mults (d : Dev) (c i t : Nat) (k : BitVec 16) (a : BitVec 32) (j : Bool) (p : List Byte) : (d.notice c i t k a j p).mults = d.mults := by
  unfold Dev.notice; cases j <;> rfl
@[simp] theorem Dev.notice_chops (d : Dev) (c i t : Nat) (k : BitVec 16) (a : BitVec 32) (j : Bool) (p : List Byte) : (d.notice c i t k a j p).chops = d.chops := by
  unfold Dev.notice; cases j <;> rfl
@[simp] theorem Dev.notice_loop (d : Dev) (c i t : Nat) (k : BitVec 16) (a : BitVec 32) (j : Bool) (p : List Byte) : (d.notice c i t k a j p).loop = d.loop := by
  unfold Dev.notice; cases j <;> rfl
@[simp] theorem Dev.notice_tuning (d : Dev) (c i t : Nat) (k : BitVec 16) (a : BitVec 32) (j : Bool) (p : List Byte) : (d.notice c i t k a j p).tuning = d.tuning := by
  unfold Dev.notice; cases j <;> rfl
@[simp] theorem Dev.notice_solver (d : Dev) (c i t : Nat) (k : BitVec 16) (a : BitVec 32) (j : Bool) (p : List Byte) : (d.notice c i t k a j p).solver = d.solver := by
  unfold Dev.notice; cases j <;> rfl
@[simp] theorem Dev.notice_kin (d : Dev) (c i t : Nat) (k : BitVec 16) (a : BitVec 32) (j : Bool) (p : List Byte) : (d.notice c i t k a j p).kin = d.kin := by
  unfold Dev.notice; cases j <;> rfl
@[simp] theorem Dev.notice_sep (d : Dev) (c i t : Nat) (k : BitVec 16) (a : BitVec 32) (j : Bool) (p : List Byte) : (d.notice c i t k a j p).sep = d.sep := by
  unfold Dev.notice; cases j <;> rfl
@[simp] theorem Dev.notice_deck (d : Dev) (c i t : Nat) (k : BitVec 16) (a : BitVec 32) (j : Bool) (p : List Byte) : (d.notice c i t k a j p).deck = d.deck := by
  unfold Dev.notice; cases j <;> rfl
@[simp] theorem Dev.notice_sig (d : Dev) (c i t : Nat) (k : BitVec 16) (a : BitVec 32) (j : Bool) (p : List Byte) : (d.notice c i t k a j p).sig = d.sig := by
  unfold Dev.notice; cases j <;> rfl
@[simp] theorem Dev.notice_disp (d : Dev) (c i t : Nat) (k : BitVec 16) (a : BitVec 32) (j : Bool) (p : List Byte) : (d.notice c i t k a j p).disp = d.disp := by
  unfold Dev.notice; cases j <;> rfl
@[simp] theorem Dev.notice_skim (d : Dev) (c i t : Nat) (k : BitVec 16) (a : BitVec 32) (j : Bool) (p : List Byte) : (d.notice c i t k a j p).skim = d.skim := by
  unfold Dev.notice; cases j <;> rfl
@[simp] theorem Dev.notice_pwm (d : Dev) (c i t : Nat) (k : BitVec 16) (a : BitVec 32) (j : Bool) (p : List Byte) : (d.notice c i t k a j p).pwm = d.pwm := by
  unfold Dev.notice; cases j <;> rfl
@[simp] theorem Dev.notice_bus (d : Dev) (c i t : Nat) (k : BitVec 16) (a : BitVec 32) (j : Bool) (p : List Byte) : (d.notice c i t k a j p).bus = d.bus := by
  unfold Dev.notice; cases j <;> rfl
@[simp] theorem Dev.notice_pair (d : Dev) (c i t : Nat) (k : BitVec 16) (a : BitVec 32) (j : Bool) (p : List Byte) : (d.notice c i t k a j p).pair = d.pair := by
  unfold Dev.notice; cases j <;> rfl
@[simp] theorem Dev.notice_safety (d : Dev) (c i t : Nat) (k : BitVec 16) (a : BitVec 32) (j : Bool) (p : List Byte) : (d.notice c i t k a j p).safety = d.safety := by
  unfold Dev.notice; cases j <;> rfl
@[simp] theorem Dev.notice_waiting (d : Dev) (c i t : Nat) (k : BitVec 16) (a : BitVec 32) (j : Bool) (p : List Byte) : (d.notice c i t k a j p).waiting = d.waiting := by
  unfold Dev.notice; cases j <;> rfl
@[simp] theorem Dev.notice_fresh (d : Dev) (c i t : Nat) (k : BitVec 16) (a : BitVec 32) (j : Bool) (p : List Byte) : (d.notice c i t k a j p).fresh = d.fresh := by
  unfold Dev.notice; cases j <;> rfl

/-! ### trace -/

@[simp] theorem Dev.trace_power (d : Dev) (t k : Nat) (e : BitVec 16) (x i f : Nat) : (d.trace t k e x i f).power = d.power := by
  unfold Dev.trace; split <;> rfl
@[simp] theorem Dev.trace_fuses (d : Dev) (t k : Nat) (e : BitVec 16) (x i f : Nat) : (d.trace t k e x i f).fuses = d.fuses := by
  unfold Dev.trace; split <;> rfl
@[simp] theorem Dev.trace_boot (d : Dev) (t k : Nat) (e : BitVec 16) (x i f : Nat) : (d.trace t k e x i f).boot = d.boot := by
  unfold Dev.trace; split <;> rfl
@[simp] theorem Dev.trace_host (d : Dev) (t k : Nat) (e : BitVec 16) (x i f : Nat) : (d.trace t k e x i f).host = d.host := by
  unfold Dev.trace; split <;> rfl
@[simp] theorem Dev.trace_arms (d : Dev) (t k : Nat) (e : BitVec 16) (x i f : Nat) : (d.trace t k e x i f).arms = d.arms := by
  unfold Dev.trace; split <;> rfl
@[simp] theorem Dev.trace_joints (d : Dev) (t k : Nat) (e : BitVec 16) (x i f : Nat) : (d.trace t k e x i f).joints = d.joints := by
  unfold Dev.trace; split <;> rfl
@[simp] theorem Dev.trace_mults (d : Dev) (t k : Nat) (e : BitVec 16) (x i f : Nat) : (d.trace t k e x i f).mults = d.mults := by
  unfold Dev.trace; split <;> rfl
@[simp] theorem Dev.trace_chops (d : Dev) (t k : Nat) (e : BitVec 16) (x i f : Nat) : (d.trace t k e x i f).chops = d.chops := by
  unfold Dev.trace; split <;> rfl
@[simp] theorem Dev.trace_loop (d : Dev) (t k : Nat) (e : BitVec 16) (x i f : Nat) : (d.trace t k e x i f).loop = d.loop := by
  unfold Dev.trace; split <;> rfl
@[simp] theorem Dev.trace_tuning (d : Dev) (t k : Nat) (e : BitVec 16) (x i f : Nat) : (d.trace t k e x i f).tuning = d.tuning := by
  unfold Dev.trace; split <;> rfl
@[simp] theorem Dev.trace_solver (d : Dev) (t k : Nat) (e : BitVec 16) (x i f : Nat) : (d.trace t k e x i f).solver = d.solver := by
  unfold Dev.trace; split <;> rfl
@[simp] theorem Dev.trace_kin (d : Dev) (t k : Nat) (e : BitVec 16) (x i f : Nat) : (d.trace t k e x i f).kin = d.kin := by
  unfold Dev.trace; split <;> rfl
@[simp] theorem Dev.trace_sep (d : Dev) (t k : Nat) (e : BitVec 16) (x i f : Nat) : (d.trace t k e x i f).sep = d.sep := by
  unfold Dev.trace; split <;> rfl
@[simp] theorem Dev.trace_deck (d : Dev) (t k : Nat) (e : BitVec 16) (x i f : Nat) : (d.trace t k e x i f).deck = d.deck := by
  unfold Dev.trace; split <;> rfl
@[simp] theorem Dev.trace_sig (d : Dev) (t k : Nat) (e : BitVec 16) (x i f : Nat) : (d.trace t k e x i f).sig = d.sig := by
  unfold Dev.trace; split <;> rfl
@[simp] theorem Dev.trace_skim (d : Dev) (t k : Nat) (e : BitVec 16) (x i f : Nat) : (d.trace t k e x i f).skim = d.skim := by
  unfold Dev.trace; split <;> rfl
@[simp] theorem Dev.trace_pwm (d : Dev) (t k : Nat) (e : BitVec 16) (x i f : Nat) : (d.trace t k e x i f).pwm = d.pwm := by
  unfold Dev.trace; split <;> rfl
@[simp] theorem Dev.trace_bus (d : Dev) (t k : Nat) (e : BitVec 16) (x i f : Nat) : (d.trace t k e x i f).bus = d.bus := by
  unfold Dev.trace; split <;> rfl
@[simp] theorem Dev.trace_pair (d : Dev) (t k : Nat) (e : BitVec 16) (x i f : Nat) : (d.trace t k e x i f).pair = d.pair := by
  unfold Dev.trace; split <;> rfl
@[simp] theorem Dev.trace_safety (d : Dev) (t k : Nat) (e : BitVec 16) (x i f : Nat) : (d.trace t k e x i f).safety = d.safety := by
  unfold Dev.trace; split <;> rfl
@[simp] theorem Dev.trace_faults (d : Dev) (t k : Nat) (e : BitVec 16) (x i f : Nat) : (d.trace t k e x i f).faults = d.faults := by
  unfold Dev.trace; split <;> rfl
@[simp] theorem Dev.trace_waiting (d : Dev) (t k : Nat) (e : BitVec 16) (x i f : Nat) : (d.trace t k e x i f).waiting = d.waiting := by
  unfold Dev.trace; split <;> rfl
@[simp] theorem Dev.trace_fresh (d : Dev) (t k : Nat) (e : BitVec 16) (x i f : Nat) : (d.trace t k e x i f).fresh = d.fresh := by
  unfold Dev.trace; split <;> rfl

/-! ### journalReverts -/

/-- The records of reverted slots move only the sequences, the journal and the free counter. -/
theorem Dev.journalReverts_frame {α : Type} (f : Dev → α)
    (hf : ∀ (x : Dev) (t set slot : Nat), f (x.journalRevert t set slot) = f x) (d : Dev) (t : Nat) (l : List BusSet) :
    f (d.journalReverts t l) = f d := by
  unfold Dev.journalReverts
  generalize l.zipIdx = z
  induction z generalizing d with
  | nil => rfl
  | cons e z ih =>
    rw [List.foldl_cons, ih]
    generalize e.1.granted = g
    induction g generalizing d with
    | nil => rfl
    | cons a g ihg => rw [List.foldl_cons, ihg, hf]

@[simp] theorem Dev.journalReverts_power (d : Dev) (t : Nat) (l : List BusSet) : (d.journalReverts t l).power = d.power := 
  Dev.journalReverts_frame (·.power) (fun _ _ _ _ => rfl) d t l
@[simp] theorem Dev.journalReverts_fuses (d : Dev) (t : Nat) (l : List BusSet) : (d.journalReverts t l).fuses = d.fuses := 
  Dev.journalReverts_frame (·.fuses) (fun _ _ _ _ => rfl) d t l
@[simp] theorem Dev.journalReverts_boot (d : Dev) (t : Nat) (l : List BusSet) : (d.journalReverts t l).boot = d.boot := 
  Dev.journalReverts_frame (·.boot) (fun _ _ _ _ => rfl) d t l
@[simp] theorem Dev.journalReverts_host (d : Dev) (t : Nat) (l : List BusSet) : (d.journalReverts t l).host = d.host := 
  Dev.journalReverts_frame (·.host) (fun _ _ _ _ => rfl) d t l
@[simp] theorem Dev.journalReverts_arms (d : Dev) (t : Nat) (l : List BusSet) : (d.journalReverts t l).arms = d.arms := 
  Dev.journalReverts_frame (·.arms) (fun _ _ _ _ => rfl) d t l
@[simp] theorem Dev.journalReverts_joints (d : Dev) (t : Nat) (l : List BusSet) : (d.journalReverts t l).joints = d.joints := 
  Dev.journalReverts_frame (·.joints) (fun _ _ _ _ => rfl) d t l
@[simp] theorem Dev.journalReverts_mults (d : Dev) (t : Nat) (l : List BusSet) : (d.journalReverts t l).mults = d.mults := 
  Dev.journalReverts_frame (·.mults) (fun _ _ _ _ => rfl) d t l
@[simp] theorem Dev.journalReverts_chops (d : Dev) (t : Nat) (l : List BusSet) : (d.journalReverts t l).chops = d.chops := 
  Dev.journalReverts_frame (·.chops) (fun _ _ _ _ => rfl) d t l
@[simp] theorem Dev.journalReverts_loop (d : Dev) (t : Nat) (l : List BusSet) : (d.journalReverts t l).loop = d.loop := 
  Dev.journalReverts_frame (·.loop) (fun _ _ _ _ => rfl) d t l
@[simp] theorem Dev.journalReverts_tuning (d : Dev) (t : Nat) (l : List BusSet) : (d.journalReverts t l).tuning = d.tuning := 
  Dev.journalReverts_frame (·.tuning) (fun _ _ _ _ => rfl) d t l
@[simp] theorem Dev.journalReverts_solver (d : Dev) (t : Nat) (l : List BusSet) : (d.journalReverts t l).solver = d.solver := 
  Dev.journalReverts_frame (·.solver) (fun _ _ _ _ => rfl) d t l
@[simp] theorem Dev.journalReverts_kin (d : Dev) (t : Nat) (l : List BusSet) : (d.journalReverts t l).kin = d.kin := 
  Dev.journalReverts_frame (·.kin) (fun _ _ _ _ => rfl) d t l
@[simp] theorem Dev.journalReverts_sep (d : Dev) (t : Nat) (l : List BusSet) : (d.journalReverts t l).sep = d.sep := 
  Dev.journalReverts_frame (·.sep) (fun _ _ _ _ => rfl) d t l
@[simp] theorem Dev.journalReverts_deck (d : Dev) (t : Nat) (l : List BusSet) : (d.journalReverts t l).deck = d.deck := 
  Dev.journalReverts_frame (·.deck) (fun _ _ _ _ => rfl) d t l
@[simp] theorem Dev.journalReverts_sig (d : Dev) (t : Nat) (l : List BusSet) : (d.journalReverts t l).sig = d.sig := 
  Dev.journalReverts_frame (·.sig) (fun _ _ _ _ => rfl) d t l
@[simp] theorem Dev.journalReverts_disp (d : Dev) (t : Nat) (l : List BusSet) : (d.journalReverts t l).disp = d.disp := 
  Dev.journalReverts_frame (·.disp) (fun _ _ _ _ => rfl) d t l
@[simp] theorem Dev.journalReverts_skim (d : Dev) (t : Nat) (l : List BusSet) : (d.journalReverts t l).skim = d.skim := 
  Dev.journalReverts_frame (·.skim) (fun _ _ _ _ => rfl) d t l
@[simp] theorem Dev.journalReverts_pwm (d : Dev) (t : Nat) (l : List BusSet) : (d.journalReverts t l).pwm = d.pwm := 
  Dev.journalReverts_frame (·.pwm) (fun _ _ _ _ => rfl) d t l
@[simp] theorem Dev.journalReverts_bus (d : Dev) (t : Nat) (l : List BusSet) : (d.journalReverts t l).bus = d.bus := 
  Dev.journalReverts_frame (·.bus) (fun _ _ _ _ => rfl) d t l
@[simp] theorem Dev.journalReverts_pair (d : Dev) (t : Nat) (l : List BusSet) : (d.journalReverts t l).pair = d.pair := 
  Dev.journalReverts_frame (·.pair) (fun _ _ _ _ => rfl) d t l
@[simp] theorem Dev.journalReverts_safety (d : Dev) (t : Nat) (l : List BusSet) : (d.journalReverts t l).safety = d.safety := 
  Dev.journalReverts_frame (·.safety) (fun _ _ _ _ => rfl) d t l
@[simp] theorem Dev.journalReverts_waiting (d : Dev) (t : Nat) (l : List BusSet) : (d.journalReverts t l).waiting = d.waiting := 
  Dev.journalReverts_frame (·.waiting) (fun _ _ _ _ => rfl) d t l

@[simp] theorem Dev.journalReverts_ct (d : Dev) (t : Nat) (l : List BusSet) : (d.journalReverts t l).time.ct = d.time.ct :=
  Dev.journalReverts_frame (·.time.ct) (fun _ _ _ _ => rfl) d t l

end Sys2Proof.Machine
end

