-- ==== Sys2Proof/Laws/Step.lean ====
section
/-! SUPPORT. What a step can do, said once: every command leaves the device it computes, settled, and the queue as it was. -/

namespace Sys2Proof.Machine

/-- Every command answers the state after some effect on the device. -/
theorem exec_after (c : Instr) (s : State) : ∃ d : Dev, exec c s = .next (s.after d) := by
  cases c <;> exact ⟨_, rfl⟩

/-- A step idles on an empty queue, and otherwise answers the state after the effect of the front command. -/
theorem step_cases {s t : State} (h : step s = .next t) :
    (s.pending = [] ∧ t = s) ∨
      ∃ c q d, s.pending = c :: q ∧ exec c { s with pending := q } = .next t ∧ t = State.after { s with pending := q } d := by
  unfold step at h
  split at h
  · rename_i hp
    exact Or.inl ⟨hp, (Host.Outcome.next.inj h).symm⟩
  · rename_i c q hp
    obtain ⟨d, hd⟩ := exec_after c { s with pending := q }
    exact Or.inr ⟨c, q, d, hp, h, Host.Outcome.next.inj (h.symm.trans hd)⟩

end Sys2Proof.Machine
end

