-- ==== Sys2Proof/Laws/Tab.lean ====
section
/-! SUPPORT. The canonical form of tables and memories, what every operation on them keeps of it, and what a read after a
write gives. -/

namespace Sys2Proof.Machine

variable {α : Type} [Inhabited α] [DecidableEq α]

omit [Inhabited α] [DecidableEq α] in
/-- Keys of an insertion are the inserted one and those there were. -/
theorem mem_insert1 {n : Nat} {v : α} {t : Tab α} {e : Nat × α} (h : e ∈ insert1 n v t) : e = (n, v) ∨ e ∈ t := by
  induction t with
  | nil => simpa [insert1] using h
  | cons x t ih =>
    obtain ⟨k, w⟩ := x
    simp only [insert1] at h
    split at h
    · simpa using h
    · split at h
      · rcases List.mem_cons.mp h with h | h
        · exact Or.inl h
        · exact Or.inr (List.mem_cons_of_mem _ h)
      · rcases List.mem_cons.mp h with h | h
        · exact Or.inr (h ▸ List.mem_cons_self)
        · rcases ih h with h | h
          · exact Or.inl h
          · exact Or.inr (List.mem_cons_of_mem _ h)

omit [Inhabited α] [DecidableEq α] in
theorem insert1_sorted {n : Nat} {v : α} {t : Tab α} (h : t.Pairwise (fun a b => a.1 < b.1)) :
    (insert1 n v t).Pairwise (fun a b => a.1 < b.1) := by
  induction t with
  | nil => simp [insert1]
  | cons x t ih =>
    obtain ⟨k, w⟩ := x
    obtain ⟨hx, ht⟩ := List.pairwise_cons.mp h
    simp only [insert1]
    split
    · rename_i hk
      refine List.pairwise_cons.mpr ⟨fun e he => ?_, h⟩
      rcases List.mem_cons.mp he with he | he
      · rw [he]; exact hk
      · exact lt_trans hk (hx e he)
    · split
      · rename_i hk
        subst hk
        exact List.pairwise_cons.mpr ⟨hx, ht⟩
      · rename_i h1 h2
        refine List.pairwise_cons.mpr ⟨fun e he => ?_, ih ht⟩
        rcases mem_insert1 he with he | he
        · rw [he]; exact lt_of_le_of_ne (Nat.le_of_not_lt h1) (fun x => h2 x.symm)
        · exact hx e he

/-- Every write of a record keeps the canonical form. -/
theorem put_wf {t : Tab α} (n : Nat) (v : α) (h : Tab.wf t) : Tab.wf (put t n v) := by
  unfold put
  split
  · exact ⟨h.1.filter _, fun e he => h.2 e (List.mem_of_mem_filter he)⟩
  · rename_i hv
    refine ⟨insert1_sorted h.1, fun e he => ?_⟩
    rcases mem_insert1 he with he | he
    · rw [he]; exact hv
    · exact h.2 e he

theorem upd_wf {t : Tab α} (n : Nat) (f : α → α) (h : Tab.wf t) : Tab.wf (upd t n f) := put_wf n _ h

theorem mapTab_wf {t : Tab α} (f : Nat → α → α) (h : Tab.wf t) : Tab.wf (mapTab f t) := by
  have go : ∀ (l : List (Nat × α)) (acc : Tab α), Tab.wf acc → Tab.wf (l.foldl (fun acc e => put acc e.1 (f e.1 e.2)) acc) := by
    intro l
    induction l with
    | nil => exact fun _ ha => ha
    | cons e l ih => exact fun acc ha => ih _ (put_wf _ _ ha)
  exact go t t h

/-- Every write of bytes keeps the canonical form of a memory. -/
theorem memWrite_wf (m : Memory) (off : Nat) (b : List Byte) (h : Tab.wf m) : Tab.wf (memWrite m off b) := by
  induction b generalizing m off with
  | nil => exact h
  | cons x b ih => exact ih _ _ (put_wf off x h)

omit [DecidableEq α] in
theorem look_insert1 (n k : Nat) (v : α) (t : Tab α) : look (insert1 n v t) k = if n = k then v else look t k := by
  induction t with
  | nil => simp [insert1, look]
  | cons x t ih =>
    obtain ⟨j, w⟩ := x
    simp only [insert1]
    split
    · simp [look]
    · split
      · rename_i h
        subst h
        simp only [look]
        split <;> rfl
      · rename_i h
        simp only [look, ih]
        by_cases hj : j = k
        · subst hj
          rw [if_pos rfl, if_pos rfl, if_neg h]
        · rw [if_neg hj, if_neg hj]

omit [DecidableEq α] in
theorem look_drop1 (n k : Nat) (t : Tab α) : look (drop1 t n) k = if n = k then default else look t k := by
  induction t with
  | nil => simp [drop1, look]
  | cons x t ih =>
    obtain ⟨j, w⟩ := x
    by_cases hj : j = n
    · subst hj
      have e : drop1 ((j, w) :: t) j = drop1 t j := by simp [drop1]
      rw [e, ih]
      by_cases hk : j = k
      · rw [if_pos hk, if_pos hk]
      · rw [if_neg hk, if_neg hk]; simp [look, hk]
    · have e : drop1 ((j, w) :: t) n = (j, w) :: drop1 t n := by simp [drop1, hj]
      rw [e]
      simp only [look, ih]
      by_cases hk : j = k
      · subst hk
        rw [if_pos rfl, if_pos rfl, if_neg (fun x => hj x.symm)]
      · rw [if_neg hk, if_neg hk]

/-- A read after a write: the written record at its number, every other as it was. -/
theorem look_put (n k : Nat) (v : α) (t : Tab α) : look (put t n v) k = if n = k then v else look t k := by
  unfold put
  split
  · rename_i h
    rw [look_drop1, h]
  · exact look_insert1 n k v t

theorem look_upd (n k : Nat) (f : α → α) (t : Tab α) : look (upd t n f) k = if n = k then f (look t n) else look t k :=
  look_put n k _ t

end Sys2Proof.Machine
end

