-- ==== Sys2Proof/WellFormed.lean ====
section
/-! DEFINITION. What a command or event must be for the device ever to meet it: a message of at most 1024 bytes with a
payload of whole words (R98), stamps of 64 bits (R9), and operands of the width that the spec gives them. -/

namespace Sys2Proof

/-- A stamp of 64 bits (R9). -/
abbrev stampOk (t : Nat) : Prop := t < 2 ^ 64

/-- A header (R95, R98): one of eight slots, whole payload words up to 1004 bytes, stamps of 64 bits. -/
abbrev Hdr.wf (h : Hdr) : Prop := h.slot < 8 ∧ h.length ≤ 1004 ∧ h.length % 4 = 0 ∧ stampOk h.ct ∧ stampOk h.stamp

/-- A data-port access carries as many bytes as its width says. -/
abbrev DpAccess.wf (a : DpAccess) : Prop := a.write.all (fun b => decide (b.length = a.width)) = true

/-- A frame as received: a line burst has whole blocks of bits, and an Ethernet payload at most 1500 bytes (R398, R400). -/
abbrev FrameIn.wf (f : FrameIn) : Prop :=
  match f.form with
  | .line _ _ _ baud => baud.length ≤ 65536
  | .phy _ _ _ payload => payload.length ≤ 1500

/-- A lease or health message of R440: its two stamps. -/
abbrev LeaseMsg.wf (m : LeaseMsg) : Prop := stampOk m.instant ∧ stampOk m.stamp

/-- The cycles of a run fit the counter that reports them (R332). -/
abbrev TaskIn.wf (x : TaskIn) : Prop := x.cycles < 2 ^ 32

/-- Whether a command or event is well formed. -/
abbrev Instr.wf (i : Instr) : Prop :=
  match i with
  | .echo h p => h.wf ∧ p.data.length = h.length
  | .getNotices h _ => h.wf
  | .setHostWatchdog h _ => h.wf
  | .setMode h _ => h.wf
  | .setWake h _ => h.wf
  | .setDomains h _ => h.wf
  | .getPowerState h => h.wf
  | .getBootReport h => h.wf
  | .getFuses h => h.wf
  | .advanceRollback h => h.wf
  | .deviceReset h _ => h.wf
  | .bootImage h _ => h.wf
  | .fuseProgram h _ => h.wf
  | .setTiming h _ => h.wf
  | .setPolicy h _ => h.wf
  | .maintRead h _ => h.wf
  | .runSelftest h _ => h.wf
  | .selftestDone t _ => stampOk t
  | .configArm h _ => h.wf
  | .setJointLimits h _ => h.wf
  | .setScaling h _ => h.wf
  | .appendJointMove h p => h.wf ∧ p.targets.length ≤ 12
  | .appendCartMove h _ => h.wf
  | .stopArms h _ => h.wf
  | .resumeArms h _ => h.wf
  | .flushQueue h _ => h.wf
  | .getArmState h _ => h.wf
  | .configJointSlot h _ => h.wf
  | .configArmSlot h _ => h.wf
  | .configCurrentSlot h _ => h.wf
  | .setArmTarget h p => h.wf ∧ p.target.length ≤ 6
  | .loadBank h p => h.wf ∧ p.record.length ≤ 1000
  | .loadBankBlock h _ => h.wf
  | .copyBank h => h.wf
  | .swapBanks h _ => h.wf
  | .setSlotMode h _ => h.wf
  | .getSlotState h _ => h.wf
  | .startInjection h p => h.wf ∧ p.block.length ≤ 72
  | .stopInjection h _ => h.wf
  | .getInjectionState h _ => h.wf
  | .setRetuneBounds h _ => h.wf
  | .identResult t _ => stampOk t
  | .retune t _ => stampOk t
  | .defineProblem h _ => h.wf
  | .removeProblem h _ => h.wf
  | .setProblemInput h p => h.wf ∧ p.words.length ≤ 250
  | .getProblemResult h _ => h.wf
  | .getProblemDescriptor h _ => h.wf
  | .getLaneState h _ => h.wf
  | .configSeparation h _ => h.wf
  | .definePan h _ => h.wf
  | .setParamSet h _ => h.wf
  | .loadSafetyKinematics h _ => h.wf
  | .loadCapsules h _ => h.wf
  | .loadPairs h _ => h.wf
  | .loadIsland h _ => h.wf
  | .setObjectSource h _ => h.wf
  | .setPanPlanner h p => h.wf ∧ p.weights.length ≤ 12
  | .getPanState h _ => h.wf
  | .getPairResult h _ => h.wf
  | .getObjectState h _ => h.wf
  | .configMotionPort h p => h.wf ∧ (p.cmd.length ≤ 4 ∧ p.offsets.length ≤ 6 ∧ p.mount.length ≤ 4)
  | .configDeck h p => h.wf ∧ p.lever.length ≤ 6
  | .setVessel h _ => h.wf
  | .defineLoadFrame h _ => h.wf
  | .setDeckLimits h _ => h.wf
  | .configBallast h p => h.wf ∧ p.tanks.length ≤ 249
  | .setBallastBounds h _ => h.wf
  | .declareLift h p => h.wf ∧ p.centres.length ≤ 6
  | .closeLift h _ => h.wf
  | .sendBallastRequest h p => h.wf ∧ p.dm.length ≤ 249
  | .getDeckState h => h.wf
  | .getHeelState h _ => h.wf
  | .loadKernel h _ => h.wf
  | .removeKernel h _ => h.wf
  | .runKernel h _ => h.wf
  | .assignVendor h _ => h.wf
  | .getCoreState h _ => h.wf
  | .getKernelState h _ => h.wf
  | .setTrace h _ => h.wf
  | .traceMark h _ => h.wf
  | .getDispatchState h => h.wf
  | .getEventEntry h _ => h.wf
  | .cancelTask h _ => h.wf
  | .configChannel h _ => h.wf
  | .configCapture h _ => h.wf
  | .setTriggers h p => h.wf ∧ p.conds.length ≤ 12
  | .arm h => h.wf
  | .disarm h => h.wf
  | .forceTrigger h => h.wf
  | .getCaptureState h => h.wf
  | .configStep h _ => h.wf
  | .configChopper h _ => h.wf
  | .getRateState h _ => h.wf
  | .configPwmGroup h _ => h.wf
  | .setPwmDuty h _ => h.wf
  | .clearTrip h _ => h.wf
  | .getPwmState h _ => h.wf
  | .configBrake h _ => h.wf
  | .getBrakeState h _ => h.wf
  | .configBusChannel h _ => h.wf
  | .configDriveProfile h _ => h.wf
  | .driveParam h p => h.wf ∧ p.data.length ≤ 992
  | .getBusStats h _ => h.wf
  | .loadSchedule h _ => h.wf
  | .configSync h _ => h.wf
  | .grantSpare h _ => h.wf
  | .releaseSlot h _ => h.wf
  | .getScheduleEntry h _ => h.wf
  | .getSyncState h _ => h.wf
  | .configHierarchy h _ => h.wf
  | .configPair h _ => h.wf
  | .arbitratePair h _ => h.wf
  | .dissolvePair h _ => h.wf
  | .releaseLease h _ => h.wf
  | .setExport h p => h.wf ∧ (p.capsules.length ≤ 16 ∧ p.pose.length ≤ 7)
  | .getPairState h => h.wf
  | .getHierarchyState h => h.wf
  | .configSinPair h _ => h.wf
  | .configStops h _ => h.wf
  | .configSls h p => h.wf ∧ (p.vSls.length ≤ 128 ∧ p.cSls.length ≤ 16)
  | .configStoEdm h _ => h.wf
  | .configSbc h _ => h.wf
  | .configSafetyConn h _ => h.wf
  | .configSsmReaction h _ => h.wf
  | .getSetCheck h => h.wf
  | .commitSet h _ => h.wf
  | .discardChanges h => h.wf
  | .loadSetImage h _ => h.wf
  | .saveSetImage h _ => h.wf
  | .brakeTest h _ => h.wf
  | .getSafetyState h => h.wf
  | .getConnState h _ => h.wf
  | .setFaultPolicy h _ => h.wf
  | .retireChannel h _ => h.wf
  | .clearRetirement h _ => h.wf
  | .getChannelState h _ => h.wf
  | .getJournalState h => h.wf
  | .journalMark h _ => h.wf
  | .mbxSlotWrite t _ offset data => stampOk t ∧ offset + data.length ≤ 0x400
  | .mbxOutDbRelease t _ => stampOk t
  | .ctLatchRead t => stampOk t
  | .dpDataAccess t a => stampOk t ∧ a.wf
  | .dpBurstAccess t _ => stampOk t
  | .dpErrClear t _ => stampOk t
  | .irqStatClear t _ => stampOk t
  | .irqEnWrite t _ => stampOk t
  | .msiEnable t => stampOk t
  | .healthClear t _ => stampOk t
  | .registerWrite t offset _ => stampOk t ∧ offset.toNat % 4 = 0
  | .extest t => stampOk t
  | .samplePreload t => stampOk t
  | .rstNLow t _ => stampOk t
  | .boot t b => stampOk t ∧ b.durationCt < 2 ^ 64
  | .pwrgoodLow t _ => stampOk t
  | .powerOn => True
  | .vddCoreLoss t => stampOk t
  | .vddAonFall t => stampOk t
  | .lockstepMismatch t => stampOk t
  | .watchdogLapse t => stampOk t
  | .xclkMissing t lastEdge => stampOk t ∧ lastEdge ≤ t
  | .perstNLow t => stampOk t
  | .wakeEvent t w => stampOk t ∧ w.boot.durationCt < 2 ^ 64
  | .domainWake t _ => stampOk t
  | .domainStop t _ => stampOk t
  | .boundary t _ => stampOk t
  | .midPeriod t => stampOk t
  | .quarterPoint t _ _ => stampOk t
  | .taskRelease t _ => stampOk t
  | .taskDispatch t => stampOk t
  | .taskComplete t _ x => stampOk t ∧ x.wf
  | .taskDeadline t => stampOk t
  | .backpressureRelease t _ => stampOk t
  | .traceRecordWrite t => stampOk t
  | .ikMissLimit t _ => stampOk t
  | .feedbackMissLimit t _ => stampOk t
  | .problemRunEnd t _ mismatches => stampOk t ∧ mismatches.length ≤ 2 ∧ ∀ u ∈ mismatches, stampOk u
  | .problemDeadline t _ pos => stampOk t ∧ pos.complete < 65536 ∧ pos.mism.length ≤ 1 ∧ ∀ u ∈ pos.mism, stampOk u
  | .laneTest t _ _ => stampOk t
  | .separationInputsComplete t => stampOk t
  | .sepMonitorDecision t => stampOk t
  | .passOverrun t => stampOk t
  | .islandDecision t => stampOk t
  | .msnDrdyEdge t _ => stampOk t
  | .motionReadDone t _ data copy => stampOk t ∧ data.length ≤ 64 ∧ copy.length ≤ 64
  | .motionPortSilence t _ => stampOk t
  | .deckInvalidTimeout t => stampOk t
  | .loadFrameStale t => stampOk t
  | .ballastStatusStale t => stampOk t
  | .coreInterrupt t _ _ => stampOk t
  | .kernelBudget t _ _ => stampOk t
  | .syncFrame t f => stampOk t ∧ f.wf
  | .feedbackFrame t f => stampOk t ∧ f.wf
  | .safetyContainer t f => stampOk t ∧ f.wf
  | .paramResponse t f => stampOk t ∧ f.wf
  | .appFrame t f => stampOk t ∧ f.wf
  | .claimFrame t f => stampOk t ∧ f.wf
  | .dataFrame t f => stampOk t ∧ f.wf
  | .bucketDecay t ch => stampOk t ∧ ch.toNat / 256 ≤ 0x0A
  | .slotTransmit t _ _ _ => stampOk t
  | .syncCorrection t _ => stampOk t
  | .listenTimeout t _ => stampOk t
  | .backoffEnd t _ => stampOk t
  | .phyLinkPoll t _ _ => stampOk t
  | .workerLost t _ => stampOk t
  | .leaseGrant t m => stampOk t ∧ m.wf
  | .leaseRefuse t m => stampOk t ∧ m.wf
  | .leaseRequestMsg t m => stampOk t ∧ m.wf
  | .leaseHealthMsg t m => stampOk t ∧ m.wf
  | .leaseReleaseMsg t m => stampOk t ∧ m.wf
  | .arbiterDecision t _ => stampOk t
  | .leaseExpiry t => stampOk t
  | .mirrorLinkUp t _ _ => stampOk t
  | .mirrorPart t _ => stampOk t
  | .mirrorAck t _ _ => stampOk t
  | .mirrorNack t _ _ => stampOk t
  | .mirrorRelease t => stampOk t
  | .mirrorLate t => stampOk t
  | .hostWatchdog t => stampOk t
  | .sealAccepted t _ _ => stampOk t
  | .sinChange t _ _ => stampOk t
  | .sinDiscrepancy t _ => stampOk t
  | .stoFbMismatch t => stampOk t
  | .stoTestPulse t _ _ => stampOk t
  | .edmMismatch t => stampOk t
  | .permitLapse t => stampOk t
  | .crossMismatch t since => stampOk t ∧ since ≤ t
  | .connectionFailed t _ => stampOk t
  | .ss1TimeExpiry t => stampOk t
  | .stopDeadline t => stampOk t
  | .brakeTestPhase t => stampOk t
  | .brakeTestDue t _ => stampOk t
  | .brakePullInEnd t _ => stampOk t
  | .brkFbChange t _ _ => stampOk t
  | .brakeFbLate t _ => stampOk t
  | .tripNFall t _ _ => stampOk t
  | .pwmCarrierCycle t _ _ => stampOk t
  | .pwmCoarse t _ _ => stampOk t
  | .stepPulse t _ _ => stampOk t
  | .chopIsnsHigh t _ _ => stampOk t
  | .chopBlankEnd t _ _ _ => stampOk t
  | .chopOffTimeEnd t _ _ => stampOk t
  | .chopOnTimeLimit t _ _ => stampOk t
  | .holdDelay t _ => stampOk t
  | .sdInputSilence t _ => stampOk t
  | .pinChannelChange t _ p => stampOk t && stampOk p.since
  | .skimRecordStore t => stampOk t
  | .postTimeExpiry t => stampOk t
  | .armLineFall t => stampOk t
  | .armLineRise t => stampOk t
  | .fireLineFall t => stampOk t
  | .firePulseEnd t => stampOk t
  | .journalWrite t => stampOk t
  | .mbxInDbRing t _ => stampOk t
  | .maintMsgUpdateDr t m => stampOk t ∧ m.length = 1028
  | .stoFbChange t _ _ => stampOk t
  | .edmInChange t _ _ => stampOk t
  | .pwmCoarseClear t _ _ => stampOk t
  | .analogThresholdChange t _ _ => stampOk t
  | .chopRefPwmPeriod t _ _ => stampOk t

end Sys2Proof
end

