-- ==== Sys2Proof/Tests/Slice0.lean ====
section
/-! SUPPORT. Tests of the model: the worked examples of the spec, terms that the well-formedness check refuses, and for each
statement of Certificates/Slice0/Obligations.lean a state and operands that meet the hypotheses of each of its clauses. -/

set_option Elab.async false

namespace Sys2Proof

open Machine

/-! ### Worked examples of the spec -/

/-- CRC-32C of "123456789" (spec/05_host_mailboxes_data_port.md, R98). -/
theorem test_crc32c : crc32c ((List.range 9).map (fun i => BitVec.ofNat 8 (49 + i))) = 0xE3069283 := by decide +kernel

/-- The safety check of "123456789" (spec/21_safety_functions.md, R482). -/
theorem test_safetyCrc : safetyCrc ((List.range 9).map (fun i => BitVec.ofNat 8 (49 + i))) = 0x1697D06A := by decide +kernel

/-- The message of "cell K polls its power state" (spec/05_host_mailboxes_data_port.md). -/
def pollBytes : List Byte := [0x13, 0x01, 0x29, 0, 0, 0, 0, 0, 0, 0xE4, 0x79, 0xE7, 0x68, 0, 0, 0]

/-- That message passes its check, holds ct 0x68E779E400 and is GET_POWER_STATE with sequence 0x0029. -/
theorem test_poll_message : let m := pollBytes ++ wordBytes (crc32c pollBytes)
    let h := msgHdr .host 2 5 m
    msgBad m = none ∧ h.ct = 0x68E779E400 ∧ h.seq = 0x29 ∧ parseCommand h (rd 16 m 0) [] = some (.getPowerState h) :=
  ⟨by decide +kernel, by decide +kernel, by decide +kernel, rfl⟩

/-- T and t_a of "ARM 8 swings a lashing cage" from the rates and displacements of j 0 and j 1
(spec/06_move_queue_interpolation.md). -/
theorem test_move_times : moveTimes [{ q := (4194304 * 128) ^ 2, v := 0x4000 * 0x8000, a := 0x8000 * 0x8000 },
    { q := (1048576 * 128) ^ 2, v := 13107 * 0x8000, a := 0x4000 * 0x8000 }] = (1536000000, 512000000) := by decide +kernel

/-- Where j 0 stands at the stop, and j 0 and j 1 at rest (the same example). -/
theorem test_move_delta : let r := fun (tau : Nat) => ({ t := 1536000000, ta := 512000000, tau := tau * 32768 } : Run)
    (r 614400000).delta { disp := 4194304 } = 1468006 ∧ (r 806344250).delta { disp := 4194304 } = 2254210
    ∧ (r 806344250).delta { disp := 1048576 } = 563552 := by decide +kernel

/-- The velocity words of "a step-driven cage turner", and the ticks of its steps (spec/07_rate_multiplier_chopper.md). -/
theorem test_velocity_words : velocityWord 0 4292608000 50000 10737418 = (85852, 4292608000)
    ∧ velocityWord 4292600000 8593408000 50000 10737418 = (86016, 4300808000)
    ∧ crossing 2147483648 85852 50000 = 25014 := by decide +kernel

/-- The core of "ARM 8 j 0 returns to automatic" (spec/08_loop_engine.md). -/
def exampleCore : CoreRec := { kp := 315392, ki := 384, kd := 4718592, ad := 12288, f := 9, emin := 8, emax := 24 }

/-- Period k of that example: the preset of the integrator. -/
theorem test_core_preset : toBlock 120 = (7864320, 7) ∧
    runCore exampleCore { m := [1600, 92160, 0], e := 19 } 7864320 7 (some 307200) none false
      = { block := { m := [1920, 161280, 4717005], e := 19 }, m := 4915200, e := 19 } := by decide +kernel

/-- Period k+1: the block grows by one bit, and two results round to even. -/
theorem test_core_growth : toBlock 2000 = (8192000, 11) ∧
    runCore exampleCore { m := [1920, 161280, 4717005], e := 19 } 8192000 11 none (some (4300800, -10240000, 10240000)) false
      = { block := { m := [16000, 4392000, 2358878], e := 20 }, m := 7058502, e := 20 }
    ∧ staged false false (convertOut 7058502 20).1 4300800 (-10240000) 10240000 = 5183113 := by decide +kernel

/-- The group of "a hatch winch motor on a sister cell" (spec/17_pwm_brake_outputs.md). -/
def exampleGroup : ConfigPwmGroup := { nC := 8, tDt := 12800, tMin := 6400, nRef := 16, tRf := 64000 }

/-- Phase U of that example: six cycles are omitted, the seventh is emitted with 21,875. -/
theorem test_pwm_phaseU : finePeriod 128000 8 = 400000 ∧
    ((List.range 7).foldl (fun (x : PwmPhase) _ => x.cycle exampleGroup 400000) { d := 0x200 }).r = 21875
    ∧ ((List.range 6).foldl (fun (x : PwmPhase) _ => x.cycle exampleGroup 400000) { d := 0x200 }).c = 18750 := by decide +kernel

/-- Phase V of that example: the count reaches 12, then a low interval of 20,306 is emitted. -/
theorem test_pwm_phaseV :
    ((List.range 12).foldl (fun (x : PwmPhase) _ => x.cycle exampleGroup 400000) { d := 0xFF00 }).count = 12
    ∧ ((List.range 13).foldl (fun (x : PwmPhase) _ => x.cycle exampleGroup 400000) { d := 0xFF00 }).r = 400000 - 20306 := by
  decide +kernel

/-- The blocks of ARM 8's SETPOINT frame (spec/18_deck_bus_line_frames.md). -/
theorem test_frame_blocks : blocksOf 216 = 31 := by decide

/-- Slot 2 of "segment C of cell K": macrotick 120, length 83, owner 0, SETPOINT, both channels, scheduled use
(spec/19_deck_bus_schedule_sluice.md). -/
theorem test_schedule_entry : let w : BitVec 64 := 0x06C0070200053078
    eStart w = 120 ∧ eLen w = 83 ∧ eOwner w = 0 ∧ eType w = 2 ∧ eChan w = 3 ∧ eUse w = 1 := by decide

/-- The correction of node 2 in that example: ρ, r_off and the two rate words. -/
theorem test_rate_words : rateWords 0 (-170) 100000 128000 = (14602889, 467442023)
    ∧ nominalRate + 14602889 + 467442023 = 176403905356 ∧ nominalRate + 14602889 = 175936463333 := by decide +kernel

/-- s_deck of "a hatch pontoon lift under roll", with the forces in units of 10^-5 m/s² (spec/13_deck_motion_ballast.md). -/
theorem test_deck_scale : deckScale { fQuiet := 100000, fLim := 200000 } 143481 = 0x4858 := by decide +kernel

/-- A word of the opcode table spells no command: no row has bits. -/
theorem test_no_table_word : decodeTableWord 16 0x0113 = none := rfl

/-! ### Ill-formed terms, which the check refuses -/

/-- Each part of a header is checked: the slot, the length, whole words, and the two stamps. -/
theorem smoke_header : ¬ (Hdr.wf { slot := 8 }) ∧ ¬ (Hdr.wf { length := 1008 }) ∧ ¬ (Hdr.wf { length := 2 })
    ∧ ¬ (Hdr.wf { ct := 2 ^ 64 }) ∧ ¬ (Hdr.wf { stamp := 2 ^ 64 }) := by decide

/-- Terms that are not well formed, part 1. -/
theorem smoke_refused1 :
    ¬ (Instr.echo { slot := 8 } default).wf ∧ ¬ (Instr.getNotices { slot := 8 } default).wf ∧ ¬ (Instr.setHostWatchdog
      { slot := 8 } default).wf ∧ ¬ (Instr.setMode { slot := 8 } default).wf ∧ ¬ (Instr.setWake { slot := 8 }
      default).wf ∧ ¬ (Instr.setDomains { slot := 8 } default).wf ∧ ¬ (Instr.getPowerState { slot := 8 }).wf ∧ ¬
      (Instr.getBootReport { slot := 8 }).wf ∧ ¬ (Instr.getFuses { slot := 8 }).wf ∧ ¬ (Instr.advanceRollback
      { slot := 8 }).wf ∧ ¬ (Instr.deviceReset { slot := 8 } default).wf ∧ ¬ (Instr.bootImage { slot := 8 }
      default).wf ∧ ¬ (Instr.fuseProgram { slot := 8 } default).wf ∧ ¬ (Instr.setTiming { slot := 8 } default).wf ∧ ¬
      (Instr.setPolicy { slot := 8 } default).wf ∧ ¬ (Instr.maintRead { slot := 8 } default).wf ∧ ¬ (Instr.runSelftest
      { slot := 8 } default).wf ∧ ¬ (Instr.selftestDone (2 ^ 64) default).wf ∧ ¬ (Instr.configArm { slot := 8 }
      default).wf ∧ ¬ (Instr.setJointLimits { slot := 8 } default).wf ∧ ¬ (Instr.setScaling { slot := 8 } default).wf
      ∧ ¬ (Instr.appendJointMove { slot := 8 } default).wf ∧ ¬ (Instr.appendJointMove default
      { targets := List.replicate 13 0 }).wf ∧ ¬ (Instr.appendCartMove { slot := 8 } default).wf := by
  refine ⟨?_, ?_, ?_, ?_, ?_, ?_, ?_, ?_, ?_, ?_, ?_, ?_, ?_, ?_, ?_, ?_, ?_, ?_, ?_, ?_, ?_, ?_, ?_, ?_⟩ <;> decide +kernel

/-- Terms that are not well formed, part 2. -/
theorem smoke_refused2 :
    ¬ (Instr.stopArms { slot := 8 } default).wf ∧ ¬ (Instr.resumeArms { slot := 8 } default).wf ∧ ¬ (Instr.flushQueue
      { slot := 8 } default).wf ∧ ¬ (Instr.getArmState { slot := 8 } default).wf ∧ ¬ (Instr.configJointSlot
      { slot := 8 } default).wf ∧ ¬ (Instr.configArmSlot { slot := 8 } default).wf ∧ ¬ (Instr.configCurrentSlot
      { slot := 8 } default).wf ∧ ¬ (Instr.setArmTarget { slot := 8 } default).wf ∧ ¬ (Instr.setArmTarget default
      { target := List.replicate 7 0 }).wf ∧ ¬ (Instr.loadBank { slot := 8 } default).wf ∧ ¬ (Instr.loadBank default
      { record := List.replicate 1001 0 }).wf ∧ ¬ (Instr.loadBankBlock { slot := 8 } default).wf ∧ ¬ (Instr.copyBank
      { slot := 8 }).wf ∧ ¬ (Instr.swapBanks { slot := 8 } default).wf ∧ ¬ (Instr.setSlotMode { slot := 8 }
      default).wf ∧ ¬ (Instr.getSlotState { slot := 8 } default).wf ∧ ¬ (Instr.startInjection { slot := 8 }
      default).wf ∧ ¬ (Instr.startInjection default { block := List.replicate 73 0 }).wf ∧ ¬ (Instr.stopInjection
      { slot := 8 } default).wf ∧ ¬ (Instr.getInjectionState { slot := 8 } default).wf ∧ ¬ (Instr.setRetuneBounds
      { slot := 8 } default).wf ∧ ¬ (Instr.identResult (2 ^ 64) default).wf ∧ ¬ (Instr.retune (2 ^ 64) default).wf ∧ ¬
      (Instr.defineProblem { slot := 8 } default).wf := by
  refine ⟨?_, ?_, ?_, ?_, ?_, ?_, ?_, ?_, ?_, ?_, ?_, ?_, ?_, ?_, ?_, ?_, ?_, ?_, ?_, ?_, ?_, ?_, ?_, ?_⟩ <;> decide +kernel

/-- Terms that are not well formed, part 3. -/
theorem smoke_refused3 :
    ¬ (Instr.removeProblem { slot := 8 } default).wf ∧ ¬ (Instr.setProblemInput { slot := 8 } default).wf ∧ ¬
      (Instr.setProblemInput default { words := List.replicate 251 0 }).wf ∧ ¬ (Instr.getProblemResult { slot := 8 }
      default).wf ∧ ¬ (Instr.getProblemDescriptor { slot := 8 } default).wf ∧ ¬ (Instr.getLaneState { slot := 8 }
      default).wf ∧ ¬ (Instr.configSeparation { slot := 8 } default).wf ∧ ¬ (Instr.definePan { slot := 8 } default).wf
      ∧ ¬ (Instr.setParamSet { slot := 8 } default).wf ∧ ¬ (Instr.loadSafetyKinematics { slot := 8 } default).wf ∧ ¬
      (Instr.loadCapsules { slot := 8 } default).wf ∧ ¬ (Instr.loadPairs { slot := 8 } default).wf ∧ ¬
      (Instr.loadIsland { slot := 8 } default).wf ∧ ¬ (Instr.setObjectSource { slot := 8 } default).wf ∧ ¬
      (Instr.setPanPlanner { slot := 8 } default).wf ∧ ¬ (Instr.setPanPlanner default
      { weights := List.replicate 13 0 }).wf ∧ ¬ (Instr.getPanState { slot := 8 } default).wf ∧ ¬ (Instr.getPairResult
      { slot := 8 } default).wf ∧ ¬ (Instr.getObjectState { slot := 8 } default).wf ∧ ¬ (Instr.configMotionPort
      { slot := 8 } default).wf ∧ ¬ (Instr.configMotionPort default { cmd := List.replicate 5 0 }).wf ∧ ¬
      (Instr.configMotionPort default { offsets := List.replicate 7 0 }).wf ∧ ¬ (Instr.configMotionPort default
      { mount := List.replicate 5 0 }).wf ∧ ¬ (Instr.configDeck { slot := 8 } default).wf := by
  refine ⟨?_, ?_, ?_, ?_, ?_, ?_, ?_, ?_, ?_, ?_, ?_, ?_, ?_, ?_, ?_, ?_, ?_, ?_, ?_, ?_, ?_, ?_, ?_, ?_⟩ <;> decide +kernel

/-- Terms that are not well formed, part 4. -/
theorem smoke_refused4 :
    ¬ (Instr.configDeck default { lever := List.replicate 7 0 }).wf ∧ ¬ (Instr.setVessel { slot := 8 } default).wf ∧ ¬
      (Instr.defineLoadFrame { slot := 8 } default).wf ∧ ¬ (Instr.setDeckLimits { slot := 8 } default).wf ∧ ¬
      (Instr.configBallast { slot := 8 } default).wf ∧ ¬ (Instr.configBallast default
      { tanks := List.replicate 250 0 }).wf ∧ ¬ (Instr.setBallastBounds { slot := 8 } default).wf ∧ ¬
      (Instr.declareLift { slot := 8 } default).wf ∧ ¬ (Instr.declareLift default
      { centres := List.replicate 7 0 }).wf ∧ ¬ (Instr.closeLift { slot := 8 } default).wf ∧ ¬
      (Instr.sendBallastRequest { slot := 8 } default).wf ∧ ¬ (Instr.sendBallastRequest default
      { dm := List.replicate 250 0 }).wf ∧ ¬ (Instr.getDeckState { slot := 8 }).wf ∧ ¬ (Instr.getHeelState
      { slot := 8 } default).wf ∧ ¬ (Instr.loadKernel { slot := 8 } default).wf ∧ ¬ (Instr.removeKernel { slot := 8 }
      default).wf ∧ ¬ (Instr.runKernel { slot := 8 } default).wf ∧ ¬ (Instr.assignVendor { slot := 8 } default).wf ∧ ¬
      (Instr.getCoreState { slot := 8 } default).wf ∧ ¬ (Instr.getKernelState { slot := 8 } default).wf ∧ ¬
      (Instr.setTrace { slot := 8 } default).wf ∧ ¬ (Instr.traceMark { slot := 8 } default).wf ∧ ¬
      (Instr.getDispatchState { slot := 8 }).wf ∧ ¬ (Instr.getEventEntry { slot := 8 } default).wf := by
  refine ⟨?_, ?_, ?_, ?_, ?_, ?_, ?_, ?_, ?_, ?_, ?_, ?_, ?_, ?_, ?_, ?_, ?_, ?_, ?_, ?_, ?_, ?_, ?_, ?_⟩ <;> decide +kernel

/-- Terms that are not well formed, part 5. -/
theorem smoke_refused5 :
    ¬ (Instr.cancelTask { slot := 8 } default).wf ∧ ¬ (Instr.configChannel { slot := 8 } default).wf ∧ ¬
      (Instr.configCapture { slot := 8 } default).wf ∧ ¬ (Instr.setTriggers { slot := 8 } default).wf ∧ ¬
      (Instr.setTriggers default { conds := List.replicate 13 0 }).wf ∧ ¬ (Instr.arm { slot := 8 }).wf ∧ ¬
      (Instr.disarm { slot := 8 }).wf ∧ ¬ (Instr.forceTrigger { slot := 8 }).wf ∧ ¬ (Instr.getCaptureState
      { slot := 8 }).wf ∧ ¬ (Instr.configStep { slot := 8 } default).wf ∧ ¬ (Instr.configChopper { slot := 8 }
      default).wf ∧ ¬ (Instr.getRateState { slot := 8 } default).wf ∧ ¬ (Instr.configPwmGroup { slot := 8 }
      default).wf ∧ ¬ (Instr.setPwmDuty { slot := 8 } default).wf ∧ ¬ (Instr.clearTrip { slot := 8 } default).wf ∧ ¬
      (Instr.getPwmState { slot := 8 } default).wf ∧ ¬ (Instr.configBrake { slot := 8 } default).wf ∧ ¬
      (Instr.getBrakeState { slot := 8 } default).wf ∧ ¬ (Instr.configBusChannel { slot := 8 } default).wf ∧ ¬
      (Instr.configDriveProfile { slot := 8 } default).wf ∧ ¬ (Instr.driveParam { slot := 8 } default).wf ∧ ¬
      (Instr.driveParam default { data := List.replicate 993 0 }).wf ∧ ¬ (Instr.getBusStats { slot := 8 } default).wf
      ∧ ¬ (Instr.loadSchedule { slot := 8 } default).wf := by
  refine ⟨?_, ?_, ?_, ?_, ?_, ?_, ?_, ?_, ?_, ?_, ?_, ?_, ?_, ?_, ?_, ?_, ?_, ?_, ?_, ?_, ?_, ?_, ?_, ?_⟩ <;> decide +kernel

/-- Terms that are not well formed, part 6. -/
theorem smoke_refused6 :
    ¬ (Instr.configSync { slot := 8 } default).wf ∧ ¬ (Instr.grantSpare { slot := 8 } default).wf ∧ ¬
      (Instr.releaseSlot { slot := 8 } default).wf ∧ ¬ (Instr.getScheduleEntry { slot := 8 } default).wf ∧ ¬
      (Instr.getSyncState { slot := 8 } default).wf ∧ ¬ (Instr.configHierarchy { slot := 8 } default).wf ∧ ¬
      (Instr.configPair { slot := 8 } default).wf ∧ ¬ (Instr.arbitratePair { slot := 8 } default).wf ∧ ¬
      (Instr.dissolvePair { slot := 8 } default).wf ∧ ¬ (Instr.releaseLease { slot := 8 } default).wf ∧ ¬
      (Instr.setExport { slot := 8 } default).wf ∧ ¬ (Instr.setExport default { capsules := List.replicate 17 0 }).wf
      ∧ ¬ (Instr.setExport default { pose := List.replicate 8 0 }).wf ∧ ¬ (Instr.getPairState { slot := 8 }).wf ∧ ¬
      (Instr.getHierarchyState { slot := 8 }).wf ∧ ¬ (Instr.configSinPair { slot := 8 } default).wf ∧ ¬
      (Instr.configStops { slot := 8 } default).wf ∧ ¬ (Instr.configSls { slot := 8 } default).wf ∧ ¬ (Instr.configSls
      default { vSls := List.replicate 129 0 }).wf ∧ ¬ (Instr.configSls default { cSls := List.replicate 17 0 }).wf ∧
      ¬ (Instr.configStoEdm { slot := 8 } default).wf ∧ ¬ (Instr.configSbc { slot := 8 } default).wf ∧ ¬
      (Instr.configSafetyConn { slot := 8 } default).wf ∧ ¬ (Instr.configSsmReaction { slot := 8 } default).wf := by
  refine ⟨?_, ?_, ?_, ?_, ?_, ?_, ?_, ?_, ?_, ?_, ?_, ?_, ?_, ?_, ?_, ?_, ?_, ?_, ?_, ?_, ?_, ?_, ?_, ?_⟩ <;> decide +kernel

/-- Terms that are not well formed, part 7. -/
theorem smoke_refused7 :
    ¬ (Instr.getSetCheck { slot := 8 }).wf ∧ ¬ (Instr.commitSet { slot := 8 } default).wf ∧ ¬ (Instr.discardChanges
      { slot := 8 }).wf ∧ ¬ (Instr.loadSetImage { slot := 8 } default).wf ∧ ¬ (Instr.saveSetImage { slot := 8 }
      default).wf ∧ ¬ (Instr.brakeTest { slot := 8 } default).wf ∧ ¬ (Instr.getSafetyState { slot := 8 }).wf ∧ ¬
      (Instr.getConnState { slot := 8 } default).wf ∧ ¬ (Instr.setFaultPolicy { slot := 8 } default).wf ∧ ¬
      (Instr.retireChannel { slot := 8 } default).wf ∧ ¬ (Instr.clearRetirement { slot := 8 } default).wf ∧ ¬
      (Instr.getChannelState { slot := 8 } default).wf ∧ ¬ (Instr.getJournalState { slot := 8 }).wf ∧ ¬
      (Instr.journalMark { slot := 8 } default).wf ∧ ¬ (Instr.mbxSlotWrite (2 ^ 64) default default default).wf ∧ ¬
      (Instr.mbxOutDbRelease (2 ^ 64) default).wf ∧ ¬ (Instr.ctLatchRead (2 ^ 64)).wf ∧ ¬ (Instr.dpDataAccess (2 ^ 64)
      default).wf ∧ ¬ (Instr.dpBurstAccess (2 ^ 64) default).wf ∧ ¬ (Instr.dpErrClear (2 ^ 64) default).wf ∧ ¬
      (Instr.irqStatClear (2 ^ 64) default).wf ∧ ¬ (Instr.irqEnWrite (2 ^ 64) default).wf ∧ ¬ (Instr.msiEnable (2 ^
      64)).wf ∧ ¬ (Instr.healthClear (2 ^ 64) default).wf := by
  refine ⟨?_, ?_, ?_, ?_, ?_, ?_, ?_, ?_, ?_, ?_, ?_, ?_, ?_, ?_, ?_, ?_, ?_, ?_, ?_, ?_, ?_, ?_, ?_, ?_⟩ <;> decide +kernel

/-- Terms that are not well formed, part 8. -/
theorem smoke_refused8 :
    ¬ (Instr.registerWrite (2 ^ 64) default default).wf ∧ ¬ (Instr.extest (2 ^ 64)).wf ∧ ¬ (Instr.samplePreload (2 ^
      64)).wf ∧ ¬ (Instr.rstNLow (2 ^ 64) default).wf ∧ ¬ (Instr.boot (2 ^ 64) default).wf ∧ ¬ (Instr.pwrgoodLow (2 ^
      64) default).wf ∧ ¬ (Instr.vddCoreLoss (2 ^ 64)).wf ∧ ¬ (Instr.vddAonFall (2 ^ 64)).wf ∧ ¬
      (Instr.lockstepMismatch (2 ^ 64)).wf ∧ ¬ (Instr.watchdogLapse (2 ^ 64)).wf ∧ ¬ (Instr.xclkMissing (2 ^ 64)
      default).wf ∧ ¬ (Instr.perstNLow (2 ^ 64)).wf ∧ ¬ (Instr.wakeEvent (2 ^ 64) default).wf ∧ ¬ (Instr.domainWake (2
      ^ 64) default).wf ∧ ¬ (Instr.domainStop (2 ^ 64) default).wf ∧ ¬ (Instr.boundary (2 ^ 64) default).wf ∧ ¬
      (Instr.midPeriod (2 ^ 64)).wf ∧ ¬ (Instr.quarterPoint (2 ^ 64) default default).wf ∧ ¬ (Instr.taskRelease (2 ^
      64) default).wf ∧ ¬ (Instr.taskDispatch (2 ^ 64)).wf ∧ ¬ (Instr.taskComplete (2 ^ 64) default default).wf ∧ ¬
      (Instr.taskDeadline (2 ^ 64)).wf ∧ ¬ (Instr.backpressureRelease (2 ^ 64) default).wf ∧ ¬ (Instr.traceRecordWrite
      (2 ^ 64)).wf := by
  refine ⟨?_, ?_, ?_, ?_, ?_, ?_, ?_, ?_, ?_, ?_, ?_, ?_, ?_, ?_, ?_, ?_, ?_, ?_, ?_, ?_, ?_, ?_, ?_, ?_⟩ <;> decide +kernel

/-- Terms that are not well formed, part 9. -/
theorem smoke_refused9 :
    ¬ (Instr.ikMissLimit (2 ^ 64) default).wf ∧ ¬ (Instr.feedbackMissLimit (2 ^ 64) default).wf ∧ ¬
      (Instr.problemRunEnd (2 ^ 64) default default).wf ∧ ¬ (Instr.problemDeadline (2 ^ 64) default default).wf ∧ ¬
      (Instr.laneTest (2 ^ 64) default default).wf ∧ ¬ (Instr.separationInputsComplete (2 ^ 64)).wf ∧ ¬
      (Instr.sepMonitorDecision (2 ^ 64)).wf ∧ ¬ (Instr.passOverrun (2 ^ 64)).wf ∧ ¬ (Instr.islandDecision (2 ^
      64)).wf ∧ ¬ (Instr.msnDrdyEdge (2 ^ 64) default).wf ∧ ¬ (Instr.motionReadDone (2 ^ 64) default default
      default).wf ∧ ¬ (Instr.motionPortSilence (2 ^ 64) default).wf ∧ ¬ (Instr.deckInvalidTimeout (2 ^ 64)).wf ∧ ¬
      (Instr.loadFrameStale (2 ^ 64)).wf ∧ ¬ (Instr.ballastStatusStale (2 ^ 64)).wf ∧ ¬ (Instr.coreInterrupt (2 ^ 64)
      default default).wf ∧ ¬ (Instr.kernelBudget (2 ^ 64) default default).wf ∧ ¬ (Instr.syncFrame (2 ^ 64)
      { ch := 0, slot := 0, tObs := 0, form := .phy true false 0 [] }).wf ∧ ¬ (Instr.feedbackFrame (2 ^ 64)
      { ch := 0, slot := 0, tObs := 0, form := .phy true false 0 [] }).wf ∧ ¬ (Instr.safetyContainer (2 ^ 64)
      { ch := 0, slot := 0, tObs := 0, form := .phy true false 0 [] }).wf ∧ ¬ (Instr.paramResponse (2 ^ 64)
      { ch := 0, slot := 0, tObs := 0, form := .phy true false 0 [] }).wf ∧ ¬ (Instr.appFrame (2 ^ 64)
      { ch := 0, slot := 0, tObs := 0, form := .phy true false 0 [] }).wf ∧ ¬ (Instr.claimFrame (2 ^ 64)
      { ch := 0, slot := 0, tObs := 0, form := .phy true false 0 [] }).wf ∧ ¬ (Instr.dataFrame (2 ^ 64)
      { ch := 0, slot := 0, tObs := 0, form := .phy true false 0 [] }).wf := by
  refine ⟨?_, ?_, ?_, ?_, ?_, ?_, ?_, ?_, ?_, ?_, ?_, ?_, ?_, ?_, ?_, ?_, ?_, ?_, ?_, ?_, ?_, ?_, ?_, ?_⟩ <;> decide +kernel

/-- Terms that are not well formed, part 10. -/
theorem smoke_refused10 :
    ¬ (Instr.bucketDecay (2 ^ 64) default).wf ∧ ¬ (Instr.slotTransmit (2 ^ 64) default default default).wf ∧ ¬
      (Instr.syncCorrection (2 ^ 64) default).wf ∧ ¬ (Instr.listenTimeout (2 ^ 64) default).wf ∧ ¬ (Instr.backoffEnd
      (2 ^ 64) default).wf ∧ ¬ (Instr.phyLinkPoll (2 ^ 64) default default).wf ∧ ¬ (Instr.workerLost (2 ^ 64)
      default).wf ∧ ¬ (Instr.leaseGrant (2 ^ 64) default).wf ∧ ¬ (Instr.leaseRefuse (2 ^ 64) default).wf ∧ ¬
      (Instr.leaseRequestMsg (2 ^ 64) default).wf ∧ ¬ (Instr.leaseHealthMsg (2 ^ 64) default).wf ∧ ¬
      (Instr.leaseReleaseMsg (2 ^ 64) default).wf ∧ ¬ (Instr.arbiterDecision (2 ^ 64) default).wf ∧ ¬
      (Instr.leaseExpiry (2 ^ 64)).wf ∧ ¬ (Instr.mirrorLinkUp (2 ^ 64) default default).wf ∧ ¬ (Instr.mirrorPart (2 ^
      64) default).wf ∧ ¬ (Instr.mirrorAck (2 ^ 64) default default).wf ∧ ¬ (Instr.mirrorNack (2 ^ 64) default
      default).wf ∧ ¬ (Instr.mirrorRelease (2 ^ 64)).wf ∧ ¬ (Instr.mirrorLate (2 ^ 64)).wf ∧ ¬ (Instr.hostWatchdog (2
      ^ 64)).wf ∧ ¬ (Instr.sealAccepted (2 ^ 64) default default).wf ∧ ¬ (Instr.sinChange (2 ^ 64) default default).wf
      ∧ ¬ (Instr.sinDiscrepancy (2 ^ 64) default).wf := by
  refine ⟨?_, ?_, ?_, ?_, ?_, ?_, ?_, ?_, ?_, ?_, ?_, ?_, ?_, ?_, ?_, ?_, ?_, ?_, ?_, ?_, ?_, ?_, ?_, ?_⟩ <;> decide +kernel

/-- Terms that are not well formed, part 11. -/
theorem smoke_refused11 :
    ¬ (Instr.stoFbMismatch (2 ^ 64)).wf ∧ ¬ (Instr.stoTestPulse (2 ^ 64) default default).wf ∧ ¬ (Instr.edmMismatch (2
      ^ 64)).wf ∧ ¬ (Instr.permitLapse (2 ^ 64)).wf ∧ ¬ (Instr.crossMismatch (2 ^ 64) default).wf ∧ ¬
      (Instr.connectionFailed (2 ^ 64) default).wf ∧ ¬ (Instr.ss1TimeExpiry (2 ^ 64)).wf ∧ ¬ (Instr.stopDeadline (2 ^
      64)).wf ∧ ¬ (Instr.brakeTestPhase (2 ^ 64)).wf ∧ ¬ (Instr.brakeTestDue (2 ^ 64) default).wf ∧ ¬
      (Instr.brakePullInEnd (2 ^ 64) default).wf ∧ ¬ (Instr.brkFbChange (2 ^ 64) default default).wf ∧ ¬
      (Instr.brakeFbLate (2 ^ 64) default).wf ∧ ¬ (Instr.tripNFall (2 ^ 64) default default).wf ∧ ¬
      (Instr.pwmCarrierCycle (2 ^ 64) default default).wf ∧ ¬ (Instr.pwmCoarse (2 ^ 64) default default).wf ∧ ¬
      (Instr.stepPulse (2 ^ 64) default default).wf ∧ ¬ (Instr.chopIsnsHigh (2 ^ 64) default default).wf ∧ ¬
      (Instr.chopBlankEnd (2 ^ 64) default default default).wf ∧ ¬ (Instr.chopOffTimeEnd (2 ^ 64) default default).wf
      ∧ ¬ (Instr.chopOnTimeLimit (2 ^ 64) default default).wf ∧ ¬ (Instr.holdDelay (2 ^ 64) default).wf ∧ ¬
      (Instr.sdInputSilence (2 ^ 64) default).wf ∧ ¬ (Instr.pinChannelChange default default { since := 2 ^ 64 }).wf := by
  refine ⟨?_, ?_, ?_, ?_, ?_, ?_, ?_, ?_, ?_, ?_, ?_, ?_, ?_, ?_, ?_, ?_, ?_, ?_, ?_, ?_, ?_, ?_, ?_, ?_⟩ <;> decide +kernel

/-- Terms that are not well formed, part 12. -/
theorem smoke_refused12 :
    ¬ (Instr.pinChannelChange (2 ^ 64) default default).wf ∧ ¬ (Instr.skimRecordStore (2 ^ 64)).wf ∧ ¬
      (Instr.postTimeExpiry (2 ^ 64)).wf ∧ ¬ (Instr.armLineFall (2 ^ 64)).wf ∧ ¬ (Instr.armLineRise (2 ^ 64)).wf ∧ ¬
      (Instr.fireLineFall (2 ^ 64)).wf ∧ ¬ (Instr.firePulseEnd (2 ^ 64)).wf ∧ ¬ (Instr.journalWrite (2 ^ 64)).wf ∧ ¬
      (Instr.mbxInDbRing (2 ^ 64) default).wf ∧ ¬ (Instr.maintMsgUpdateDr (2 ^ 64) default).wf ∧ ¬ (Instr.stoFbChange
      (2 ^ 64) default default).wf ∧ ¬ (Instr.edmInChange (2 ^ 64) default default).wf ∧ ¬ (Instr.pwmCoarseClear (2 ^
      64) default default).wf ∧ ¬ (Instr.analogThresholdChange (2 ^ 64) default default).wf ∧ ¬
      (Instr.chopRefPwmPeriod (2 ^ 64) default default).wf ∧ ¬ (Instr.echo default { data := [0] }).wf ∧ ¬
      (Instr.mbxSlotWrite 0 0 1024 [0]).wf ∧ ¬ (Instr.dpDataAccess 0 { width := 4, write := some [] }).wf ∧ ¬
      (Instr.registerWrite 0 2 default).wf ∧ ¬ (Instr.boot 0 { durationCt := 2 ^ 64 }).wf ∧ ¬ (Instr.xclkMissing 0
      1).wf ∧ ¬ (Instr.wakeEvent 0 { boot := { durationCt := 2 ^ 64 } }).wf ∧ ¬ (Instr.taskComplete 0 0
      { cycles := 2 ^ 32 }).wf ∧ ¬ (Instr.problemDeadline 0 0 { complete := 65536 }).wf := by
  refine ⟨?_, ?_, ?_, ?_, ?_, ?_, ?_, ?_, ?_, ?_, ?_, ?_, ?_, ?_, ?_, ?_, ?_, ?_, ?_, ?_, ?_, ?_, ?_, ?_⟩ <;> decide +kernel

/-- Terms that are not well formed, part 13. -/
theorem smoke_refused13 :
    ¬ (Instr.motionReadDone 0 0 (List.replicate 65 0) []).wf ∧ ¬ (Instr.motionReadDone 0 0 [] (List.replicate 65
      0)).wf ∧ ¬ (Instr.syncFrame 0
      { ch := 0, slot := 0, tObs := 0, form := .phy true false 0x88B5 (List.replicate 1501 0) }).wf ∧ ¬
      (Instr.feedbackFrame 0
      { ch := 0, slot := 0, tObs := 0, form := .phy true false 0x88B5 (List.replicate 1501 0) }).wf ∧ ¬
      (Instr.safetyContainer 0
      { ch := 0, slot := 0, tObs := 0, form := .phy true false 0x88B5 (List.replicate 1501 0) }).wf ∧ ¬
      (Instr.paramResponse 0
      { ch := 0, slot := 0, tObs := 0, form := .phy true false 0x88B5 (List.replicate 1501 0) }).wf ∧ ¬
      (Instr.appFrame 0 { ch := 0, slot := 0, tObs := 0, form := .phy true false 0x88B5 (List.replicate 1501 0) }).wf
      ∧ ¬ (Instr.claimFrame 0
      { ch := 0, slot := 0, tObs := 0, form := .phy true false 0x88B5 (List.replicate 1501 0) }).wf ∧ ¬
      (Instr.dataFrame 0 { ch := 0, slot := 0, tObs := 0, form := .phy true false 0x88B5 (List.replicate 1501 0) }).wf
      ∧ ¬ (Instr.bucketDecay 0 0x0B00).wf ∧ ¬ (Instr.leaseGrant 0 { instant := 2 ^ 64 }).wf ∧ ¬ (Instr.leaseGrant 0
      { stamp := 2 ^ 64 }).wf ∧ ¬ (Instr.leaseRefuse 0 { instant := 2 ^ 64 }).wf ∧ ¬ (Instr.leaseRefuse 0
      { stamp := 2 ^ 64 }).wf ∧ ¬ (Instr.leaseRequestMsg 0 { instant := 2 ^ 64 }).wf ∧ ¬ (Instr.leaseRequestMsg 0
      { stamp := 2 ^ 64 }).wf ∧ ¬ (Instr.leaseHealthMsg 0 { instant := 2 ^ 64 }).wf ∧ ¬ (Instr.leaseHealthMsg 0
      { stamp := 2 ^ 64 }).wf ∧ ¬ (Instr.leaseReleaseMsg 0 { instant := 2 ^ 64 }).wf ∧ ¬ (Instr.leaseReleaseMsg 0
      { stamp := 2 ^ 64 }).wf ∧ ¬ (Instr.crossMismatch 0 1).wf ∧ ¬ (Instr.maintMsgUpdateDr 0 []).wf ∧ ¬
      (Instr.problemRunEnd 0 0 [0, 0, 0]).wf ∧ ¬ (Instr.problemRunEnd 0 0 [2 ^ 64]).wf := by
  refine ⟨?_, ?_, ?_, ?_, ?_, ?_, ?_, ?_, ?_, ?_, ?_, ?_, ?_, ?_, ?_, ?_, ?_, ?_, ?_, ?_, ?_, ?_, ?_, ?_⟩ <;> decide +kernel

/-- Terms that are not well formed, part 14. -/
theorem smoke_refused14 :
    ¬ (Instr.problemDeadline 0 0 { mism := [0, 0] }).wf ∧ ¬ (Instr.problemDeadline 0 0 { mism := [2 ^ 64] }).wf := by
  refine ⟨?_, ?_⟩ <;> decide +kernel

/-! ### Helpers -/

/-- A block in MEMB whose CRC is given passes R108 if its content does. -/
theorem blockCond_passes {d : Dev} {o n c : BitVec 32} {ok : Bool} {own : Option Status} {content : List Byte → Bool}
    (hc : c = crc32c (memRead d.host.memB o.toNat n.toNat))
    (h1 : ¬ (n.toNat < 8 ∨ 8388608 < n.toNat ∨ n.toNat % 8 ≠ 0)) (h2 : ¬ (o.toNat % 8 ≠ 0 ∨ 8388608 < o.toNat + n.toNat))
    (h3 : ¬ (d.power.domains.getD 13 .off = .off ∨ d.isRetired 0x0A 0)) (h4 : ok = true) (h5 : own = none)
    (h6 : content (memRead d.host.memB o.toNat n.toNat) = true) : d.blockCond o n c ok own content = none := by
  unfold Dev.blockCond Dev.block
  simp only [if_neg h1, if_neg h2, if_neg h3, h4, h5, h6, hc, ne_eq, not_true_eq_false, if_false, if_true, Bool.not_true, Bool.false_eq_true]

/-- A header of a message on the host link with a payload of `n` bytes. -/
def hd (n : Nat) : Hdr := { length := n }

/-- A header of a maintenance message. -/
def hm (n : Nat) : Hdr := { link := .maint, length := n }

/-- The device with its firmware running, in a mode, with every domain on. -/
def inMode (m : Mode) : State :=
  { dev := { power := { mode := m, domains := List.replicate 14 .running }
             boot := { fwRun := true, step := 0, rstLow := false, pwrLow := false } } }

/-- That device, changed. -/
def on (m : Mode) (f : Dev → Dev) : State := { dev := f (inMode m).dev }

/-- The device in RUN. -/
def st : State := inMode .run

/-- A bus frame of a type with a payload, at CT 0. -/
def frame (ty : Byte) (p : List Byte) : List Byte :=
  let b := [ty, 0] ++ leBytes 2 p.length ++ [0, 0, 0, 0, 0, 0, 0, 0, 0, 0, 0, 0] ++ p
  if ty = 0x0D then b else b ++ wordBytes (crc32c b)

/-- One arm of one joint, with limits, a position model and a torque slot. -/
def withArm (d : Dev) : Dev :=
  { d with
    arms := [(0, { cfg := some { joints := 1, vLin := 1, aLin := 1, vRot := 1, aRot := 1 } })]
    joints := [(0, { vmax := 1, amax := 1, pmin := -10, pmax := 10 })] }

/-- That arm with a torque slot on its joint. -/
def withSlot (d : Dev) : Dev :=
  { withArm d with loop := { joints := [(0, { cfg := some { kind := 3, missLimit := 1 } })] } }

/-- A message on the mailbox: GET_JOURNAL_STATE with a sequence number, its time field 0. -/
def mail (seq : Byte) : List Byte :=
  let b := [0x11, 0x0F, seq, 0, 0, 0, 0, 0, 0, 0, 0, 0, 0, 0, 0, 0]
  b ++ wordBytes (crc32c b)

/-- The device with a message in mailbox slot 0. -/
def mailed (m : List Byte) : Dev := { host := { slots := [(0, { inb := m })] } }

/-- The device with a message in mailbox slot 0 whose number is the one before that expected. -/
def repeated (last : Option (List Byte)) : Dev :=
  { host := { slots := [(0, { inb := mail 0 })], expect := 1, anyTaken := true, lastCrc := rd 32 (mail 0) 16, last := last } }

/-- The first bytes of an application frame of a load pose. -/
def poseHead : List Byte := [6, 0, 64, 0, 0, 0, 0, 0, 0, 0, 0, 0, 0, 0, 0, 0, 3] ++ List.replicate 31 0

/-- That frame, with its CRC. -/
def poseBytes : List Byte := poseHead ++ (List.replicate 32 0 ++ wordBytes (w := 32) 0xA22E5322)

/-- Its bytes pass the checks of R403. -/
theorem pose_unwrap : unwrap (.phy true false 0x88B5 poseBytes) = (.inr poseBytes, 0) := by
  have h1 : poseHead.foldl (crcByte 0x82F63B78) 0xFFFFFFFF = 0x83B1EE93 := by decide +kernel
  have h2 : (List.replicate 32 0).foldl (crcByte 0x82F63B78) 0x83B1EE93 = 0xA22E5322 ^^^ 0xFFFFFFFF := by decide +kernel
  have hc : crc32c (poseBytes.take (16 + 64)) = 0xA22E5322 := by
    have e : poseBytes.take (16 + 64) = poseHead ++ List.replicate 32 0 := by decide +kernel
    rw [e, crc32c, crcReflected, List.foldl_append, h1, h2]
    decide
  have hl : (rd 16 poseBytes 2).toNat = 64 := by decide +kernel
  have hj : ∀ fits : Nat → Bool, fits (frameSize poseBytes) = true → judgeBytes poseBytes fits = none := by
    intro fits hf
    unfold judgeBytes
    simp only [hl, hf, hc]
    rw [if_neg (by decide), if_neg (by decide +kernel)]
  unfold unwrap
  dsimp only
  rw [if_neg (by decide), if_neg (by decide)]
  rw [hj (fun size => decide (size = poseBytes.length) || (decide (size < 46) && decide (poseBytes.length = 46))) (by decide +kernel)]
  have e : poseBytes.take (frameSize poseBytes) = poseBytes := by decide +kernel
  simp only [e]

/-- A device that hears that frame in slot 0 of channel 0, a load frame of that slot defined. -/
def poseDev : State := on .run (fun d => { d with
  deck := { loadDef := some {} }
  bus := { chans := [(0, { mode := .phy })], sets := [{ state := .synced, entries := [(0, 0x50600000000)] }] } })

/-- That frame, received. -/
def poseIn : FrameIn := { ch := 0, slot := 0, tObs := 0, form := .phy true false 0x88B5 poseBytes }

/-- What a device takes in when it hears a frame that passes every check, on a channel of a set other than the worker set. -/
theorem hear_pass {d d1 d2 : Dev} {t : Nat} {f : FrameIn} {ty : BitVec 8} {b : List Byte} {fr : Frame} (h : d.hears f = true)
    (hl : (look d.bus.chans f.ch.val).mode ≠ .line) (hu : unwrap f.form = (.inr b, 0))
    (hc : d1 = (d.wakeDisp t).onChan f.ch.val (fun c => { c with
      corrected := c.corrected + BitVec.ofNat 32 0, area := (decodedBits f.form).getD c.area }))
    (hj : d1.judgeSlot f b = .pass fr)
    (hd : d2 = d1.onChan f.ch.val
      (fun c => { c with accepted := c.accepted + 1, retry := c.retry + BitVec.ofNat 32 (fr.flags.toNat % 2) }))
    (ht : fr.type = ty) (hs : f.ch.val / 2 ≠ 4) (hn : (fr.source, fr.seq) ∉ (d2.busSet (f.ch.val / 2)).seen) :
    d.hear t f ty = { dev := d2.onSet (f.ch.val / 2) (fun s => { s with seen := s.seen ++ [(fr.source, fr.seq)] }), frame := some fr } := by
  subst hd
  subst hc
  unfold Dev.hear
  simp only [h, hu, hj, ht, hl, hs, hn, Bool.not_true, Bool.false_eq_true, false_and, if_false, ne_eq, not_true_eq_false, decide_false]

/-! ### States and operands that meet the hypotheses of each statement -/

/-- The hypotheses of each clause of HostReadsAnswerWithTheTableLength can be met. -/
theorem witness_HostReadsAnswerWithTheTableLength :
    (∃ (h : Hdr) (s : State), (h.length ≤ 1000) ∧ (Serves 0x0100 h.length .both awake h s))
    ∧ (∃ (h : Hdr) (s : State), (Serves 0x0113 0 (.both) awake h s) ∧ (Accepted (semGetPowerState h) h s))
    ∧ (∃ (h : Hdr) (s : State), (Serves 0x0114 0 (.both) awake h s) ∧ (Accepted (semGetBootReport h) h s))
    ∧ (∃ (h : Hdr) (s : State), (Serves 0x0115 0 (.both) awake h s) ∧ (Accepted (semGetFuses h) h s))
    ∧ (∃ (h : Hdr) (p : MaintRead) (s : State), (Serves 0x0122 12 (.maintOnly) awake h s) ∧ (Accepted (semMaintRead h
      p) h s) ∧ (p.space = 8))
    ∧ (∃ (h : Hdr) (p : MaintRead) (s : State), (Serves 0x0122 12 (.maintOnly) awake h s) ∧ (Accepted (semMaintRead h
      p) h s) ∧ (p.space ≠ 8)) :=
  ⟨⟨hd 0, st, by unfold Serves; decide +kernel⟩,
   ⟨hd 0, st, by unfold Serves Accepted; decide +kernel⟩,
   ⟨hd 0, st, by unfold Serves Accepted; decide +kernel⟩,
   ⟨hd 0, st, by unfold Serves Accepted; decide +kernel⟩,
   ⟨hm 12, { space := 8, length := 8 }, st, by unfold Serves Accepted; decide +kernel⟩,
   ⟨hm 12, { space := 3, length := 4 }, st, by unfold Serves Accepted; decide +kernel⟩⟩

/-- The hypotheses of each clause of EngineReadsAnswerAndChangeNothing can be met. -/
theorem witness_EngineReadsAnswerAndChangeNothing :
    (∃ (h : Hdr) (p : GetArmState) (s : State), (Serves 0x0230 4 (.both) awake h s) ∧ (Accepted (semGetArmState h p) h
      s))
    ∧ (∃ (h : Hdr) (p : GetProblemResult) (s : State) (q : Problem), (look s.dev.solver.problems p.id.toNat = some q)
      ∧ (Serves 0x0510 4 .both awake h s) ∧ (Accepted (semGetProblemResult h p) h s))
    ∧ (∃ (h : Hdr) (p : GetProblemDescriptor) (s : State) (q : Problem), (look s.dev.solver.problems p.id.toNat = some
      q) ∧ (Serves 0x0511 4 .both awake h s) ∧ (Accepted (semGetProblemDescriptor h p) h s))
    ∧ (∃ (h : Hdr) (p : GetLaneState) (s : State), (Serves 0x0512 4 (.both) awake h s) ∧ (Accepted (semGetLaneState h
      p) h s))
    ∧ (∃ (h : Hdr) (p : GetPanState) (s : State), (Serves 0x0610 4 (.both) awake h s) ∧ (Accepted (semGetPanState h p)
      h s))
    ∧ (∃ (h : Hdr) (p : GetPairResult) (s : State), (Serves 0x0611 4 (.both) awake h s) ∧ (Accepted (semGetPairResult
      h p) h s))
    ∧ (∃ (h : Hdr) (p : GetObjectState) (s : State), (Serves 0x0612 4 (.both) awake h s) ∧ (Accepted
      (semGetObjectState h p) h s))
    ∧ (∃ (h : Hdr) (p : GetInjectionState) (s : State), (Serves 0x0402 4 (.both) awake h s) ∧ (Accepted
      (semGetInjectionState h p) h s))
    ∧ (∃ (h : Hdr) (p : GetCoreState) (s : State), (Serves 0x0810 4 (.both) awake h s) ∧ (Accepted (semGetCoreState h
      p) h s))
    ∧ (∃ (h : Hdr) (p : GetKernelState) (s : State), (Serves 0x0811 4 (.both) awake h s) ∧ (Accepted
      (semGetKernelState h p) h s))
    ∧ (∃ (h : Hdr) (s : State), (Serves 0x0910 0 (.both) awake h s) ∧ (Accepted (semGetDispatchState h) h s))
    ∧ (∃ (h : Hdr) (p : GetEventEntry) (s : State), (Serves 0x0911 4 (.both) awake h s) ∧ (Accepted (semGetEventEntry
      h p) h s)) :=
  ⟨⟨hd 4, default, (on .run withArm), by unfold Serves Accepted; decide +kernel⟩,
   ⟨hd 4, { id := 192 }, (on .run (fun d => { d with solver := { problems := [(192, some {})] } })), {},
     by unfold Serves Accepted; decide +kernel⟩,
   ⟨hd 4, { id := 192 }, (on .run (fun d => { d with solver := { problems := [(192, some {})] } })), {},
     by unfold Serves Accepted; decide +kernel⟩,
   ⟨hd 4, default, st, by unfold Serves Accepted; decide +kernel⟩,
   ⟨hd 4, default, st, by unfold Serves Accepted; decide +kernel⟩,
   ⟨hd 4, default, st, by unfold Serves Accepted; decide +kernel⟩,
   ⟨hd 4, default, st, by unfold Serves Accepted; decide +kernel⟩,
   ⟨hd 4, default, st, by unfold Serves Accepted; decide +kernel⟩,
   ⟨hd 4, default, st, by unfold Serves Accepted; decide +kernel⟩,
   ⟨hd 4, default, st, by unfold Serves Accepted; decide +kernel⟩,
   ⟨hd 0, st, by unfold Serves Accepted; decide +kernel⟩,
   ⟨hd 4, default, st, by unfold Serves Accepted; decide +kernel⟩⟩

/-- The hypotheses of each clause of PeripheralReadsAnswerAndChangeNothing can be met. -/
theorem witness_PeripheralReadsAnswerAndChangeNothing :
    (∃ (h : Hdr) (s : State), (Serves 0x0720 0 (.both) awake h s) ∧ (Accepted (semGetDeckState h) h s))
    ∧ (∃ (h : Hdr) (p : GetHeelState) (s : State), (Serves 0x0721 4 (.both) awake h s) ∧ (Accepted (semGetHeelState h
      p) h s))
    ∧ (∃ (h : Hdr) (s : State), (Serves 0x0A20 0 (.both) awake h s) ∧ (Accepted (semGetCaptureState h) h s))
    ∧ (∃ (h : Hdr) (p : GetPwmState) (s : State), (Serves 0x0B43 4 (.both) awake h s) ∧ (Accepted (semGetPwmState h p)
      h s))
    ∧ (∃ (h : Hdr) (p : GetBrakeState) (s : State), (Serves 0x0B51 4 (.both) awake h s) ∧ (Accepted (semGetBrakeState
      h p) h s))
    ∧ (∃ (h : Hdr) (p : GetScheduleEntry) (s : State), (Serves 0x0C50 4 (.both) awake h s) ∧ (Accepted
      (semGetScheduleEntry h p) h s))
    ∧ (∃ (h : Hdr) (p : GetSyncState) (s : State), (Serves 0x0C51 4 (.both) awake h s) ∧ (Accepted (semGetSyncState h
      p) h s))
    ∧ (∃ (h : Hdr) (s : State), (Serves 0x0D10 0 (.both) awake h s) ∧ (Accepted (semGetPairState h) h s))
    ∧ (∃ (h : Hdr) (s : State), (Serves 0x0E30 0 (.both) awake h s) ∧ (Accepted (semGetSafetyState h) h s))
    ∧ (∃ (h : Hdr) (p : GetChannelState) (s : State), (Serves 0x0F10 4 (.both) awake h s) ∧ (Accepted
      (semGetChannelState h p) h s))
    ∧ (∃ (h : Hdr) (s : State), (Serves 0x0F11 0 (.both) awake h s) ∧ (Accepted (semGetJournalState h) h s)) :=
  ⟨⟨hd 0, st, by unfold Serves Accepted; decide +kernel⟩,
   ⟨hd 4, default, st, by unfold Serves Accepted; decide +kernel⟩,
   ⟨hd 0, st, by unfold Serves Accepted; decide +kernel⟩,
   ⟨hd 4, default, st, by unfold Serves Accepted; decide +kernel⟩,
   ⟨hd 4, default, st, by unfold Serves Accepted; decide +kernel⟩,
   ⟨hd 4, default, st, by unfold Serves Accepted; decide +kernel⟩,
   ⟨hd 4, default, st, by unfold Serves Accepted; decide +kernel⟩,
   ⟨hd 0, st, by unfold Serves Accepted; decide +kernel⟩,
   ⟨hd 0, st, by unfold Serves Accepted; decide +kernel⟩,
   ⟨hd 4, { channel := 0x0100 }, st, by unfold Serves Accepted; decide +kernel⟩,
   ⟨hd 0, st, by unfold Serves Accepted; decide +kernel⟩⟩

/-- The hypotheses of each clause of ReadsThatClearClearWhatTheyReport can be met. -/
theorem witness_ReadsThatClearClearWhatTheyReport :
    (∃ (h : Hdr) (p : GetNotices) (s : State), (Serves 0x0101 4 (.both) awake h s) ∧ (Accepted (semGetNotices h p) h
      s))
    ∧ (∃ (h : Hdr) (p : GetSlotState) (s : State), (Serves 0x0330 4 (.both) awake h s) ∧ (Accepted (semGetSlotState h
      p) h s) ∧ (p.kind = 0))
    ∧ (∃ (h : Hdr) (p : GetSlotState) (s : State), (Serves 0x0330 4 (.both) awake h s) ∧ (Accepted (semGetSlotState h
      p) h s) ∧ (p.kind = 1))
    ∧ (∃ (h : Hdr) (p : GetSlotState) (s : State), (Serves 0x0330 4 (.both) awake h s) ∧ (Accepted (semGetSlotState h
      p) h s) ∧ (p.kind = 2))
    ∧ (∃ (h : Hdr) (p : GetRateState) (s : State), (Serves 0x0B02 4 (.both) awake h s) ∧ (Accepted (semGetRateState h
      p) h s))
    ∧ (∃ (h : Hdr) (p : GetBusStats) (s : State), (Serves 0x0C20 4 (.both) awake h s) ∧ (Accepted (semGetBusStats h p)
      h s) ∧ (p.clear = 1))
    ∧ (∃ (h : Hdr) (p : GetBusStats) (s : State), (Serves 0x0C20 4 (.both) awake h s) ∧ (Accepted (semGetBusStats h p)
      h s) ∧ (p.clear = 0))
    ∧ (∃ (h : Hdr) (p : GetConnState) (s : State), (Serves 0x0E31 4 (.both) awake h s) ∧ (Accepted (semGetConnState h
      p) h s))
    ∧ (∃ (h : Hdr) (s : State), (Serves 0x0E10 0 (.both) awake h s) ∧ (Accepted (semGetSetCheck h) h s))
    ∧ (∃ (h : Hdr) (s : State), (Serves 0x0D11 0 (.both) awake h s) ∧ (Accepted (semGetHierarchyState h) h s)) :=
  ⟨⟨hd 4, { max := 1 }, st, by unfold Serves Accepted; decide +kernel⟩,
   ⟨hd 4, default, (on .run withSlot), by unfold Serves Accepted; decide +kernel⟩,
   ⟨hd 4, { kind := 1 }, (on .run (fun d => { d with loop := { arms := [(0, { cfg := some { law := 1 } })] } })),
     by unfold Serves Accepted; decide +kernel⟩,
   ⟨hd 4, { kind := 2 }, (on .run (fun d => { d with loop := { currents := [(0, { cfg := some {} })] } })),
     by unfold Serves Accepted; decide +kernel⟩,
   ⟨hd 4, default, st, by unfold Serves Accepted; decide +kernel⟩,
   ⟨hd 4, { clear := 1 }, st, by unfold Serves Accepted; decide +kernel⟩,
   ⟨hd 4, default, st, by unfold Serves Accepted; decide +kernel⟩,
   ⟨hd 4, default, st, by unfold Serves Accepted; decide +kernel⟩,
   ⟨hd 0, st, by unfold Serves Accepted; decide +kernel⟩,
   ⟨hd 0, (on .run (fun d => { d with boot := { d.boot with role := 1 } })),
     by unfold Serves Accepted; decide +kernel⟩⟩

/-- The hypotheses of each clause of SystemCommandsTakeEffect can be met. -/
theorem witness_SystemCommandsTakeEffect :
    (∃ (h : Hdr) (p : SetHostWatchdog) (s : State), (Serves 0x0102 8 (.hostOnly) [.ready, .commission, .safeOff] h s)
      ∧ (Accepted (semSetHostWatchdog h p) h s))
    ∧ (∃ (h : Hdr) (p : SetMode) (s : State), (Serves 0x0110 4 (.write 816 true (p.target == 6)) awake h s) ∧
      (Accepted (semSetMode h p) h s))
    ∧ (∃ (h : Hdr) (p : SetWake) (s : State), (Serves 0x0111 12 (.hostOnly) [.ready, .safeOff] h s) ∧ (Accepted
      (semSetWake h p) h s))
    ∧ (∃ (h : Hdr) (p : SetDomains) (s : State), (Serves 0x0112 4 (.hostOnly) [.ready] h s) ∧ (Accepted (semSetDomains
      h p) h s))
    ∧ (∃ (h : Hdr) (p : DeviceReset) (s : State), (Serves 0x0117 4 (.write 818 true true) [.ready, .safeOff] h s) ∧
      (Accepted (semDeviceReset h p) h s))
    ∧ (∃ (h : Hdr) (p : SetTiming) (s : State), (Serves 0x0120 4 (.hostOnly) [.ready] h s) ∧ (Accepted (semSetTiming h
      p) h s))
    ∧ (∃ (h : Hdr) (p : SetPolicy) (s : State), (Serves 0x0121 4 (.hostOnly) [.commission] h s) ∧ (Accepted
      (semSetPolicy h p) h s))
    ∧ (∃ (h : Hdr) (p : RunSelftest) (s : State), (Serves 0x0123 4 (.write 819 false true) [.ready] h s) ∧ (Accepted
      (semRunSelftest h p) h s)) :=
  ⟨⟨hd 8, default, (inMode .ready), by unfold Serves Accepted; decide +kernel⟩,
   ⟨hd 4, { target := 5 }, st, by unfold Serves Accepted; decide +kernel⟩,
   ⟨hd 12, { sources := 1 }, (inMode .ready), by unfold Serves Accepted; decide +kernel⟩,
   ⟨hd 4, default, (inMode .ready), by unfold Serves Accepted; decide +kernel⟩,
   ⟨hd 4, { key := 0x52534554 }, (inMode .ready), by unfold Serves Accepted; decide +kernel⟩,
   ⟨hd 4, { tc := 0, nSep := 4 }, (inMode .ready), by unfold Serves Accepted; decide +kernel⟩,
   ⟨hd 4, default, (inMode .commission), by unfold Serves Accepted; decide +kernel⟩,
   ⟨hm 4, { blocks := 1 }, (inMode .ready), by unfold Serves Accepted; decide +kernel⟩⟩

/-- The hypotheses of each clause of FuseCommandsBlowTheirBits can be met. -/
theorem witness_FuseCommandsBlowTheirBits :
    (∃ (h : Hdr) (p : FuseProgram) (s : State), (Serves 0x0119 12 (.write 822 false true) [.ready, .safeOff] h s) ∧
      (Accepted (semFuseProgram h p) h s))
    ∧ (∃ (h : Hdr) (s : State), (Serves 0x0116 0 (.bothUnless 822) [.commission] h s) ∧ (Accepted (semAdvanceRollback
      h) h s))
    ∧ (∃ (h : Hdr) (p : FuseProgram) (s : State) (t : State), (exec (.fuseProgram h p) s = .next t))
    ∧ (∃ (h : Hdr) (s : State) (t : State), (exec (.advanceRollback h) s = .next t)) :=
  ⟨⟨hm 12, { row := 6, mask := 1 }, (inMode .ready), by unfold Serves Accepted; decide +kernel⟩,
   ⟨hd 0, (inMode .commission), by unfold Serves Accepted; decide +kernel⟩,
   ⟨hd 0, default, st, _, rfl⟩,
   ⟨hd 0, st, _, rfl⟩⟩

/-- The hypotheses of each clause of ArmCommandsQueueTheirEffect can be met. -/
theorem witness_ArmCommandsQueueTheirEffect :
    (∃ (h : Hdr) (p : ConfigArm) (s : State), (Serves 0x0200 24 (.hostOnly) [.ready] h s) ∧ (Accepted (semConfigArm h
      p) h s))
    ∧ (∃ (h : Hdr) (p : SetJointLimits) (s : State), (Serves 0x0201 28 (.hostOnly) [.ready] h s) ∧ (Accepted
      (semSetJointLimits h p) h s))
    ∧ (∃ (h : Hdr) (p : SetScaling) (s : State), (Serves 0x0202 8 (.hostOnly) [.ready, .run, .hold, .tune] h s) ∧
      (Accepted (semSetScaling h p) h s))
    ∧ (∃ (h : Hdr) (p : StopArms) (s : State), (Serves 0x0220 4 (.hostOnly) [.run, .hold] h s) ∧ (Accepted
      (semStopArms h p) h s))
    ∧ (∃ (h : Hdr) (p : ResumeArms) (s : State), (Serves 0x0221 4 (.hostOnly) [.run] h s) ∧ (Accepted (semResumeArms h
      p) h s))
    ∧ (∃ (h : Hdr) (p : FlushQueue) (s : State), (Serves 0x0222 4 (.hostOnly) [.ready, .run, .hold, .safeOff] h s) ∧
      (Accepted (semFlushQueue h p) h s))
    ∧ (∃ (h : Hdr) (p : AppendJointMove) (s : State), (Serves 0x0210 112 (.hostOnly) [.ready, .run, .hold] h s) ∧
      (Accepted (semAppendJointMove h p) h s))
    ∧ (∃ (h : Hdr) (p : AppendCartMove) (s : State), (Serves 0x0211 48 (.hostOnly) [.ready, .run, .hold] h s) ∧
      (Accepted (semAppendCartMove h p) h s)) :=
  ⟨⟨hd 24, default, (inMode .ready), by unfold Serves Accepted; decide +kernel⟩,
   ⟨hd 28, { vmax := 1, amax := 1, pmin := 0, pmax := 1 }, (on .ready withArm),
     by unfold Serves Accepted; decide +kernel⟩,
   ⟨hd 8, { arms := 1, sHost := 0x8000, slew := 1 }, (on .ready withArm), by unfold Serves Accepted; decide +kernel⟩,
   ⟨hd 4, { arms := 1, flush := 1 }, (on .run withArm), by unfold Serves Accepted; decide +kernel⟩,
   ⟨hd 4, { arms := 1 }, (on .run withArm), by unfold Serves Accepted; decide +kernel⟩,
   ⟨hd 4, { arms := 1 }, (on .ready withArm), by unfold Serves Accepted; decide +kernel⟩,
   ⟨hd 112, { vfrac := 0x8000, afrac := 1, targets := 10 :: List.replicate 11 0 }, (on .ready withArm),
     by unfold Serves Accepted; decide +kernel⟩,
   ⟨hd 48, { vfrac := 1, afrac := 1, qw := 0x40000000 }, (on .ready (fun d =>
     { withArm d with kin := [(0, { model := some (List.replicate 16 255) })] })),
     by unfold Serves Accepted; decide +kernel⟩⟩

/-- The hypotheses of each clause of LoopAndTuningCommandsTakeEffect can be met. -/
theorem witness_LoopAndTuningCommandsTakeEffect :
    (∃ (h : Hdr) (p : ConfigJointSlot) (s : State), (Serves 0x0300 16 (.hostOnly) [.ready] h s) ∧ (Accepted
      (semConfigJointSlot h p) h s))
    ∧ (∃ (h : Hdr) (p : ConfigArmSlot) (s : State), (Serves 0x0301 12 (.hostOnly) [.ready] h s) ∧ (Accepted
      (semConfigArmSlot h p) h s))
    ∧ (∃ (h : Hdr) (p : ConfigCurrentSlot) (s : State), (Serves 0x0302 24 (.hostOnly) [.ready] h s) ∧ (Accepted
      (semConfigCurrentSlot h p) h s))
    ∧ (∃ (h : Hdr) (p : SetArmTarget) (s : State), (Serves 0x0303 28 (.hostOnly) [.run, .hold, .tune] h s) ∧ (Accepted
      (semSetArmTarget h p) h s))
    ∧ (∃ (h : Hdr) (p : SetSlotMode) (s : State), (Serves 0x0320 8 (.hostOnly) [.run, .tune] h s) ∧ (Accepted
      (semSetSlotMode h p) h s))
    ∧ (∃ (h : Hdr) (p : LoadBank) (s : State), (Serves 0x0310 (4 + recordSize p.kind.toNat) (.hostOnly) bankModes h s)
      ∧ (Accepted (semLoadBank h p) h s) ∧ (p.kind.toNat ≤ 2))
    ∧ (∃ (h : Hdr) (s : State), (Serves 0x0312 0 (.hostOnly) bankModes h s) ∧ (Accepted (semCopyBank h) h s))
    ∧ (∃ (h : Hdr) (p : SwapBanks) (s : State), (Serves 0x0313 4 (.hostOnly) bankModes h s) ∧ (Accepted (semSwapBanks
      h p) h s))
    ∧ (∃ (h : Hdr) (p : StartInjection) (s : State), (Serves 0x0400 96 (.hostOnly) [.tune] h s) ∧ (Accepted
      (semStartInjection h p) h s) ∧ ((look s.dev.tuning.inj (slotKey p.kind p.index)).phase ≠ .running))
    ∧ (∃ (h : Hdr) (p : StopInjection) (s : State), (Serves 0x0401 4 (.hostOnly) [.tune] h s) ∧ (Accepted
      (semStopInjection h p) h s))
    ∧ (∃ (h : Hdr) (p : SetRetuneBounds) (s : State), (Serves 0x0410 36 (.hostOnly) [.ready, .hold, .tune] h s) ∧
      (Accepted (semSetRetuneBounds h p) h s)) :=
  ⟨⟨hd 16, { kind := 3, missLimit := 8, uMin := -1, uMax := 1 }, (on .ready withArm),
    by unfold Serves Accepted; decide +kernel⟩,
   ⟨hd 12, { law := 2, axes := 0x3F, fLim := 1, mLim := 1 }, (on .ready (fun d =>
     { withSlot d with boot := { d.boot with models := [[0, 1]] } })), by unfold Serves Accepted; decide +kernel⟩,
   ⟨hd 24, { group := 7, polePairs := 64, kt := 1, iScale := 1, iMax := 1, vDc := 1 }, (on .ready withSlot),
     by unfold Serves Accepted; decide +kernel⟩,
   ⟨hd 28, default, (on .run (fun d => { d with loop := { arms := [(0, { cfg := some { law := 2 } })] } })),
     by unfold Serves Accepted; decide +kernel⟩,
   ⟨hd 8, default, (inMode .run), by unfold Serves Accepted; decide +kernel⟩,
   ⟨hd 220, { record := List.replicate 216 0 }, (inMode .ready), by unfold Serves Accepted; decide +kernel⟩,
   ⟨hd 0, st, by unfold Serves Accepted; decide +kernel⟩,
   ⟨hd 4, default, st, by unfold Serves Accepted; decide +kernel⟩,
   ⟨hd 96, { n := 1, excLimit := 1, velLimit := 1, cInj := 0xFF, cOut := 0xFF, cFb := 0xFF }, (on .tune (fun d =>
     withSlot d)), by unfold Serves Accepted; decide +kernel⟩,
   ⟨hd 4, default, (inMode .tune), by unfold Serves Accepted; decide +kernel⟩,
   ⟨hd 36, { omegaC := 1 }, (on .tune withSlot), by unfold Serves Accepted; decide +kernel⟩⟩

/-- The hypotheses of each clause of SolverAndKernelCommandsTakeEffect can be met. -/
theorem witness_SolverAndKernelCommandsTakeEffect :
    (∃ (h : Hdr) (p : DefineProblem) (s : State), (Serves 0x0500 48 (.hostOnly) [.ready] h s) ∧ (Accepted
      (semDefineProblem h p) h s))
    ∧ (∃ (h : Hdr) (p : RemoveProblem) (s : State), (Serves 0x0501 4 (.hostOnly) [.ready] h s) ∧ (Accepted
      (semRemoveProblem h p) h s))
    ∧ (∃ (h : Hdr) (p : SetProblemInput) (s : State) (q : DefineProblem), (s.dev.problemView p.id.toNat = some q) ∧
      (Serves 0x0502 (4 + 4 * inputWords q.n.toNat) .hostOnly [.commission, .ready, .run, .tune, .hold, .safeOff] h s)
      ∧ (Accepted (semSetProblemInput h p s.dev) h s))
    ∧ (∃ (h : Hdr) (p : LoadKernel) (s : State), (Serves 0x0800 28 (.hostOnly) [.ready] h s) ∧ (Accepted
      (semLoadKernel h p) h s))
    ∧ (∃ (h : Hdr) (p : RemoveKernel) (s : State), (Serves 0x0801 4 (.hostOnly) [.ready] h s) ∧ (Accepted
      (semRemoveKernel h p) h s))
    ∧ (∃ (h : Hdr) (p : RunKernel) (s : State), (Serves 0x0802 4 (.hostOnly) working h s) ∧ (Accepted (semRunKernel h
      p) h s) ∧ (((look (s.dev.take h).sig.kernels p.slot.toNat).pending || (look (s.dev.take h).sig.kernels
      p.slot.toNat).running || (s.dev.take h).pressedNow (0x700 + p.slot.toNat)) = false))
    ∧ (∃ (h : Hdr) (p : RunKernel) (s : State), (Serves 0x0802 4 .hostOnly working h s) ∧ (Accepted (semRunKernel h p)
      h s) ∧ (((look (s.dev.take h).sig.kernels p.slot.toNat).pending || (look (s.dev.take h).sig.kernels
      p.slot.toNat).running || (s.dev.take h).pressedNow (0x700 + p.slot.toNat)) = true))
    ∧ (∃ (h : Hdr) (p : AssignVendor) (s : State), (Serves 0x0803 8 (.hostOnly) [.ready, .safeOff] h s) ∧ (Accepted
      (semAssignVendor h p) h s))
    ∧ (∃ (h : Hdr) (p : SetTrace) (s : State), (Serves 0x0900 8 (.write 820 true true) working h s) ∧ (Accepted
      (semSetTrace h p) h s))
    ∧ (∃ (h : Hdr) (p : TraceMark) (s : State), (Serves 0x0901 4 (.write 820 true true) awake h s) ∧ (Accepted
      (semTraceMark h p) h s))
    ∧ (∃ (h : Hdr) (p : CancelTask) (s : State), (Serves 0x0920 4 (.hostOnly) working h s) ∧ (Accepted (semCancelTask
      h p) h s)) :=
  ⟨⟨hd 48,
    { id := 192, template := 0x10, n := 1, outerCap := 1, group := 0xFF, boundA := 1, boundB := 1, dlOff := 1 },
    (inMode .ready), by unfold Serves Accepted; decide +kernel⟩,
   ⟨hd 4, { id := 192 }, (on .ready (fun d => { d with solver := { problems := [(192, some {})] } })),
     by unfold Serves Accepted; decide +kernel⟩,
   ⟨hd 12, { id := 192, words := [0, 0] }, (on .ready (fun d =>
     { d with solver := { problems := [(192, some { desc := { id := 192, n := 1 } })] } })), { id := 192, n := 1 },
     by unfold Serves Accepted; decide +kernel⟩,
   ⟨hd 28, { priority := 4, group := 0xFF, length := 8, budget := 1, crc := crc32c (List.replicate 8 0) }, (inMode
     .ready), by unfold Serves Accepted; decide +kernel⟩,
   ⟨hd 4, default, (on .ready (fun d => { d with sig := { kernels := [(0, { cfg := some {} })] } })),
     by unfold Serves Accepted; decide +kernel⟩,
   ⟨hd 4, default, (on .run (fun d => { d with sig := { kernels := [(0, { cfg := some { run := 2 } })] } })),
     by unfold Serves Accepted; decide +kernel⟩,
   ⟨hd 4, {}, (on .ready (fun d =>
     { d with sig := { kernels := [(0, { cfg := some { run := 2 }, pending := true })] } })),
     by unfold Serves Accepted; decide +kernel⟩,
   ⟨hd 8, { kernel := 6 }, (inMode .ready), by unfold Serves Accepted; decide +kernel⟩,
   ⟨hd 8, default, st, by unfold Serves Accepted; decide +kernel⟩,
   ⟨hd 4, default, st, by unfold Serves Accepted; decide +kernel⟩,
   ⟨hd 4, { kind := 1, id := 7 }, (on .run (fun d => { d with sig := { kernels := [(7, { cfg := some {} })] } })),
     by unfold Serves Accepted; decide +kernel⟩⟩

/-- The hypotheses of each clause of SafetySetCommandsEditTheCandidate can be met. -/
theorem witness_SafetySetCommandsEditTheCandidate :
    (∃ (h : Hdr) (p : ConfigSeparation) (s : State), (Serves 0x0600 8 (.hostOnly) [.commission] h s) ∧ (Accepted
      (semConfigSeparation h p) h s))
    ∧ (∃ (h : Hdr) (p : DefinePan) (s : State), (Serves 0x0601 4 (.hostOnly) [.commission] h s) ∧ (Accepted
      (semDefinePan h p) h s))
    ∧ (∃ (h : Hdr) (p : SetParamSet) (s : State), (Serves 0x0602 36 (.hostOnly) [.commission] h s) ∧ (Accepted
      (semSetParamSet h p) h s))
    ∧ (∃ (h : Hdr) (p : LoadCapsules) (s : State), (Serves 0x0604 16 (.hostOnly) [.commission] h s) ∧ (Accepted
      (semLoadCapsules h p) h s))
    ∧ (∃ (h : Hdr) (p : LoadPairs) (s : State), (Serves 0x0605 16 (.hostOnly) [.commission] h s) ∧ (Accepted
      (semLoadPairs h p) h s))
    ∧ (∃ (h : Hdr) (p : SetObjectSource) (s : State), (Serves 0x0607 12 (.hostOnly) [.commission, .ready] h s) ∧
      (Accepted (semSetObjectSource h p) h s) ∧ (s.dev.power.mode = .ready))
    ∧ (∃ (h : Hdr) (p : SetObjectSource) (s : State), (Serves 0x0607 12 (.hostOnly) [.commission, .ready] h s) ∧
      (Accepted (semSetObjectSource h p) h s) ∧ (s.dev.power.mode ≠ .ready))
    ∧ (∃ (h : Hdr) (p : LoadSetImage) (s : State), (Serves 0x0E13 12 (.hostOnly) [.commission] h s) ∧ (Accepted
      (semLoadSetImage h p) h s))
    ∧ (∃ (h : Hdr) (s : State), (Serves 0x0E12 0 (.hostOnly) [.commission] h s) ∧ (Accepted (semDiscardChanges h) h
      s))
    ∧ (∃ (h : Hdr) (p : SaveSetImage) (s : State), (Serves 0x0E14 4 (.hostOnly) [.ready, .safeOff, .commission] h s) ∧
      (Accepted (semSaveSetImage h p) h s)) :=
  ⟨⟨hd 8, { inCut := 1024 }, (inMode .commission), by unfold Serves Accepted; decide +kernel⟩,
   ⟨hd 4, default, (inMode .commission), by unfold Serves Accepted; decide +kernel⟩,
   ⟨hd 36, { tS := 1 }, (inMode .commission), by unfold Serves Accepted; decide +kernel⟩,
   ⟨hd 16, { count := 1, length := 32, crc := crc32c (memRead [(28, 1)] 0 32) }, (on .commission (fun d =>
     { d with host := { memB := [(28, 1)] }, safety := { candidate := [(itemKey 0x0603 0, [0, 1])] } })),
     by unfold Serves Accepted; decide +kernel⟩,
   ⟨hd 16, { length := 8, count := 1, crc := crc32c (List.replicate 8 0) }, (inMode .commission),
     by unfold Serves Accepted; decide +kernel⟩,
   ⟨hd 12, { age := 1 }, (inMode .ready), by unfold Serves Accepted; decide +kernel⟩,
   ⟨hd 12, { age := 1 }, (inMode .commission), by unfold Serves Accepted; decide +kernel⟩,
   ⟨hd 12, { length := 16, crc := crc32c [0, 6, 0, 0, 8, 0, 0, 0, 0, 4, 0, 0, 0, 0, 0, 0] }, (on .commission (fun d =>
     { d with host := { memB := [(1, 6), (4, 8), (9, 4)] } })), by unfold Serves Accepted; decide +kernel⟩,
   ⟨hd 0, (inMode .commission), by unfold Serves Accepted; decide +kernel⟩,
   ⟨hd 4, default, (on .commission (fun d => { d with safety := { valid := true } })),
     by unfold Serves Accepted; decide +kernel⟩⟩

/-- The hypotheses of each clause of SafetyFunctionItemsEditTheCandidate can be met. -/
theorem witness_SafetyFunctionItemsEditTheCandidate :
    (∃ (h : Hdr) (p : SetExport) (s : State), (Serves 0x0D05 48 .hostOnly [.commission] h s) ∧ (Accepted
      (semSafetyItem h 0x0D05 48 0 (fun _ => rangeSetExport p) (bytesSetExport p)) h s))
    ∧ (∃ (h : Hdr) (p : ConfigSinPair) (s : State), (Serves 0x0E00 8 .hostOnly [.commission] h s) ∧ (Accepted
      (semSafetyItem h 0x0E00 8 p.pair.toNat (fun _ => rangeConfigSinPair p) (bytesConfigSinPair p)) h s))
    ∧ (∃ (h : Hdr) (p : ConfigStops) (s : State), (Serves 0x0E01 24 .hostOnly [.commission] h s) ∧ (Accepted
      (semSafetyItem h 0x0E01 24 0 (fun d => rangeConfigStops d.time.tc p) (bytesConfigStops p)) h s))
    ∧ (∃ (h : Hdr) (p : ConfigSls) (s : State), (Serves 0x0E02 580 .hostOnly [.commission] h s) ∧ (Accepted
      (semSafetyItem h 0x0E02 580 0 (fun _ => rangeConfigSls p) (bytesConfigSls p)) h s))
    ∧ (∃ (h : Hdr) (p : ConfigStoEdm) (s : State), (Serves 0x0E03 16 .hostOnly [.commission] h s) ∧ (Accepted
      (semSafetyItem h 0x0E03 16 0 (fun _ => rangeConfigStoEdm p) (bytesConfigStoEdm p)) h s))
    ∧ (∃ (h : Hdr) (p : ConfigSbc) (s : State), (Serves 0x0E04 8 .hostOnly [.commission] h s) ∧ (Accepted
      (semSafetyItem h 0x0E04 8 0 (fun _ => rangeConfigSbc p) (bytesConfigSbc p)) h s))
    ∧ (∃ (h : Hdr) (p : ConfigSsmReaction) (s : State), (Serves 0x0E06 4 .hostOnly [.commission] h s) ∧ (Accepted
      (semSafetyItem h 0x0E06 4 p.pan.toNat (fun _ => rangeConfigSsmReaction p) (bytesConfigSsmReaction p)) h s))
    ∧ (∃ (h : Hdr) (p : ConfigSafetyConn) (s : State), (s.dev.isArbiter = false) ∧ (Serves 0x0E05 20 .hostOnly
      [.commission] h s) ∧ (Accepted (semConfigSafetyConn h p false) h s))
    ∧ (∃ (h : Hdr) (p : ConfigSafetyConn) (s : State), (s.dev.isArbiter = true) ∧ (Serves 0x0E05 20 .hostOnly [.ready]
      h s) ∧ (Accepted (semConfigSafetyConn h p true) h s))
    ∧ (∃ (h : Hdr) (p : CommitSet) (s : State), (Serves 0x0E11 4 .hostOnly [.commission] h s) ∧ (Accepted
      (semCommitSet h p) h s) ∧ ((s.dev.take h).badEntry s.dev.safety.candidate = none))
    ∧ (∃ (h : Hdr) (p : BrakeTest) (s : State), (Serves 0x0E20 16 (.hostOnly) [.hold] h s) ∧ (Accepted (semBrakeTest h
      p) h s)) :=
  ⟨⟨hd 48, { capsules := List.replicate 16 0, pose := [0, 0, 0, 0x40000000, 0, 0, 0] }, (inMode .commission),
    by unfold Serves Accepted; decide +kernel⟩,
   ⟨hd 8, { function := 3, nF := 16, tDisc := 500, reaction := 3 }, (inMode .commission),
     by unfold Serves Accepted; decide +kernel⟩,
   ⟨hd 24, { tSs1 := 256000, tStopMax := 256000 }, (inMode .commission), by unfold Serves Accepted; decide +kernel⟩,
   ⟨hd 580, { reaction := 1 }, (inMode .commission), by unfold Serves Accepted; decide +kernel⟩,
   ⟨hd 16, { tStofb := 1, tTp := 100, tEdm := 10 }, (inMode .commission), by unfold Serves Accepted; decide +kernel⟩,
   ⟨hd 8, { tBt := 8760, tGrace := 720 }, (inMode .commission), by unfold Serves Accepted; decide +kernel⟩,
   ⟨hd 4, { pan := 63, reaction := 3, restart := 1 }, (inMode .commission), by unfold Serves Accepted; decide +kernel⟩,
   ⟨hd 20, { kind := 3, connId := 1, tWd := 128000, tValid := 128000 }, (on .commission (fun d =>
     { d with bus := { sets := [{ entries := [(0, 0x0000000500000000)] }] } })),
     by unfold Serves Accepted; decide +kernel⟩,
   ⟨hd 20, { kind := 3, connId := 1, tWd := 128000, tValid := 128000 }, (on .ready (fun d =>
     { d with boot := { d.boot with role := 2 }, bus := { sets := [{ entries := [(0, 0x0000000500000000)] }] } })),
     by unfold Serves Accepted; decide +kernel⟩,
   ⟨hd 4, default, (inMode .commission), by unfold Serves Accepted; decide +kernel⟩,
   ⟨hd 16, { target := 1, tauTest := 1, tTest := 100 }, (on .hold withSlot),
     by unfold Serves Accepted; decide +kernel⟩⟩

/-- The hypotheses of each clause of DeckCommandsWaitForTheirBoundary can be met. -/
theorem witness_DeckCommandsWaitForTheirBoundary :
    (∃ (h : Hdr) (p : ConfigMotionPort) (s : State), (Serves 0x0700 52 (.hostOnly) [.ready] h s) ∧ (Accepted
      (semConfigMotionPort h p) h s))
    ∧ (∃ (h : Hdr) (p : ConfigDeck) (s : State), (Serves 0x0701 32 (.hostOnly) [.ready] h s) ∧ (Accepted
      (semConfigDeck h p) h s))
    ∧ (∃ (h : Hdr) (p : SetVessel) (s : State), (Serves 0x0702 32 (.hostOnly) [.ready, .run, .hold] h s) ∧ (Accepted
      (semSetVessel h p) h s))
    ∧ (∃ (h : Hdr) (p : DefineLoadFrame) (s : State), (Serves 0x0703 12 (.hostOnly) [.ready] h s) ∧ (Accepted
      (semDefineLoadFrame h p) h s))
    ∧ (∃ (h : Hdr) (p : SetDeckLimits) (s : State), (Serves 0x0704 20 (.hostOnly) [.ready] h s) ∧ (Accepted
      (semSetDeckLimits h p) h s))
    ∧ (∃ (h : Hdr) (p : ConfigBallast) (s : State), (Serves 0x0710 (8 + 16 * p.count.toNat) (.hostOnly) [.ready] h s)
      ∧ (Accepted (semConfigBallast h p) h s))
    ∧ (∃ (h : Hdr) (p : SetBallastBounds) (s : State), (Serves 0x0711 8 (.hostOnly) [.ready] h s) ∧ (Accepted
      (semSetBallastBounds h p) h s))
    ∧ (∃ (h : Hdr) (p : DeclareLift) (s : State), (Serves 0x0712 40 (.hostOnly) [.ready, .run, .hold] h s) ∧ (Accepted
      (semDeclareLift h p) h s))
    ∧ (∃ (h : Hdr) (p : CloseLift) (s : State), (Serves 0x0713 4 (.hostOnly) [.ready, .run, .hold] h s) ∧ (Accepted
      (semCloseLift h p) h s))
    ∧ (∃ (h : Hdr) (p : SendBallastRequest) (s : State), (Serves 0x0714 (8 + 4 * p.count.toNat) (.hostOnly) [.ready,
      .run, .hold] h s) ∧ (Accepted (semSendBallastRequest h p) h s))
    ∧ (∃ (h : Hdr) (p : SetPanPlanner) (s : State), (Serves 0x0608 32 (.hostOnly) [.ready] h s) ∧ (Accepted
      (semSetPanPlanner h p) h s)) :=
  ⟨⟨hd 52, { check := 1, clkKhz := 1000, nBytes := 8, nCmd := 1, mount := [0x40000000, 0, 0, 0] }, (inMode .ready),
    by unfold Serves Accepted; decide +kernel⟩,
   ⟨hd 32, { tauC := 10, tH := 5, tAvg := 8 }, (inMode .ready), by unfold Serves Accepted; decide +kernel⟩,
   ⟨hd 32, { gmT := 1, gmL := 1, hyst := 0, heelMax := 1, heelStop := 1 }, (inMode .ready),
     by unfold Serves Accepted; decide +kernel⟩,
   ⟨hd 12, default, (inMode .ready), by unfold Serves Accepted; decide +kernel⟩,
   ⟨hd 20, { fQuiet := 0, fLim := 1, hS := 256000000 }, (inMode .ready), by unfold Serves Accepted; decide +kernel⟩,
   ⟨hd 24, { count := 1, tanks := [0, 0, 0, 1] }, (inMode .ready), by unfold Serves Accepted; decide +kernel⟩,
   ⟨hd 8, default, (inMode .ready), by unfold Serves Accepted; decide +kernel⟩,
   ⟨hd 40, { mass := 1 }, (on .ready (fun d => { withArm d with deck := { vessel := some {} } })),
     by unfold Serves Accepted; decide +kernel⟩,
   ⟨hd 4, default, (on .ready (fun d => { d with deck := { lifts := [(0, some {})] } })),
     by unfold Serves Accepted; decide +kernel⟩,
   ⟨hd 12, { count := 1 }, (on .ready (fun d => { d with deck := { ballast := some { count := 1 } } })),
     by unfold Serves Accepted; decide +kernel⟩,
   ⟨hd 32, default, (inMode .ready), by unfold Serves Accepted; decide +kernel⟩⟩

/-- The hypotheses of each clause of OutputCommandsTakeEffect can be met. -/
theorem witness_OutputCommandsTakeEffect :
    (∃ (h : Hdr) (p : ConfigStep) (s : State), (Serves 0x0B00 16 (.hostOnly) [.ready] h s) ∧ (Accepted (semConfigStep
      h p) h s))
    ∧ (∃ (h : Hdr) (p : ConfigChopper) (s : State), (Serves 0x0B01 24 (.hostOnly) [.ready] h s) ∧ (Accepted
      (semConfigChopper h p) h s))
    ∧ (∃ (h : Hdr) (p : ConfigPwmGroup) (s : State), (Serves 0x0B40 24 (.hostOnly) [.ready] h s) ∧ (Accepted
      (semConfigPwmGroup h p) h s))
    ∧ (∃ (h : Hdr) (p : ConfigBrake) (s : State), (Serves 0x0B50 16 (.hostOnly) [.ready] h s) ∧ (Accepted
      (semConfigBrake h p) h s))
    ∧ (∃ (h : Hdr) (p : SetPwmDuty) (s : State), (Serves 0x0B41 12 (.hostOnly) [.ready, .run, .hold, .tune] h s) ∧
      (Accepted (semSetPwmDuty h p) h s))
    ∧ (∃ (h : Hdr) (p : ClearTrip) (s : State), (Serves 0x0B42 4 (.hostOnly) [.commission, .ready, .run, .tune, .hold,
      .safeOff] h s) ∧ (Accepted (semClearTrip h p) h s))
    ∧ (∃ (h : Hdr) (p : ConfigChannel) (s : State), (Serves 0x0A00 16 (.write 820 true true) awake h s) ∧ (Accepted
      (semConfigChannel h p) h s))
    ∧ (∃ (h : Hdr) (p : ConfigCapture) (s : State), (Serves 0x0A01 16 (.write 820 true true) awake h s) ∧ (Accepted
      (semConfigCapture h p) h s))
    ∧ (∃ (h : Hdr) (p : SetTriggers) (s : State), (Serves 0x0A02 52 (.write 820 true true) awake h s) ∧ (Accepted
      (semSetTriggers h p) h s))
    ∧ (∃ (h : Hdr) (s : State), (Serves 0x0A10 0 (.write 820 true true) awake h s) ∧ (Accepted (semArm h) h s))
    ∧ (∃ (h : Hdr) (s : State), (Serves 0x0A11 0 (.write 820 true true) awake h s) ∧ (Accepted (semDisarm h) h s) ∧
      ((s.dev.take h).skim.phase = .armed))
    ∧ (∃ (h : Hdr) (s : State), (Serves 0x0A11 0 (.write 820 true true) awake h s) ∧ (Accepted (semDisarm h) h s) ∧
      ((s.dev.take h).skim.phase = .post))
    ∧ (∃ (h : Hdr) (s : State), (Serves 0x0A11 0 (.write 820 true true) awake h s) ∧ (Accepted (semDisarm h) h s) ∧
      ((s.dev.take h).skim.phase ≠ .armed) ∧ ((s.dev.take h).skim.phase ≠ .post))
    ∧ (∃ (h : Hdr) (s : State), (Serves 0x0A12 0 (.write 820 true true) awake h s) ∧ (Accepted (semForceTrigger h) h
      s)) :=
  ⟨⟨hd 16, { joint := 0xFF, k := 1, w := 8, tDs := 8, lagLimit := 1 }, (on .ready withArm),
    by unfold Serves Accepted; decide +kernel⟩,
   ⟨hd 24, { joint := 0xFF, k := 1, blank := 1, holdDelay := 1, tOff := 4, brk := 8, tOnMax := 8 }, (inMode .ready),
     by unfold Serves Accepted; decide +kernel⟩,
   ⟨hd 24, { source := 1, nC := 1 }, (inMode .ready), by unfold Serves Accepted; decide +kernel⟩,
   ⟨hd 16, { joint := 0xFF, tPull := 10, hold := 1, holdPeriod := 4000, tFb := 1 }, (inMode .ready),
     by unfold Serves Accepted; decide +kernel⟩,
   ⟨hd 12, default, (on .run (fun d => { d with pwm := { groups := [(0, { cfg := some { source := 1 } })] } })),
     by unfold Serves Accepted; decide +kernel⟩,
   ⟨hd 4, { groups := 0xFF }, (inMode .ready), by unfold Serves Accepted; decide +kernel⟩,
   ⟨hd 16, default, st, by unfold Serves Accepted; decide +kernel⟩,
   ⟨hd 16, { pre := 131071, fireLine := 1 }, st, by unfold Serves Accepted; decide +kernel⟩,
   ⟨hd 52, default, st, by unfold Serves Accepted; decide +kernel⟩,
   ⟨hd 0, (on .run (fun d => { d with skim := { chans := [(0, { cfg := { kind := 1 } })] } })),
     by unfold Serves Accepted; decide +kernel⟩,
   ⟨hd 0, (on .run (fun d => { d with skim := { phase := .armed } })), by unfold Serves Accepted; decide +kernel⟩,
   ⟨hd 0, (on .run (fun d => { d with skim := { phase := .post } })), by unfold Serves Accepted; decide +kernel⟩,
   ⟨hd 0, st, by unfold Serves Accepted; decide +kernel⟩,
   ⟨hd 0, st, by unfold Serves Accepted; decide +kernel⟩⟩

/-- The hypotheses of each clause of BusCommandsTakeEffect can be met. -/
theorem witness_BusCommandsTakeEffect :
    (∃ (h : Hdr) (p : ConfigBusChannel) (s : State), (Serves 0x0C00 4 (.hostOnly) [.ready] h s) ∧ (Accepted
      (semConfigBusChannel h p) h s))
    ∧ (∃ (h : Hdr) (p : ConfigDriveProfile) (s : State), (Serves 0x0C01 12 (.hostOnly) [.ready] h s) ∧ (Accepted
      (semConfigDriveProfile h p) h s))
    ∧ (∃ (h : Hdr) (p : ConfigSync) (s : State), (Serves 0x0C41 16 (.hostOnly) [.ready] h s) ∧ (Accepted
      (semConfigSync h p) h s))
    ∧ (∃ (h : Hdr) (p : ReleaseSlot) (s : State), (Serves 0x0C43 4 (.hostOnly) grantModes h s) ∧ (Accepted
      (semReleaseSlot h p) h s))
    ∧ (∃ (h : Hdr) (p : DriveParam) (s : State), (Serves 0x0C10 (12 + if p.op = 2 then p.n.toNat else 0) (.hostOnly)
      grantModes h s) ∧ (Accepted (semDriveParam h p) h s))
    ∧ (∃ (h : Hdr) (p : GrantSpare) (s : State) (c : Claim), (Serves 0x0C42 12 .hostOnly grantModes h s) ∧ (Accepted
      (semGrantSpare h p) h s) ∧ (((s.dev.take h).busSet p.set.toNat).claims.find? (fun c => c.id = p.claimId) = some
      c)) :=
  ⟨⟨hd 4, default, (inMode .ready), by unfold Serves Accepted; decide +kernel⟩,
   ⟨hd 12, { tApply := 1024, tHold := 385024 }, (inMode .ready), by unfold Serves Accepted; decide +kernel⟩,
   ⟨hd 16, { guard := 1, syncLoss := 16, wAcc := 16, oLim := 16, rateLim := 50 }, (inMode .ready),
     by unfold Serves Accepted; decide +kernel⟩,
   ⟨hd 4, default, (on .ready (fun d => { d with bus := { sets := [{ granted := [(0, 0)] }] } })),
     by unfold Serves Accepted; decide +kernel⟩,
   ⟨hd 12, { op := 1 }, (on .run (fun d => { d with bus := { sets := [{ entries := [(0, 0x0000050400000000)] }] } })),
     by unfold Serves Accepted; decide +kernel⟩,
   ⟨hd 12, { owner := 61 }, (on .run (fun d =>
     { d with bus := { sets := [{ entries := [(0, 0x0000090000001000)], claims := [{ chan := 1, type := 6, size4 := 5 }] }] } })),
     { chan := 1, type := 6, size4 := 5 }, by unfold Serves Accepted; decide +kernel⟩⟩

/-- The hypotheses of each clause of PairAndFaultCommandsTakeEffect can be met. -/
theorem witness_PairAndFaultCommandsTakeEffect :
    (∃ (h : Hdr) (p : ConfigHierarchy) (s : State), (Serves 0x0D00 4 (.hostOnly) [.ready] h s) ∧ (Accepted
      (semConfigHierarchy h p) h s))
    ∧ (∃ (h : Hdr) (p : ConfigPair) (s : State), (Serves 0x0D01 8 (.hostOnly) [.ready] h s) ∧ (Accepted (semConfigPair
      h p) h s))
    ∧ (∃ (h : Hdr) (p : ArbitratePair) (s : State), (Serves 0x0D02 8 (.hostOnly) [.ready] h s) ∧ (Accepted
      (semArbitratePair h p) h s))
    ∧ (∃ (h : Hdr) (p : SetFaultPolicy) (s : State), (Serves 0x0F00 8 (.hostOnly) [.ready] h s) ∧ (Accepted
      (semSetFaultPolicy h p) h s))
    ∧ (∃ (h : Hdr) (p : RetireChannel) (s : State), (Serves 0x0F01 4 (.hostOnly) [.ready, .run, .hold, .tune,
      .safeOff] h s) ∧ (Accepted (semRetireChannel h p) h s))
    ∧ (∃ (h : Hdr) (p : ClearRetirement) (s : State), (Serves 0x0F02 4 (.write 817 false true) [.commission, .ready] h
      s) ∧ (Accepted (semClearRetirement h p) h s))
    ∧ (∃ (h : Hdr) (p : DissolvePair) (s : State), (Serves 0x0D03 4 (.hostOnly) [.ready, .run, .hold, .safeOff] h s) ∧
      (Accepted (semDissolvePair h p) h s))
    ∧ (∃ (h : Hdr) (p : ReleaseLease) (s : State), (Serves 0x0D04 4 (.hostOnly) [.commission, .ready, .run, .tune,
      .hold, .safeOff] h s) ∧ (Accepted (semReleaseLease h p) h s))
    ∧ (∃ (h : Hdr) (p : JournalMark) (s : State), (Serves 0x0F12 4 (.hostOnly) awake h s) ∧ (Accepted (semJournalMark
      h p) h s)) :=
  ⟨⟨hd 4, { cell := 15 }, (inMode .ready), by unfold Serves Accepted; decide +kernel⟩,
   ⟨hd 8, { unit := 0xFF, lanes := 1 }, (on .ready (fun d =>
     { d with bus := { sets := [{}, {}, {}, {}, { loaded := true }] } })), by unfold Serves Accepted; decide +kernel⟩,
   ⟨hd 8, { g := 1024 }, (on .ready (fun d =>
     { d with boot := { d.boot with role := 1 }, bus := { sets := [{}, {}, {}, {}, { loaded := true, entries := [(0, 0x0000050500001009)] }] } })),
     by unfold Serves Accepted; decide +kernel⟩,
   ⟨hd 8, { class_ := 0x0A, nP := 15, nL := 14, tDec := 1024000 }, (inMode .ready),
     by unfold Serves Accepted; decide +kernel⟩,
   ⟨hd 4, { channel := 0x0304 }, (inMode .ready), by unfold Serves Accepted; decide +kernel⟩,
   ⟨hm 4, { channel := 0x01FF }, (inMode .commission), by unfold Serves Accepted; decide +kernel⟩,
   ⟨hd 4, default, (on .run (fun d =>
     { d with boot := { d.boot with role := 1 }, pair := { cells := [(0, { cfg := some { enable := 1 }, holder := some 0 })] } })),
     by unfold Serves Accepted; decide +kernel⟩,
   ⟨hd 4, default, (on .run (fun d => { d with pair := { cfg := some {}, xh := 1 } })),
     by unfold Serves Accepted; decide +kernel⟩,
   ⟨hd 4, default, st, by unfold Serves Accepted; decide +kernel⟩⟩

/-- The hypotheses of each clause of HostRegisterAccessesTakeEffect can be met. -/
theorem witness_HostRegisterAccessesTakeEffect :
    (∃ (t : Nat) (slot : Fin 8) (s : State), let d := s.dev.advance t; (d.hostOpen = true) ∧ ((look d.host.slots
      slot.val).owned = true))
    ∧ (∃ (t : Nat) (slot : Fin 8) (s : State), let d := s.dev.advance t; (d.hostOpen = true) ∧ ((look d.host.slots
      slot.val).owned = false))
    ∧ (∃ (t : Nat) (s : State), let d := s.dev.advance t; (d.hostOpen = true))
    ∧ (∃ (t : Nat) (s : State), let d := s.dev.advance t; (d.hostOpen = true))
    ∧ (∃ (t : Nat) (s : State), let d := s.dev.advance t; (d.hostOpen = true))
    ∧ (∃ (t : Nat) (s : State), let d := s.dev.advance t; (d.hostOpen = true))
    ∧ (∃ (t : Nat) (s : State), let d := s.dev.advance t; (d.hostOpen = true))
    ∧ (∃ (t : Nat) (s : State), let d := s.dev.advance t; (d.hostOpen = true) ∧ (d.hostSel = 0))
    ∧ (∃ (t : Nat) (s : State), let d := s.dev.advance t; (d.hostOpen = true))
    ∧ (∃ (t : Nat) (s : State), let d := s.dev.advance t; (d.hostOpen = false))
    ∧ (∃ (t : Nat) (s : State), let d := s.dev.advance t; (d.hostSel = 0))
    ∧ (∃ (t : Nat) (s : State), let d := s.dev.advance t; (d.hostSel ≠ 0))
    ∧ (∃ (t : Nat) (offset : BitVec 32) (s : State), let d := s.dev.advance t; (d.hostOpen = true) ∧ (offset = 0x08))
    ∧ (∃ (t : Nat) (offset : BitVec 32) (s : State), let d := s.dev.advance t; (d.hostOpen = true) ∧ (offset = 0x20))
    ∧ (∃ (t : Nat) (offset : BitVec 32) (s : State), let d := s.dev.advance t; (d.hostOpen = true) ∧ (offset = 0x24))
    ∧ (∃ (t : Nat) (offset : BitVec 32) (s : State), let d := s.dev.advance t; (d.hostOpen = true) ∧ (offset = 0x30))
    ∧ (∃ (t : Nat) (offset : BitVec 32) (s : State), let d := s.dev.advance t; (d.hostOpen = true) ∧ (offset = 0x34))
    ∧ (∃ (t : Nat) (offset : BitVec 32) (s : State), let d := s.dev.advance t; (d.hostOpen = true) ∧ (offset = 0x38))
    ∧ (∃ (t : Nat) (offset : BitVec 32) (s : State), let d := s.dev.advance t; (d.hostOpen = true) ∧ (offset = 0x40))
    ∧ (∃ (t : Nat) (offset : BitVec 32) (s : State), let d := s.dev.advance t; (d.hostOpen = true) ∧ (offset = 0x44))
    ∧ (∃ (t : Nat) (offset : BitVec 32) (s : State), let d := s.dev.advance t; (d.hostOpen = true) ∧ (offset.toNat % 4
      ≠ 0))
    ∧ (∃ (t : Nat) (offset : BitVec 32) (s : State), let d := s.dev.advance t; (d.hostOpen = true) ∧ (offset = 0x00))
    ∧ (∃ (t : Nat) (o : BitVec 32) (s : State), let d := s.dev.advance t; (d.hostOpen = true) ∧ (o.toNat % 4 = 0)) :=
  ⟨⟨0, 0, (on .run (fun d => { d with host := { slots := [(0, { owned := true })] } })), by decide +kernel⟩,
   ⟨0, 0, st, by decide +kernel⟩,
   ⟨0, st, by decide +kernel⟩,
   ⟨0, st, by decide +kernel⟩,
   ⟨0, st, by decide +kernel⟩,
   ⟨0, st, by decide +kernel⟩,
   ⟨0, st, by decide +kernel⟩,
   ⟨0, st, by decide +kernel⟩,
   ⟨0, st, by decide +kernel⟩,
   ⟨0, (inMode .dormant), by decide +kernel⟩,
   ⟨0, st, by decide +kernel⟩,
   ⟨0, (on .run (fun d => { d with boot := { d.boot with straps := 0x10 } })), by decide +kernel⟩,
   ⟨0, 0x08, st, by decide +kernel⟩,
   ⟨0, 0x20, st, by decide +kernel⟩,
   ⟨0, 0x24, st, by decide +kernel⟩,
   ⟨0, 0x30, st, by decide +kernel⟩,
   ⟨0, 0x34, st, by decide +kernel⟩,
   ⟨0, 0x38, st, by decide +kernel⟩,
   ⟨0, 0x40, st, by decide +kernel⟩,
   ⟨0, 0x44, st, by decide +kernel⟩,
   ⟨0, 3, st, by decide +kernel⟩,
   ⟨0, 0, st, by decide +kernel⟩,
   ⟨0, 0, st, by decide +kernel⟩⟩

/-- The hypotheses of each clause of DataPortAccessesMoveTheirBytes can be met. -/
theorem witness_DataPortAccessesMoveTheirBytes :
    (∃ (t : Nat) (a : DpAccess) (s : State), let d := s.dev.advance t; (d.hostOpen = true) ∧ (a.write = none) ∧
      (a.width = (if d.host.dpInc then 8 else 4)) ∧ (d.dpError (d.host.dpOffset.toNat / a.width * a.width) a.width
      true false = 0))
    ∧ (∃ (t : Nat) (a : DpAccess) (b : List Byte) (s : State), let d := s.dev.advance t; (d.hostOpen = true) ∧
      (a.write = some b) ∧ (b.length = a.width) ∧ (a.width = (if d.host.dpInc then 8 else 4)) ∧ (d.dpError
      (d.host.dpOffset.toNat / a.width * a.width) a.width true true = 0))
    ∧ (∃ (t : Nat) (a : DpAccess) (n : Nat) (s : State), let d := s.dev.advance t; (d.hostOpen = true) ∧ (a.write =
      none) ∧ (a.width = 4 ∨ a.width = 8) ∧ (n = (if d.host.dpInc then 8 else 4)) ∧ (d.dpError (d.host.dpOffset.toNat
      / n * n) a.width (decide (a.width = n)) false ≠ 0))
    ∧ (∃ (t : Nat) (q : Bool) (n : Nat) (s : State), let d := s.dev.advance t; (d.hostOpen = true) ∧ (q = decide
      (d.hostSel = 1)) ∧ (burstBytes q n ≠ 0) ∧ (d.dpError (d.host.dpOffset.toNat / 4 * 4) (burstBytes q n) true false
      = 0))
    ∧ (∃ (t : Nat) (q : Bool) (b : List Byte) (s : State), let d := s.dev.advance t; (d.hostOpen = true) ∧ (q = decide
      (d.hostSel = 1)) ∧ (burstBytes q b.length ≠ 0) ∧ (d.dpError (d.host.dpOffset.toNat / 4 * 4) (burstBytes q
      b.length) true true = 0)) :=
  ⟨⟨0, { width := 4 }, st, by decide +kernel⟩,
   ⟨0, { width := 4, write := some [1, 2, 3, 4] }, [1, 2, 3, 4], (on .run (fun d =>
     { d with host := { dpOffset := 0x800000 } })), by decide +kernel⟩,
   ⟨0, { width := 8 }, 4, st, by decide +kernel⟩,
   ⟨0, false, 4, st, by decide +kernel⟩,
   ⟨0, false, [1, 2, 3, 4], (on .run (fun d => { d with host := { dpOffset := 0x800000 } })), by decide +kernel⟩⟩

/-- The hypotheses of each clause of RingsTakeTheirMessages can be met. -/
theorem witness_RingsTakeTheirMessages :
    (∃ (t : Nat) (w : BitVec 32) (s : State), let d := s.dev.advance t; (d.hostOpen = true) ∧ ((List.range 8).filter
      (fun i => w.getLsbD i && !(look d.host.slots i).owned) = []) ∧ ((List.range 8).filter (fun i => w.getLsbD i &&
      (look d.host.slots i).owned) ≠ []))
    ∧ (∃ (t : Nat) (w : BitVec 32) (rung : List Nat) (s : State), let d := s.dev.advance t; (d.hostOpen = true) ∧
      ((List.range 8).filter (fun i => w.getLsbD i) = rung) ∧ (rung ≠ []) ∧ (rung.all (fun i => !(look d.host.slots
      i).owned) = true))
    ∧ (∃ (t : Nat) (w : BitVec 32) (own : List Nat) (free : List Nat) (s : State), let d := s.dev.advance t;
      (d.hostOpen = true) ∧ ((List.range 8).filter (fun i => w.getLsbD i && (look d.host.slots i).owned) = own) ∧
      ((List.range 8).filter (fun i => w.getLsbD i && !(look d.host.slots i).owned) = free) ∧ (own ≠ []) ∧ (free ≠
      []))
    ∧ (∃ (t : Nat) (b : List Byte) (s : State), let d := s.dev.advance t; ((b.getD 1024 0).getLsbD 0 = true) ∧
      (d.host.maint.owned = false))
    ∧ (∃ (t : Nat) (b : List Byte) (s : State), let d := s.dev.advance t; ((b.getD 1024 0).getLsbD 0 = false ∨
      d.host.maint.owned = true)) :=
  ⟨⟨0, 0x80, (on .run (fun d => { d with host := { slots := [(7, { owned := true })] } })), by decide +kernel⟩,
   ⟨0, 0x81, [0, 7], st, by decide +kernel⟩,
   ⟨0, 3, [0], [1], (on .run (fun d => { d with host := { slots := [(0, { owned := true })] } })), by decide +kernel⟩,
   ⟨0, List.replicate 1024 0 ++ [1], st, by decide +kernel⟩,
   ⟨0, [], st, by decide +kernel⟩⟩

/-- The hypotheses of each clause of ResetsBootAndWakes can be met. -/
theorem witness_ResetsBootAndWakes :
    (∃ (lowNs : Nat) (s : State), (s.dev.boot.rstLow = false) ∧ (1000 ≤ lowNs))
    ∧ (∃ (lowNs : Nat) (s : State), (s.dev.boot.pwrLow = false) ∧ (1000 ≤ lowNs))
    ∧ (∃ (s : State), (s.dev.supRuns = true))
    ∧ (∃ (s : State), (s.dev.supRuns = false))
    ∧ (∃ (s : State), (s.dev.boot.fwRun = true) ∧ (s.dev.power.mode ≠ .dormant))
    ∧ (∃ (s : State), (s.dev.power.mode = .boot) ∧ (s.dev.boot.stopped = false) ∧ (s.dev.boot.hostBoot = false) ∧
      (s.dev.boot.step = 1))
    ∧ (∃ (t : Nat) (s : State), let d := s.dev.advance t; (d.boot.rstLow = true) ∧ (d.boot.pwrLow = false) ∧ (d.fuse
      821 = false))
    ∧ (∃ (t : Nat) (s : State), let d := s.dev.advance t; (d.boot.rstLow = true) ∧ (d.boot.pwrLow = false) ∧ (d.fuse
      821 = false))
    ∧ (∃ (t : Nat) (s : State), let d := s.dev.advance t; (d.boot.rstLow = false ∨ d.boot.pwrLow = true ∨ d.fuse 821 =
      true))
    ∧ (∃ (t : Nat) (s : State), let d := s.dev.advance t; (d.boot.rstLow = false ∨ d.boot.pwrLow = true ∨ d.fuse 821 =
      true))
    ∧ (∃ (t : Nat) (s : State), let d := s.dev.advance t; (d.time.valid = true))
    ∧ (∃ (t : Nat) (w : WakeIn) (s : State), let d := s.dev.advance t; (d.power.mode = .dormant) ∧ (d.wakes t w =
      true) ∧ (d.retainedOk w.flips = true) ∧ (d.power.dormantBad = false) ∧ (d.sealOk = true))
    ∧ (∃ (t : Nat) (w : WakeIn) (s : State), let d := s.dev.advance t; (d.power.mode = .dormant) ∧ (d.wakes t w =
      true) ∧ (d.retainedOk w.flips = true) ∧ (d.power.dormantBad = true ∨ d.sealOk = false))
    ∧ (∃ (t : Nat) (w : WakeIn) (s : State), let d := s.dev.advance t; (d.wakes t w = false))
    ∧ (∃ (t : Nat) (s : State), let d := s.dev.advance t; (d.power.mode ≠ .dormant))
    ∧ (∃ (t : Nat) (i : Fin 14) (s : State), let d := s.dev.advance t; (d.power.domains.getD i.val .off = .stopped) ∧
      (d.domBusy i.val = true ∨ (d.bNext ≤ t + 1024 ∧ d.domScheduled i.val = true)))
    ∧ (∃ (t : Nat) (i : Fin 14) (s : State), let d := s.dev.advance t; (d.domBusy i.val = false) ∧ (t + 1024 < d.bNext
      ∨ d.domScheduled i.val = false))
    ∧ (∃ (t : Nat) (i : Fin 14) (s : State), let d := s.dev.advance t; (i.val ∉ [1, 2, 3, 4, 5, 6, 7, 8, 11] ∨
      d.power.domains.getD i.val .off ≠ .running ∨ d.domBusy i.val = true ∨ d.domContinuous i.val = true))
    ∧ (∃ (t : Nat) (i : Fin 14) (s : State), let d := s.dev.advance t; (i.val ∈ [1, 2, 3, 4, 5, 6, 7, 8, 11]) ∧
      (d.power.domains.getD i.val .off = .running) ∧ (d.domBusy i.val = false) ∧ (d.domContinuous i.val = false))
    ∧ (∃ (h : Hdr) (p : BootImage) (s : State), (s.dev.server h.link = .rom) ∧ ((h.ct = 0 ∨ h.stamp ≤ h.ct)) ∧
      (h.length = 4) ∧ (h.flags = 0) ∧ (0x200 ≤ p.length.toNat) ∧ (p.length.toNat ≤ 0x600000) ∧ let d := s.dev.take h;
      let img := memRead d.host.memA 0 (p.length.toNat + 64); (rd 32 img 0x10 = p.length)) :=
  ⟨⟨1000, st, by decide +kernel⟩,
   ⟨1000, st, by decide +kernel⟩,
   ⟨st, by decide +kernel⟩,
   ⟨State.reset, by decide +kernel⟩,
   ⟨st, by decide +kernel⟩,
   ⟨State.reset, by decide +kernel⟩,
   ⟨0, State.reset, by decide +kernel⟩,
   ⟨0, State.reset, by decide +kernel⟩,
   ⟨0, st, by decide +kernel⟩,
   ⟨0, st, by decide +kernel⟩,
   ⟨0, (on .dormant (fun d =>
     { d with power := { d.power with wake := { sources := 1 } }, safety := { valid := true } })), by decide +kernel⟩,
   ⟨0, { source := 1 }, (on .dormant (fun d =>
     { d with power := { d.power with wake := { sources := 1 } }, safety := { valid := true }, boot := { d.boot with retained := Config.sha256 [], retDigest := Config.sha256 [] } })),
     ⟨by decide +kernel, by decide +kernel, by simp [Dev.retainedOk, on, Dev.advance, flipBytes, inMode],
     by decide +kernel, by decide +kernel⟩⟩,
   ⟨0, { source := 1 }, (on .dormant (fun d =>
     { d with power := { d.power with wake := { sources := 1 }, dormantBad := true }, safety := { valid := true }, boot := { d.boot with retained := Config.sha256 [], retDigest := Config.sha256 [] } })),
     ⟨by decide +kernel, by decide +kernel, by simp [Dev.retainedOk, on, Dev.advance, flipBytes, inMode],
     by decide +kernel⟩⟩,
   ⟨0, default, (on .boot (fun d =>
     { d with boot := { d.boot with hostBoot := true }, host := { memA := [(0x11, 2)] } })), by decide +kernel⟩,
   ⟨0, st, by decide +kernel⟩,
   ⟨0, 2, (on .run (fun d =>
     { d with power := { d.power with domains := List.replicate 14 .stopped }, disp := { tasks := [{ entry := 9, phase := .ready }] } })),
     by decide +kernel⟩,
   ⟨0, 0, st, by decide +kernel⟩,
   ⟨0, 0, st, by decide +kernel⟩,
   ⟨0, 1, st, by decide +kernel⟩,
   ⟨hd 4, { length := 0x200 }, (on .boot (fun d =>
     { d with boot := { d.boot with hostBoot := true }, host := { memA := [(0x11, 2)] } })), by decide +kernel⟩⟩

/-- The hypotheses of each clause of BoundaryPhasesRunInTheirOrder can be met. -/
theorem witness_BoundaryPhasesRunInTheirOrder :
    (∃ (t : Nat) (s : State), (t < s.dev.bNext))
    ∧ (∃ (t : Nat) (s : State), let d := (s.dev.advance t).cancelsBefore t; (s.dev.bNext ≤ t) ∧ (d.power.mode = .boot
      ∨ d.power.mode = .dormant))
    ∧ (∃ (t : Nat) (cause : BitVec 8) (s : State), let d := (s.dev.advance t).cancelsBefore t; (s.dev.bNext ≤ t) ∧
      (d.power.mode ≠ .boot) ∧ (d.power.mode ≠ .dormant) ∧ (d.resetDue s.dev.bNext = some cause))
    ∧ (∃ (t : Nat) (s : State), let d := (s.dev.advance t).cancelsBefore t; (s.dev.bNext ≤ t) ∧ (d.power.mode ≠ .boot)
      ∧ (d.power.mode ≠ .dormant) ∧ (d.resetDue s.dev.bNext = none))
    ∧ (∃ (t : Nat) (s : State), (s.dev.bk + s.dev.time.tc / 2 ≤ t))
    ∧ (∃ (t : Nat) (s : State), (t < s.dev.bk + s.dev.time.tc / 2))
    ∧ (∃ (t : Nat) (m : Fin 4) (s : State), (t < s.dev.bk + m.val * (s.dev.time.tc / 4)))
    ∧ (∃ (t : Nat) (m : Fin 4) (s : State), (s.dev.bk + m.val * (s.dev.time.tc / 4) ≤ t)) :=
  ⟨⟨0, st, by decide +kernel⟩,
   ⟨128000, State.reset, by decide +kernel⟩,
   ⟨128000, 6, (on .ready (fun d =>
     { d with waiting := [{ effB := 128000, stamp := 0, cmd := .deviceReset (hd 4) {} }] })), by decide +kernel⟩,
   ⟨128000, st, by decide +kernel⟩,
   ⟨64000, st, by decide +kernel⟩,
   ⟨0, st, by decide +kernel⟩,
   ⟨31999, 1, st, by decide +kernel⟩,
   ⟨0, 0, st, by decide +kernel⟩⟩

/-- The hypotheses of each clause of TasksAreReleasedDispatchedAndEnded can be met. -/
theorem witness_TasksAreReleasedDispatchedAndEnded :
    (∃ (t : Nat) (x : Fin 2048) (s : State), let d := (s.dev.advance t).cancelsBefore t; ((d.entry x.val).kind =
      .boundary))
    ∧ (∃ (t : Nat) (x : Fin 2048) (s : State), let d := (s.dev.advance t).cancelsBefore t; ((d.entry x.val).kind ≠
      .boundary) ∧ ((d.entry x.val).kind ≠ .timer))
    ∧ (∃ (t : Nat) (x : Fin 2048) (a : Nat) (s : State), let d := (s.dev.advance t).cancelsBefore t; ((d.entry
      x.val).kind = .timer) ∧ (d.entryLive x.val = true) ∧ ((look d.disp.table x.val).lastAt = some a) ∧ (a + (d.entry
      x.val).match_ ≤ t))
    ∧ (∃ (t : Nat) (x : Fin 2048) (s : State), let d := (s.dev.advance t).cancelsBefore t; ((d.entry x.val).kind =
      .timer) ∧ (d.entryLive x.val = true) ∧ ((look d.disp.table x.val).lastAt = none))
    ∧ (∃ (t : Nat) (x : Fin 2048) (a : Nat) (s : State), let d := (s.dev.advance t).cancelsBefore t; ((d.entry
      x.val).kind = .timer) ∧ ((look d.disp.table x.val).lastAt = some a) ∧ (t < a + (d.entry x.val).match_))
    ∧ (∃ (t : Nat) (s : State), let d := (s.dev.advance t).cancelsBefore t; (d.power.mode ≠ .dormant) ∧ (d.power.mode
      ≠ .boot) ∧ (d.cycleHeld = false))
    ∧ (∃ (t : Nat) (s : State), let d := (s.dev.advance t).cancelsBefore t; (d.power.mode = .dormant ∨ d.power.mode =
      .boot ∨ d.cycleHeld = true))
    ∧ (∃ (t : Nat) (x : Fin 2048) (k : Task) (s : State), let d := (s.dev.advance t).cancelsBefore t; (d.taskRunning
      x.val = some k) ∧ (problemOf x.val = none) ∧ ((d.entry x.val).engine ≠ .sig))
    ∧ (∃ (t : Nat) (x : Fin 2048) (k : Task) (s : State), let d := (s.dev.advance t).cancelsBefore t; (d.taskRunning
      x.val = some k) ∧ (problemOf x.val = none) ∧ ((d.entry x.val).engine = .sig))
    ∧ (∃ (t : Nat) (x : Fin 2048) (k : Task) (p : Nat) (s : State), let d := (s.dev.advance t).cancelsBefore t;
      (d.taskRunning x.val = some k) ∧ (problemOf x.val = some p))
    ∧ (∃ (t : Nat) (x : Fin 2048) (s : State), let d := (s.dev.advance t).cancelsBefore t; (d.taskRunning x.val =
      none))
    ∧ (∃ (t : Nat) (s : State), let d := (s.dev.advance t).cancelsBefore t; (d.power.mode ≠ .dormant) ∧ (d.power.mode
      ≠ .boot) ∧ (d.cycleHeld = false))
    ∧ (∃ (t : Nat) (s : State), let d := (s.dev.advance t).cancelsBefore t; (d.cycleHeld = true))
    ∧ (∃ (t : Nat) (x : Fin 2048) (s : State), let d := (s.dev.advance t).cancelsBefore t; ((look d.disp.table
      x.val).pressed = true) ∧ (d.pressedNow x.val = false) ∧ (d.entryLive x.val = true) ∧ ((look d.disp.table
      x.val).held = 0))
    ∧ (∃ (t : Nat) (x : Fin 2048) (s : State), let d := (s.dev.advance t).cancelsBefore t; ((look d.disp.table
      x.val).pressed = true) ∧ (d.pressedNow x.val = false) ∧ (d.entryLive x.val = true) ∧ ((look d.disp.table
      x.val).held ≠ 0) ∧ ((d.entry x.val).kind ≠ .mailbox) ∧ ((d.entry x.val).kind ≠ .hostRun) ∧ ((d.entry x.val).kind
      ≠ .free) ∧ ((d.entry x.val).kind ≠ .frame))
    ∧ (∃ (t : Nat) (r : TraceRec) (q : List TraceRec) (s : State), let d := s.dev.advance t; (d.disp.trace.queue = r
      :: q) ∧ ((d.disp.trace.store1 r).fill = false) ∧ (d.disp.trace.left = none))
    ∧ (∃ (t : Nat) (x : Fin 2048) (s : State), let d := (s.dev.advance t).cancelsBefore t; ((look d.disp.table
      x.val).pressed = true) ∧ (d.pressedNow x.val = false) ∧ (d.entryLive x.val = true) ∧ ((d.entry x.val).kind =
      .frame) ∧ (1 < (look d.disp.table x.val).held))
    ∧ (∃ (t : Nat) (x : Fin 2048) (s : State), let d := (s.dev.advance t).cancelsBefore t; ((look d.disp.table
      x.val).pressed = false ∨ d.pressedNow x.val = true ∨ d.entryLive x.val = false))
    ∧ (∃ (t : Nat) (r : TraceRec) (q : List TraceRec) (s : State), let d := s.dev.advance t; (d.disp.trace.queue = r
      :: q) ∧ (d.disp.trace.left = some 1))
    ∧ (∃ (t : Nat) (s : State), let d := s.dev.advance t; (d.disp.trace.queue = [])) :=
  ⟨⟨0, 0, (on .run (fun d => { d with deck := { cfg := some {} } })), by decide +kernel⟩,
   ⟨0, 10, (on .run (fun d => { d with loop := { currents := [(0, { cfg := some {} })] } })), by decide +kernel⟩,
   ⟨64000000, 3, 0, (on .run (fun d =>
     { d with deck := { cfg := some {} }, disp := { table := [(3, { lastAt := some 0 })] } })), by decide +kernel⟩,
   ⟨0, 3, (on .run (fun d => { d with deck := { cfg := some {} } })), by decide +kernel⟩,
   ⟨0, 3, 0, (on .run (fun d =>
     { d with deck := { cfg := some {} }, disp := { table := [(3, { lastAt := some 0 })] } })), by decide +kernel⟩,
   ⟨0, (on .run (fun d => { d with disp := { tasks := [{ entry := 9, phase := .running }] } })), by decide +kernel⟩,
   ⟨0, (inMode .dormant), by decide +kernel⟩,
   ⟨0, 9, { entry := 9, phase := .running }, (on .run (fun d =>
     { d with disp := { tasks := [{ entry := 9, phase := .running }] } })), by decide +kernel⟩,
   ⟨0, 0, { entry := 0, phase := .running }, (on .run (fun d =>
     { d with deck := { cfg := some {} }, disp := { tasks := [{ phase := .running }] } })), by decide +kernel⟩,
   ⟨0, 0x600, { entry := 0x600, phase := .running }, 0, (on .run (fun d =>
     { d with disp := { tasks := [{ entry := 0x600, phase := .running }] } })), by decide +kernel⟩,
   ⟨1, 0, (on .run (fun d => { d with disp := { tasks := [{ entry := 9, phase := .ready }] } })), by decide +kernel⟩,
   ⟨0, (on .run (fun d => { d with disp := { table := [(2047, { pressed := true })] } })), by decide +kernel⟩,
   ⟨0, (on .run (fun d => { d with disp := { trace := { queue := List.replicate 481 {} } } })), by decide +kernel⟩,
   ⟨0, 2047, (on .run (fun d => { d with disp := { table := [(2047, { pressed := true })] } })), by decide +kernel⟩,
   ⟨0, 0, (on .run (fun d =>
     { d with deck := { cfg := some {} }, disp := { table := [(0, { pressed := true, held := 1 })] } })),
     by decide +kernel⟩,
   ⟨0, {}, [], (on .run (fun d => { d with disp := { trace := { queue := [{}] } } })), by decide +kernel⟩,
   ⟨0, 0x100, (on .run (fun d =>
     { d with sig := { decoder := [some 0] }, bus := { chans := [(0, { mode := .line })] }, disp := { table := [(0x100, { pressed := true, held := 2 })] } })),
     by decide +kernel⟩,
   ⟨0, 0, st, by decide +kernel⟩,
   ⟨0, {}, [], (on .run (fun d => { d with disp := { trace := { queue := [{}], left := some 1 } } })),
     by decide +kernel⟩,
   ⟨0, st, by decide +kernel⟩⟩

/-- The hypotheses of each clause of SolverRunsEnd can be met. -/
theorem witness_SolverRunsEnd :
    (∃ (t : Nat) (lane : Fin 36) (id : Nat) (p : Problem) (r : SolverRun) (s : State),
      let d := (s.dev.advance t).cancelsBefore t; ((look d.solver.lanes lane.val).running = some id) ∧ (look
      d.solver.problems id = some p) ∧ (p.run = some r) ∧ (t ≤ r.dl))
    ∧ (∃ (t : Nat) (lane : Fin 36) (id : Nat) (p : Problem) (r : SolverRun) (s : State),
      let d := (s.dev.advance t).cancelsBefore t; ((look d.solver.lanes lane.val).running = some id) ∧ (look
      d.solver.problems id = some p) ∧ (p.run = some r) ∧ (t ≤ r.dl))
    ∧ (∃ (t : Nat) (lane : Fin 36) (id : Nat) (p : Problem) (r : SolverRun) (s : State),
      let d := (s.dev.advance t).cancelsBefore t; ((look d.solver.lanes lane.val).running = some id) ∧ (look
      d.solver.problems id = some p) ∧ (p.run = some r) ∧ (t ≤ r.dl))
    ∧ (∃ (t : Nat) (lane : Fin 36) (s : State), let d := (s.dev.advance t).cancelsBefore t; ((look d.solver.lanes
      lane.val).running = none))
    ∧ (∃ (t : Nat) (id : Fin 256) (p : Problem) (r : SolverRun) (lane : Nat) (s : State),
      let d := (s.dev.advance t).cancelsBefore t; (look d.solver.problems id.val = some p) ∧ (p.run = some r) ∧ (r.dl
      < t) ∧ (r.lane = some lane))
    ∧ (∃ (t : Nat) (id : Fin 256) (p : Problem) (x : Task) (s : State), let d := (s.dev.advance t).cancelsBefore t;
      (look d.solver.problems id.val = some p) ∧ (p.run = none) ∧ (d.disp.tasks.find? (fun y => decide (y.entry =
      0x600 + id.val) && decide (y.phase ≠ .running) && decide (y.dl < t)) = some x))
    ∧ (∃ (t : Nat) (id : Fin 256) (s : State), let d := (s.dev.advance t).cancelsBefore t; (look d.solver.problems
      id.val = none))
    ∧ (∃ (t : Nat) (lane : Fin 36) (s : State), let d := s.dev.advance t; ((look d.solver.lanes lane.val).running =
      none) ∧ (d.laneOn lane.val = true) ∧ (d.isRetired 3 lane.val = false) ∧ (d.isArbiter = false) ∧ (d.power.mode ≠
      .dormant) ∧ (d.power.mode ≠ .boot))
    ∧ (∃ (t : Nat) (arm : Fin 16) (s : State), let d := s.dev.advance t; (4 ≤ (look d.arms arm.val).ikMiss) ∧ ((look
      d.arms arm.val).phase ≠ .stopped) ∧ ((look d.arms arm.val).jstop = false) ∧ (d.power.mode = .run ∨ d.power.mode
      = .hold))
    ∧ (∃ (t : Nat) (arm : Fin 16) (s : State), let d := s.dev.advance t; ((look d.arms arm.val).ikMiss < 4))
    ∧ (∃ (t : Nat) (slot : Fin 128) (c : ConfigJointSlot) (s : State), let d := s.dev.advance t; ((look d.loop.joints
      slot.val).cfg = some c) ∧ (c.missLimit.toNat ≤ (look d.loop.joints slot.val).misses) ∧ (c.missLimit ≠ 0) ∧
      (d.latchedTrig 0x06 = false)) :=
  ⟨⟨0, 0, 0, { run := some { lane := some 0 } }, { lane := some 0 }, (on .run (fun d =>
    { d with solver := { problems := [(0, some { run := some { lane := some 0 } })], lanes := [(0, { running := some 0 })] } })),
    by decide +kernel⟩,
   ⟨0, 0, 0, { run := some { lane := some 0 } }, { lane := some 0 }, (on .run (fun d =>
     { d with solver := { problems := [(0, some { run := some { lane := some 0 } })], lanes := [(0, { running := some 0 })] } })),
     by decide +kernel⟩,
   ⟨0, 0, 0, { run := some { lane := some 0 } }, { lane := some 0 }, (on .run (fun d =>
     { d with solver := { problems := [(0, some { run := some { lane := some 0 } })], lanes := [(0, { running := some 0 })] } })),
     by decide +kernel⟩,
   ⟨0, 0, st, by decide +kernel⟩,
   ⟨1, 0, { run := some { lane := some 0 } }, { lane := some 0 }, 0, (on .run (fun d =>
     { d with solver := { problems := [(0, some { run := some { lane := some 0 } })], lanes := [(0, { running := some 0 })] } })),
     by decide +kernel⟩,
   ⟨1, 0, {}, { entry := 0x600 }, (on .run (fun d =>
     { d with solver := { problems := [(0, some {})] }, disp := { tasks := [{ entry := 0x600 }] } })),
     by decide +kernel⟩,
   ⟨0, 0, (on .run (fun d => { d with arms := [(0, { ikMiss := 4 })] })), by decide +kernel⟩,
   ⟨0, 0, (on .run (fun d =>
     { d with loop := { joints := [(0, { cfg := some { missLimit := 1 }, misses := 1 })] } })), by decide +kernel⟩,
   ⟨0, 0, (on .run (fun d => { d with arms := [(0, { ikMiss := 4 })] })), by decide +kernel⟩,
   ⟨0, 0, st, by decide +kernel⟩,
   ⟨0, 0, { missLimit := 1 }, (on .run (fun d =>
     { d with loop := { joints := [(0, { cfg := some { missLimit := 1 }, misses := 1 })] } })), by decide +kernel⟩⟩

/-- The hypotheses of each clause of SeparationPassAdvances can be met. -/
theorem witness_SeparationPassAdvances :
    (∃ (t : Nat) (s : State), let d := s.dev.advance t; (d.sep.pass.running = true) ∧ (d.sep.pass.inputs = none) ∧
      (d.sep.pass.stamp + d.inCut ≤ t ∨ d.positionsIn d.sep.pass.stamp = true))
    ∧ (∃ (t : Nat) (s : State), let d := s.dev.advance t; (d.sep.pass.running = false))
    ∧ (∃ (t : Nat) (s : State), let d := s.dev.advance t; (d.sep.pass.running = true) ∧ (d.sep.pass.inputs.isSome =
      true) ∧ (d.sep.pass.sepDone = false) ∧ (d.pipes.isEmpty = false))
    ∧ (∃ (t : Nat) (s : State), let d := s.dev.advance t; (d.sep.pass.inputs.isSome = false))
    ∧ (∃ (t : Nat) (s : State), let d := s.dev.advance t; (d.sep.pass.running = true) ∧ (d.sep.pass.sepDone = false) ∧
      (d.sep.pass.stamp + d.time.nSep * d.time.tc ≤ t))
    ∧ (∃ (t : Nat) (s : State), let d := s.dev.advance t; (d.sep.pass.running = false))
    ∧ (∃ (t : Nat) (s : State), let d := s.dev.advance t; (d.sep.pass.running = true) ∧ (d.sep.pass.inputs.isSome =
      true) ∧ (d.sep.pass.islDone = false))
    ∧ (∃ (t : Nat) (s : State), let d := s.dev.advance t; (d.sep.pass.running = false)) :=
  ⟨⟨0, (on .run (fun d => { d with sep := { pass := { running := true } } })), by decide +kernel⟩,
   ⟨0, st, by decide +kernel⟩,
   ⟨0, (on .run (fun d => { d with sep := { pass := { running := true, inputs := some 0 } } })), by decide +kernel⟩,
   ⟨0, st, by decide +kernel⟩,
   ⟨512000, (on .run (fun d => { d with sep := { pass := { running := true } } })), by decide +kernel⟩,
   ⟨0, st, by decide +kernel⟩,
   ⟨0, (on .run (fun d => { d with sep := { pass := { running := true, inputs := some 0 } } })), by decide +kernel⟩,
   ⟨0, st, by decide +kernel⟩⟩

/-- The hypotheses of each clause of DeckSensorEventsTakeEffect can be met. -/
theorem witness_DeckSensorEventsTakeEffect :
    (∃ (t : Nat) (p : Fin 2) (c : ConfigMotionPort) (s : State), let d := s.dev.advance t; (d.portCfg p.val = some c)
      ∧ (d.power.mode ≠ .dormant) ∧ (d.power.mode ≠ .boot) ∧ ((d.port p.val).reading = false))
    ∧ (∃ (t : Nat) (p : Fin 2) (c : ConfigMotionPort) (s : State), let d := s.dev.advance t; (d.portCfg p.val = some
      c) ∧ (d.power.mode ≠ .dormant) ∧ (d.power.mode ≠ .boot) ∧ ((d.port p.val).reading = true))
    ∧ (∃ (t : Nat) (p : Fin 2) (s : State), let d := s.dev.advance t; (d.portCfg p.val = none))
    ∧ (∃ (t : Nat) (p : Fin 2) (c : ConfigMotionPort) (data : List Byte) (copy : List Byte) (s : State),
      let d := s.dev.advance t; ((d.port p.val).cfg = some c) ∧ ((d.port p.val).reading = true) ∧ (data.length =
      c.nBytes.toNat ∧ sampleOk c.check data copy = true ∧ sampleInRange c ((List.range 6).map (sampleField c data)) =
      true))
    ∧ (∃ (t : Nat) (p : Fin 2) (c : ConfigMotionPort) (data : List Byte) (copy : List Byte) (s : State),
      let d := s.dev.advance t; ((d.port p.val).cfg = some c) ∧ ((d.port p.val).reading = true) ∧ (data.length ≠
      c.nBytes.toNat ∨ sampleOk c.check data copy = false ∨ sampleInRange c ((List.range 6).map (sampleField c data))
      = false))
    ∧ (∃ (t : Nat) (p : Fin 2) (s : State), let d := s.dev.advance t; ((d.port p.val).reading = false))
    ∧ (∃ (t : Nat) (p : Fin 2) (s : State), let d := s.dev.advance t; (d.portCfg p.val = none ∨ t < (d.port
      p.val).silence + ms10))
    ∧ (∃ (t : Nat) (p : Fin 2) (c : ConfigMotionPort) (s : State), let d := s.dev.advance t; (d.portCfg p.val = some
      c) ∧ ((d.port p.val).silence + ms10 ≤ t))
    ∧ (∃ (t : Nat) (s : State), let d := s.dev.advance t; (d.deck.est.valid = false ∨ d.deckValid t = true ∨
      d.power.mode = .shadow))
    ∧ (∃ (t : Nat) (s : State), let d := s.dev.advance t; (d.deck.est.valid = true) ∧ (d.deckValid t = false) ∧
      (d.power.mode ≠ .shadow))
    ∧ (∃ (t : Nat) (s : State), let d := s.dev.advance t; (d.deck.loadDef.isSome = true) ∧ (d.deck.load.isSome = true)
      ∧ (d.deck.loadSaid = false) ∧ (d.loadFresh (max t d.latestUse) = false))
    ∧ (∃ (t : Nat) (s : State), let d := s.dev.advance t; (d.ballastFresh t = true))
    ∧ (∃ (t : Nat) (s : State), let d := s.dev.advance t; (d.ballastFresh t = false)) :=
  ⟨⟨0, 0, { enable := 1, check := 1, nBytes := 8 }, (on .run (fun d =>
    { d with deck := { ports := [{ cfg := some { enable := 1, check := 1, nBytes := 8 }, reading := false }] } })),
    by decide +kernel⟩,
   ⟨0, 0, { enable := 1, check := 1, nBytes := 8 }, (on .run (fun d =>
     { d with deck := { ports := [{ cfg := some { enable := 1, check := 1, nBytes := 8 }, reading := true }] } })),
     by decide +kernel⟩,
   ⟨0, 0, st, by decide +kernel⟩,
   ⟨0, 0, { enable := 1, check := 1, nBytes := 8 }, List.replicate 8 0, [], (on .run (fun d =>
     { d with deck := { ports := [{ cfg := some { enable := 1, check := 1, nBytes := 8 }, reading := true }] } })),
     by decide +kernel⟩,
   ⟨0, 0, { enable := 1, check := 1, nBytes := 8 }, [1, 0, 0, 0, 0, 0, 0, 0], [], (on .run (fun d =>
     { d with deck := { ports := [{ cfg := some { enable := 1, check := 1, nBytes := 8 }, reading := true }] } })),
     by decide +kernel⟩,
   ⟨0, 0, st, by decide +kernel⟩,
   ⟨0, 0, (on .run (fun d => { d with deck := { est := { flags := 1 } } })), by decide +kernel⟩,
   ⟨10240000, 0, { enable := 1, check := 1, nBytes := 8 }, (on .run (fun d =>
     { d with deck := { ports := [{ cfg := some { enable := 1, check := 1, nBytes := 8 }, reading := true }] } })),
     by decide +kernel⟩,
   ⟨0, st, by decide +kernel⟩,
   ⟨0, (on .run (fun d => { d with deck := { est := { flags := 1 } } })), by decide +kernel⟩,
   ⟨1, (on .run (fun d => { d with deck := { loadDef := some {}, load := some {} } })), by decide +kernel⟩,
   ⟨0, (on .run (fun d => { d with deck := { ballast := some {}, status := some {} } })), by decide +kernel⟩,
   ⟨0, st, by decide +kernel⟩⟩

/-- The hypotheses of each clause of CoreEventsEndTheirTask can be met. -/
theorem witness_CoreEventsEndTheirTask :
    (∃ (t : Nat) (k : Fin 4) (s : State), let d := (s.dev.advance t).runCoreTo t k.val; (d.onCore k.val = none))
    ∧ (∃ (t : Nat) (k : Fin 4) (s : State), let d := (s.dev.advance t).runCoreTo t k.val; (d.onCore k.val = none))
    ∧ (∃ (t : Nat) (k : Fin 4) (x : Task) (j : Nat) (s : State), let d := (s.dev.advance t).runCoreTo t k.val;
      (d.onCore k.val = some x) ∧ (kernelOf x.entry = some j))
    ∧ (∃ (t : Nat) (k : Fin 4) (x : Task) (j : Nat) (s : State), let d := (s.dev.advance t).runCoreTo t k.val;
      (d.onCore k.val = some x) ∧ (kernelOf x.entry = some j))
    ∧ (∃ (t : Nat) (k : Fin 4) (x : Task) (s : State), let d := (s.dev.advance t).runCoreTo t k.val; (d.onCore k.val =
      some x) ∧ (kernelOf x.entry = none))
    ∧ (∃ (t : Nat) (k : Fin 4) (x : Task) (s : State), let d := (s.dev.advance t).runCoreTo t k.val; (d.onCore k.val =
      some x) ∧ (kernelOf x.entry = none))
    ∧ (∃ (r : SignalRun), (r.core.st.getLsbD 1 = true) ∧ (r.core.slots = 0))
    ∧ (∃ (r : SignalRun), (r.core.st.getLsbD 1 = false))
    ∧ (∃ (t : Nat) (k : Fin 8) (s : State), let d := s.dev.advance t; ((look d.sig.kernels k.val).running = true))
    ∧ (∃ (d : Dev) (i : Nat) (c : LoadKernel), ((look d.sig.kernels i).cfg = some c) ∧ (d.disp.tasks = []))
    ∧ (∃ (t : Nat) (k : Fin 8) (s : State), let d := s.dev.advance t; ((look d.sig.kernels k.val).running = false)) :=
  ⟨⟨0, 0, st, by decide +kernel⟩,
   ⟨0, 0, st, by decide +kernel⟩,
   ⟨0, 0, { entry := 0x700, phase := .running }, 0, (on .run (fun d =>
     { d with sig := { kernels := [(0, { cfg := some {} })] }, disp := { tasks := [{ entry := 0x700, phase := .running }] } })),
     by decide +kernel⟩,
   ⟨0, 0, { entry := 0x700, phase := .running }, 0, (on .run (fun d =>
     { d with sig := { kernels := [(0, { cfg := some {} })] }, disp := { tasks := [{ entry := 0x700, phase := .running }] } })),
     by decide +kernel⟩,
   ⟨0, 0, { phase := .running }, (on .run (fun d =>
     { d with deck := { cfg := some {} }, disp := { tasks := [{ phase := .running }] } })), by decide +kernel⟩,
   ⟨0, 0, { phase := .running }, (on .run (fun d =>
     { d with deck := { cfg := some {} }, disp := { tasks := [{ phase := .running }] } })), by decide +kernel⟩,
   ⟨{ core := { st := 2 }, brine := {} }, by decide +kernel⟩,
   ⟨{ core := {}, brine := {} }, by decide +kernel⟩,
   ⟨0, 0, (on .run (fun d => { d with sig := { kernels := [(0, { cfg := some {}, running := true })] } })),
     by decide +kernel⟩,
   ⟨{ sig := { kernels := [(0, { cfg := some {} })] } }, 0, {}, by decide +kernel⟩,
   ⟨0, 0, st, by decide +kernel⟩⟩

/-- The hypotheses of each clause of ReceivedFramesTakeEffect can be met. -/
theorem witness_ReceivedFramesTakeEffect :
    (∃ (t : Nat) (f : FrameIn) (fr : Frame) (s : State), let d := s.dev.advance t; ((d.hear t f 3).frame = some fr) ∧
      ((d.hear t f 3).copy = false))
    ∧ (∃ (t : Nat) (f : FrameIn) (fr : Frame) (s : State), let d := s.dev.advance t; ((d.hear t f 3).frame = some fr)
      ∧ ((d.hear t f 3).copy = true))
    ∧ (∃ (t : Nat) (f : FrameIn) (s : State), let d := s.dev.advance t; ((d.hear t f 3).frame = none))
    ∧ (∃ (t : Nat) (f : FrameIn) (fr : Frame) (s : State), let d := s.dev.advance t; ((d.hear t f 5).frame = some fr)
      ∧ ((d.hear t f 5).copy = false))
    ∧ (∃ (t : Nat) (f : FrameIn) (fr : Frame) (s : State), let d := s.dev.advance t; ((d.hear t f 5).frame = some fr)
      ∧ ((d.hear t f 5).copy = true))
    ∧ (∃ (t : Nat) (f : FrameIn) (s : State), let d := s.dev.advance t; ((d.hear t f 5).frame = none))
    ∧ (∃ (t : Nat) (f : FrameIn) (fr : Frame) (s : State), let d := s.dev.advance t; ((d.hear t f 4).frame = some fr)
      ∧ ((d.hear t f 4).copy = false))
    ∧ (∃ (t : Nat) (f : FrameIn) (fr : Frame) (s : State), let d := s.dev.advance t; ((d.hear t f 4).frame = some fr)
      ∧ ((d.hear t f 4).copy = true))
    ∧ (∃ (t : Nat) (f : FrameIn) (s : State), let d := s.dev.advance t; ((d.hear t f 4).frame = none))
    ∧ (∃ (t : Nat) (f : FrameIn) (fr : Frame) (s : State), let d := s.dev.advance t; ((d.hear t f 6).frame = some fr)
      ∧ ((d.hear t f 6).copy = false))
    ∧ (∃ (t : Nat) (f : FrameIn) (fr : Frame) (s : State), let d := s.dev.advance t; ((d.hear t f 6).frame = some fr)
      ∧ ((d.hear t f 6).copy = true))
    ∧ (∃ (t : Nat) (f : FrameIn) (s : State), let d := s.dev.advance t; ((d.hear t f 6).frame = none))
    ∧ (∃ (t : Nat) (f : FrameIn) (fr : Frame) (s : State), let d := s.dev.advance t; ((d.hear t f 7).frame = some fr)
      ∧ ((d.hear t f 7).copy = false) ∧ (rd 32 fr.payload 0 ≠ 0))
    ∧ (∃ (t : Nat) (f : FrameIn) (fr : Frame) (s : State), let d := s.dev.advance t; ((d.hear t f 7).frame = some fr)
      ∧ ((d.hear t f 7).copy = true))
    ∧ (∃ (t : Nat) (f : FrameIn) (s : State), let d := s.dev.advance t; ((d.hear t f 7).frame = none))
    ∧ (∃ (t : Nat) (f : FrameIn) (fr : Frame) (s : State), let d := s.dev.advance t; ((d.hear t f 0x0D).frame = some
      fr) ∧ ((d.hear t f 0x0D).copy = false))
    ∧ (∃ (t : Nat) (f : FrameIn) (fr : Frame) (s : State), let d := s.dev.advance t; ((d.hear t f 0x0D).frame = some
      fr) ∧ ((d.hear t f 0x0D).copy = true))
    ∧ (∃ (t : Nat) (f : FrameIn) (s : State), let d := s.dev.advance t; ((d.hear t f 0x0D).frame = none))
    ∧ (∃ (t : Nat) (f : FrameIn) (fr : Frame) (s : State), let d := s.dev.advance t; let d1 := (d.hear t f 3).dev;
      ((d.hear t f 3).frame = some fr) ∧ ((d.hear t f 3).copy = false) ∧ ((rd 8 fr.payload 16).toNat = 1) ∧ ((rd 64
      fr.payload 0).toNat = d1.bk) ∧ ((rd 8 fr.payload 32).toNat ≤ 127) ∧ (d1.multJoint (rd 8 fr.payload 32).toNat =
      false))
    ∧ (∃ (t : Nat) (f : FrameIn) (fr : Frame) (x : ParamTx) (s : State), let d := s.dev.advance t; ((d.hear t f
      4).frame = some fr) ∧ ((d.hear t f 4).copy = false) ∧ ((d.hear t f 4).dev.bus.params.find? (fun x => x.sent &&
      x.tid == rd 16 fr.payload 0 && rd 8 fr.payload 2 == x.p.op ||| 0x80) = some x) ∧ (t ≤ x.deadline))
    ∧ (∃ (t : Nat) (f : FrameIn) (fr : Frame) (s : State), let d := s.dev.advance t; ((d.hear t f 1).frame = some fr))
    ∧ (∃ (t : Nat) (f : FrameIn) (fr : Frame) (s : State), let d := s.dev.advance t; ((d.hear t f 1).frame = none) ∧
      ((d.hear t f 1).outside = some fr))
    ∧ (∃ (t : Nat) (f : FrameIn) (s : State), let d := s.dev.advance t; ((d.hear t f 1).frame = none) ∧ ((d.hear t f
      1).outside = none)) :=
  ⟨⟨0,
    { ch := 0, slot := 0, tObs := 0, form := .phy true false 0x88B5 (frame 3 (List.replicate 16 0 ++ [1] ++ List.replicate 39 0)) },
    (parseFrame (frame 3 (List.replicate 16 0 ++ [1] ++ List.replicate 39 0))), (on .run (fun d =>
    { d with bus := { chans := [(0, { mode := .phy })], sets := [{ state := .synced, entries := [(0, 0x50300000000)] }] } })),
    by decide +kernel⟩,
   ⟨0,
     { ch := 0, slot := 0, tObs := 0, form := .phy true false 0x88B5 (frame 3 (List.replicate 16 0 ++ [1] ++ List.replicate 39 0)) },
     (parseFrame (frame 3 (List.replicate 16 0 ++ [1] ++ List.replicate 39 0))), (on .run (fun d =>
     { d with bus := { chans := [(0, { mode := .phy })], sets := [{ state := .synced, seen := [(0, 0)], entries := [(0, 0x50300000000)] }] } })),
     by decide +kernel⟩,
   ⟨0, default, st, by decide +kernel⟩,
   ⟨0, { ch := 0, slot := 0, tObs := 0, form := .phy true false 0x88B5 (frame 5 (List.replicate 28 0)) }, (parseFrame
     (frame 5 (List.replicate 28 0))), (on .run (fun d =>
     { d with bus := { chans := [(0, { mode := .phy })], sets := [{ state := .synced, entries := [(0, 0x50500000000)] }] } })),
     by decide +kernel⟩,
   ⟨0, { ch := 0, slot := 0, tObs := 0, form := .phy true false 0x88B5 (frame 5 (List.replicate 28 0)) }, (parseFrame
     (frame 5 (List.replicate 28 0))), (on .run (fun d =>
     { d with bus := { chans := [(0, { mode := .phy })], sets := [{ state := .synced, seen := [(0, 0)], entries := [(0, 0x50500000000)] }] } })),
     by decide +kernel⟩,
   ⟨0, default, st, by decide +kernel⟩,
   ⟨0, { ch := 0, slot := 0, tObs := 0, form := .phy true false 0x88B5 (frame 4 (List.replicate 12 0)) }, (parseFrame
     (frame 4 (List.replicate 12 0))), (on .run (fun d =>
     { d with bus := { chans := [(0, { mode := .phy })], sets := [{ state := .synced, entries := [(0, 0x50400000000)] }] } })),
     by decide +kernel⟩,
   ⟨0, { ch := 0, slot := 0, tObs := 0, form := .phy true false 0x88B5 (frame 4 (List.replicate 12 0)) }, (parseFrame
     (frame 4 (List.replicate 12 0))), (on .run (fun d =>
     { d with bus := { chans := [(0, { mode := .phy })], sets := [{ state := .synced, seen := [(0, 0)], entries := [(0, 0x50400000000)] }] } })),
     by decide +kernel⟩,
   ⟨0, default, st, by decide +kernel⟩,
   ⟨0, { ch := 0, slot := 0, tObs := 0, form := .phy true false 0x88B5 (frame 6 (List.replicate 4 0)) }, (parseFrame
     (frame 6 (List.replicate 4 0))), (on .run (fun d =>
     { d with bus := { chans := [(0, { mode := .phy })], sets := [{ state := .synced, entries := [(0, 0x50600000000)] }] } })),
     by decide +kernel⟩,
   ⟨0, { ch := 0, slot := 0, tObs := 0, form := .phy true false 0x88B5 (frame 6 (List.replicate 4 0)) }, (parseFrame
     (frame 6 (List.replicate 4 0))), (on .run (fun d =>
     { d with bus := { chans := [(0, { mode := .phy })], sets := [{ state := .synced, seen := [(0, 0)], entries := [(0, 0x50600000000)] }] } })),
     by decide +kernel⟩,
   ⟨0, default, st, by decide +kernel⟩,
   ⟨0, { ch := 0, slot := 0, tObs := 0, form := .phy true false 0x88B5 (frame 7 ([1] ++ List.replicate 15 0)) },
     (parseFrame (frame 7 ([1] ++ List.replicate 15 0))), (on .run (fun d =>
     { d with bus := { chans := [(0, { mode := .phy })], sets := [{ state := .synced, entries := [(0, 0x50700000000)] }] } })),
     by decide +kernel⟩,
   ⟨0, { ch := 0, slot := 0, tObs := 0, form := .phy true false 0x88B5 (frame 7 (List.replicate 16 0)) }, (parseFrame
     (frame 7 (List.replicate 16 0))), (on .run (fun d =>
     { d with bus := { chans := [(0, { mode := .phy })], sets := [{ state := .synced, seen := [(0, 0)], entries := [(0, 0x50700000000)] }] } })),
     by decide +kernel⟩,
   ⟨0, default, st, by decide +kernel⟩,
   ⟨0, { ch := 0, slot := 0, tObs := 0, form := .phy true false 0x88B5 (frame 13 (List.replicate 8 0)) }, (parseFrame
     (frame 13 (List.replicate 8 0))), (on .run (fun d =>
     { d with bus := { chans := [(0, { mode := .phy })], sets := [{ state := .synced, entries := [(0, 0x50d00000000)] }] } })),
     by decide +kernel⟩,
   ⟨0, { ch := 0, slot := 0, tObs := 0, form := .phy true false 0x88B5 (frame 13 (List.replicate 8 0)) }, (parseFrame
     (frame 13 (List.replicate 8 0))), (on .run (fun d =>
     { d with bus := { chans := [(0, { mode := .phy })], sets := [{ state := .synced, seen := [(0, 0)], entries := [(0, 0x50d00000000)] }] } })),
     by decide +kernel⟩,
   ⟨0, default, st, by decide +kernel⟩,
   ⟨0,
     { ch := 0, slot := 0, tObs := 0, form := .phy true false 0x88B5 (frame 3 (List.replicate 16 0 ++ [1] ++ List.replicate 39 0)) },
     (parseFrame (frame 3 (List.replicate 16 0 ++ [1] ++ List.replicate 39 0))), (on .run (fun d =>
     { d with bus := { chans := [(0, { mode := .phy })], sets := [{ state := .synced, entries := [(0, 0x50300000000)] }] } })),
     by decide +kernel⟩,
   ⟨0,
     { ch := 0, slot := 0, tObs := 0, form := .phy true false 0x88B5 (frame 4 ([0, 0, 0x80] ++ List.replicate 9 0)) },
     (parseFrame (frame 4 ([0, 0, 0x80] ++ List.replicate 9 0))), { sent := true, deadline := 1 }, (on .run (fun d =>
     { d with bus := { chans := [(0, { mode := .phy })], sets := [{ state := .synced, entries := [(0, 0x50400000000)] }], params := [{ sent := true, deadline := 1 }] } })),
     by decide +kernel⟩,
   ⟨0, { ch := 0, slot := 0, tObs := 0, form := .phy true false 0x88B5 (frame 1 (List.replicate 24 0)) }, (parseFrame
     (frame 1 (List.replicate 24 0))), (on .run (fun d =>
     { d with bus := { chans := [(0, { mode := .phy })], sets := [{ state := .synced, entries := [(0, 0x50100000000)] }] } })),
     by decide +kernel⟩,
   ⟨0, { ch := 0, slot := 0, tObs := 10000, form := .phy true false 0x88B5 (frame 1 (List.replicate 24 0)) },
     (parseFrame (frame 1 (List.replicate 24 0))), (on .run (fun d =>
     { d with bus := { chans := [(0, { mode := .phy })], sets := [{ state := .synced, entries := [(0, 0x50100000000)] }] } })),
     by decide +kernel⟩,
   ⟨0, default, st, by decide +kernel⟩⟩

/-- The hypotheses of each clause of BusTimersTakeEffect can be met. -/
theorem witness_BusTimersTakeEffect :
    (∃ (t : Nat) (set : Fin 5) (slot : Fin 128) (s : State), let d := s.dev.advance t; (t ≠ d.slotStart set.val
      slot.val))
    ∧ (∃ (t : Nat) (set : Fin 5) (slot : Fin 128) (s : State), let d := s.dev.advance t; (t = d.slotStart set.val
      slot.val) ∧ (d.sluice set.val slot.val = none))
    ∧ (∃ (t : Nat) (set : Fin 5) (slot : Fin 128) (w : Nat × Nat) (x : Sent) (s : State), let d := s.dev.advance t; (t
      = d.slotStart set.val slot.val) ∧ (d.sluice set.val slot.val = some w) ∧ (eUse ((d.busSet set.val).entry
      slot.val) = 3) ∧ (d.bus.sent.find? (fun y => decide (y.set = set.val) && decide (y.slot = eRetryOf ((d.busSet
      set.val).entry slot.val))) = some x))
    ∧ (∃ (t : Nat) (set : Fin 5) (slot : Fin 128) (w : Nat × Nat) (x : Dev) (p : List Byte) (s : State),
      let d := s.dev.advance t; (t = d.slotStart set.val slot.val) ∧ (d.sluice set.val slot.val = some w) ∧ (eUse
      ((d.busSet set.val).entry slot.val) ≠ 3) ∧ (d.payloadFor t set.val slot.val = some (x, p)))
    ∧ (∃ (t : Nat) (set : Fin 5) (s : State), let d := s.dev.advance t; (d.syncEnd set.val = none))
    ∧ (∃ (t : Nat) (set : Fin 5) (x : Nat) (s : State), let d := s.dev.advance t; (d.syncEnd set.val = some x) ∧
      ((d.busSet set.val).state ≠ .off) ∧ (x ≤ t) ∧ ((d.busSet set.val).corrAt ≠ some d.bk) ∧ (corrTrim ((d.busSet
      set.val).corrValues (d.ownSource set.val)) = none))
    ∧ (∃ (t : Nat) (set : Fin 5) (s : State), let d := s.dev.advance t; ((d.busSet set.val).state = .listen) ∧
      ((d.busSet set.val).backoff = none) ∧ ((d.busSet set.val).since + 2 * d.time.tc ≤ t) ∧ ((d.ownCold
      set.val).isSome = true))
    ∧ (∃ (t : Nat) (set : Fin 5) (b : Nat) (s : State), let d := s.dev.advance t; ((d.busSet set.val).backoff = some
      b) ∧ ((d.busSet set.val).state = .listen) ∧ (b ≤ t))
    ∧ (∃ (t : Nat) (ch : Fin 10) (s : State), let d := s.dev.advance t; ((look d.bus.chans ch.val).mode = .phy) ∧
      (d.power.mode ≠ .dormant) ∧ (d.power.mode ≠ .boot))
    ∧ (∃ (t : Nat) (ch : Fin 10) (s : State), let d := s.dev.advance t; ((look d.bus.chans ch.val).mode = .phy) ∧
      (d.power.mode ≠ .dormant) ∧ (d.power.mode ≠ .boot))
    ∧ (∃ (t : Nat) (cell : Fin 16) (s : State), let d := s.dev.advance t; (d.isManager = true) ∧ ((look d.pair.workers
      cell.val).joined = true) ∧ ((look d.pair.workers cell.val).lastRx + (d.busSet 4).cfg.syncLoss.toNat * d.time.tc
      < t)) :=
  ⟨⟨1, 0, 0, st, by decide +kernel⟩,
   ⟨0, 0, 0, st, by decide +kernel⟩,
   ⟨0, 0, 0, (0, 0), {}, (on .run (fun d =>
     { d with bus := { chans := [(0, { mode := .phy })], sets := [{ state := .synced, entries := [(0, 0x00000D0100000000)] }], sent := [{}] } })),
     by decide +kernel⟩,
   ⟨0, 0, 0, (0, 0), ((((on .run (fun d =>
     { d with bus := { chans := [(0, { mode := .phy })], sets := [{ state := .synced, entries := [(0, 0x0000050100000000)] }] } })).dev).advance
     0).syncPayload 0 0).1, ((((on .run (fun d =>
     { d with bus := { chans := [(0, { mode := .phy })], sets := [{ state := .synced, entries := [(0, 0x0000050100000000)] }] } })).dev).advance
     0).syncPayload 0 0).2, (on .run (fun d =>
     { d with bus := { chans := [(0, { mode := .phy })], sets := [{ state := .synced, entries := [(0, 0x0000050100000000)] }] } })),
     ⟨by decide +kernel, by decide +kernel, by decide +kernel, rfl⟩⟩,
   ⟨0, 0, st, by decide +kernel⟩,
   ⟨1280, 0, 1280, (on .run (fun d =>
     { d with bus := { chans := [(0, { mode := .phy })], sets := [{ state := .synced, entries := [(0, 0x000005010100A000)] }] } })),
     by decide +kernel⟩,
   ⟨256001, 0, (on .run (fun d =>
     { d with bus := { sets := [{ state := .listen, entries := [(0, 0x0018050100001000)] }] } })), by decide +kernel⟩,
   ⟨1, 0, 0, (on .run (fun d => { d with bus := { sets := [{ state := .listen, backoff := some 0 }] } })),
     by decide +kernel⟩,
   ⟨0, 0, (on .run (fun d => { d with bus := { chans := [(0, { mode := .phy })] } })), by decide +kernel⟩,
   ⟨0, 0, (on .run (fun d => { d with bus := { chans := [(0, { mode := .phy })] } })), by decide +kernel⟩,
   ⟨1000000, 0, (on .run (fun d =>
     { d with boot := { d.boot with role := 1 }, pair := { workers := [(0, { joined := true })] } })),
     by decide +kernel⟩⟩

/-- The hypotheses of each clause of LeaseMessagesTakeEffect can be met. -/
theorem witness_LeaseMessagesTakeEffect :
    (∃ (t : Nat) (m : LeaseMsg) (s : State), let d := s.dev.advance t; (d.ownPairMsg m = true) ∧ (m.kind = 3) ∧
      (m.unit.toNat = d.unitBits) ∧ (d.leaseIn = true))
    ∧ (∃ (t : Nat) (m : LeaseMsg) (s : State), let d := s.dev.advance t; (d.ownPairMsg m = true) ∧ (m.kind = 3) ∧
      (m.unit.toNat = d.unitBits) ∧ (d.leaseIn = false) ∧ (d.time.valid = false ∨ m.instant ≤ t ∨ t < d.pair.pledge))
    ∧ (∃ (t : Nat) (m : LeaseMsg) (s : State), let d := s.dev.advance t; (d.ownPairMsg m = true) ∧ (m.kind = 3) ∧
      (m.unit.toNat = d.unitBits) ∧ (d.leaseIn = false) ∧ (d.time.valid = true) ∧ (t < m.instant) ∧ (d.pair.pledge ≤
      t) ∧ (m.flags.getLsbD 4 = true))
    ∧ (∃ (t : Nat) (m : LeaseMsg) (s : State), let d := s.dev.advance t; (d.ownPairMsg m = true) ∧ (m.kind = 3) ∧
      (m.unit.toNat = d.unitBits) ∧ (d.leaseIn = false) ∧ (d.time.valid = true) ∧ (t < m.instant) ∧ (d.pair.pledge ≤
      t) ∧ (m.flags.getLsbD 4 = false) ∧ (((d.onPair (fun p =>
      { p with xh := max p.xh m.instant, wasHolder := true, shadowAt := none })).ownNotice t 1 true).power.mode ≠
      .shadow ∨ d.holdsLease = true))
    ∧ (∃ (t : Nat) (m : LeaseMsg) (s : State), let d := s.dev.advance t; (d.ownPairMsg m = true) ∧ (m.kind = 3) ∧
      (m.unit.toNat = d.unitBits) ∧ (d.leaseIn = false) ∧ (d.time.valid = true) ∧ (t < m.instant) ∧ (d.pair.pledge ≤
      t) ∧ (m.flags.getLsbD 4 = false) ∧ (((d.onPair (fun p =>
      { p with xh := max p.xh m.instant, wasHolder := true, shadowAt := none })).ownNotice t 1 true).power.mode =
      .shadow) ∧ (d.holdsLease = false))
    ∧ (∃ (t : Nat) (m : LeaseMsg) (s : State), let d := s.dev.advance t; (d.ownPairMsg m = true) ∧ (m.kind = 3) ∧
      (m.unit.toNat ≠ d.unitBits) ∧ (m.flags.getLsbD 4 = true))
    ∧ (∃ (t : Nat) (m : LeaseMsg) (s : State), let d := s.dev.advance t; (d.ownPairMsg m = true) ∧ (m.kind = 3) ∧
      (m.unit.toNat ≠ d.unitBits) ∧ (m.flags.getLsbD 4 = false))
    ∧ (∃ (t : Nat) (m : LeaseMsg) (s : State), let d := s.dev.advance t; (d.ownPairMsg m = false))
    ∧ (∃ (t : Nat) (m : LeaseMsg) (s : State), let d := s.dev.advance t; (d.ownPairMsg m = true) ∧ (m.kind = 4) ∧
      (m.unit.toNat = d.unitBits))
    ∧ (∃ (t : Nat) (m : LeaseMsg) (s : State), let d := s.dev.advance t; (d.ownPairMsg m = false ∨ m.kind ≠ 4 ∨
      m.unit.toNat ≠ d.unitBits))
    ∧ (∃ (t : Nat) (m : LeaseMsg) (s : State), let d := s.dev.advance t; (d.arbCell m.cell.toNat = none))
    ∧ (∃ (t : Nat) (m : LeaseMsg) (s : State), let d := s.dev.advance t; ((d.arbCell m.cell.toNat).isSome = true) ∧
      (m.unit.toNat ≤ 1) ∧ (m.kind = 2))
    ∧ (∃ (t : Nat) (m : LeaseMsg) (s : State), let d := s.dev.advance t; ((d.arbCell m.cell.toNat).isSome = true) ∧
      (m.unit.toNat ≤ 1) ∧ (m.kind = 5) ∧ (d.inPair = false))
    ∧ (∃ (t : Nat) (m : LeaseMsg) (s : State), let d := s.dev.advance t; (d.arbCell m.cell.toNat = none) ∧
      (d.ownPairMsg m = true) ∧ (m.kind = 5) ∧ (m.unit.toNat = 1 - d.unitBits))
    ∧ (∃ (t : Nat) (m : LeaseMsg) (s : State), let d := s.dev.advance t; ((d.arbCell m.cell.toNat).isSome = true) ∧
      (m.unit.toNat ≤ 1) ∧ (m.kind = 1) ∧ (d.inPair = false))
    ∧ (∃ (t : Nat) (m : LeaseMsg) (s : State), let d := s.dev.advance t; (d.arbCell m.cell.toNat = none) ∧
      (d.ownPairMsg m = true) ∧ (m.kind = 1) ∧ (m.unit.toNat = 1 - d.unitBits))
    ∧ (∃ (t : Nat) (cell : Fin 16) (s : State), let d := s.dev.advance t; (d.arbCell cell.val = none))
    ∧ (∃ (t : Nat) (cell : Fin 16) (p : ArbitratePair) (s : State), let d := s.dev.advance t; (d.arbCell cell.val =
      some p) ∧ (t ≠ d.slotStart 4 p.slot.toNat))
    ∧ (∃ (t : Nat) (cell : Fin 16) (p : ArbitratePair) (s : State), let d := s.dev.advance t; (d.arbCell cell.val =
      some p) ∧ (t = d.slotStart 4 p.slot.toNat) ∧ ((look d.pair.cells cell.val).dissolve = true))
    ∧ (∃ (t : Nat) (cell : Fin 16) (p : ArbitratePair) (h : Nat) (st : Nat) (s : State), let d := s.dev.advance t;
      (d.arbCell cell.val = some p) ∧ (t = d.slotStart 4 p.slot.toNat) ∧ ((look d.pair.cells cell.val).dissolve =
      false) ∧ ((look d.pair.cells cell.val).holder = some h) ∧ ((look d.pair.cells cell.val).request = some (h, st))
      ∧ (d.bk ≤ st) ∧ (st < (look d.pair.cells cell.val).x) ∧ (d.time.valid = true))
    ∧ (∃ (t : Nat) (cell : Fin 16) (p : ArbitratePair) (h : Nat) (st : Nat) (s : State), let d := s.dev.advance t;
      (d.arbCell cell.val = some p) ∧ (t = d.slotStart 4 p.slot.toNat) ∧ ((look d.pair.cells cell.val).dissolve =
      false) ∧ ((look d.pair.cells cell.val).holder = some h) ∧ ((look d.pair.cells cell.val).request = some (h, st))
      ∧ (d.bk ≤ st) ∧ ((look d.pair.cells cell.val).x ≤ st ∨ d.time.valid = false))
    ∧ (∃ (t : Nat) (cell : Fin 16) (p : ArbitratePair) (h : Nat) (tr : Nat) (s : State), let d := s.dev.advance t;
      (d.arbCell cell.val = some p) ∧ (t = d.slotStart 4 p.slot.toNat) ∧ ((look d.pair.cells cell.val).dissolve =
      false) ∧ ((look d.pair.cells cell.val).holder = some h) ∧ ((look d.pair.cells cell.val).request = none) ∧ ((look
      d.pair.cells cell.val).release = some (h, tr)) ∧ (tr < (look d.pair.cells cell.val).x))
    ∧ (∃ (t : Nat) (cell : Fin 16) (p : ArbitratePair) (h : Nat) (s : State), let d := s.dev.advance t; (d.arbCell
      cell.val = some p) ∧ (t = d.slotStart 4 p.slot.toNat) ∧ ((look d.pair.cells cell.val).dissolve = false) ∧ ((look
      d.pair.cells cell.val).holder = some h) ∧ ((look d.pair.cells cell.val).request = none) ∧ ((look d.pair.cells
      cell.val).release = none) ∧ (t < (look d.pair.cells cell.val).x) ∧ (d.time.valid = true))
    ∧ (∃ (t : Nat) (cell : Fin 16) (p : ArbitratePair) (h : Nat) (s : State), let d := s.dev.advance t; (d.arbCell
      cell.val = some p) ∧ (t = d.slotStart 4 p.slot.toNat) ∧ ((look d.pair.cells cell.val).dissolve = false) ∧ ((look
      d.pair.cells cell.val).holder = some h) ∧ ((look d.pair.cells cell.val).request = none) ∧ ((look d.pair.cells
      cell.val).release = none) ∧ ((look d.pair.cells cell.val).x ≤ t ∨ d.time.valid = false))
    ∧ (∃ (t : Nat) (cell : Fin 16) (p : ArbitratePair) (s : State), let d := s.dev.advance t; (d.arbCell cell.val =
      some p) ∧ (t = d.slotStart 4 p.slot.toNat) ∧ ((look d.pair.cells cell.val).dissolve = false) ∧ ((look
      d.pair.cells cell.val).holder = none))
    ∧ (∃ (t : Nat) (s : State), let d := s.dev.advance t; (d.pair.wasHolder = true) ∧ (d.inPair = true) ∧
      (d.holdsLease = false) ∧ (d.power.mode.torque = true))
    ∧ (∃ (t : Nat) (s : State), let d := s.dev.advance t; (d.pair.wasHolder = true) ∧ (d.inPair = true) ∧
      (d.holdsLease = false) ∧ (d.power.mode.torque = false))
    ∧ (∃ (t : Nat) (s : State), let d := s.dev.advance t; (d.holdsLease = true)) :=
  ⟨⟨0, { kind := 3 }, (on .run (fun d => { d with pair := { cfg := some {}, partnerX := 1 } })), by decide +kernel⟩,
   ⟨0, { kind := 3 }, (on .run (fun d => { d with pair := { cfg := some {} } })), by decide +kernel⟩,
   ⟨0, { kind := 3, flags := 16, instant := 1 }, (on .run (fun d =>
     { d with pair := { cfg := some {} }, time := { d.time with valid := true } })), by decide +kernel⟩,
   ⟨0, { kind := 3, instant := 1 }, (on .run (fun d =>
     { d with pair := { cfg := some {} }, time := { d.time with valid := true } })), by decide +kernel⟩,
   ⟨0, { kind := 3, instant := 1 }, (on .shadow (fun d =>
     { d with pair := { cfg := some {} }, time := { d.time with valid := true } })), by decide +kernel⟩,
   ⟨0, { kind := 3, unit := 1, flags := 16 }, (on .run (fun d => { d with pair := { cfg := some {} } })),
     by decide +kernel⟩,
   ⟨0, { kind := 3, unit := 1 }, (on .run (fun d => { d with pair := { cfg := some {} } })), by decide +kernel⟩,
   ⟨0, default, st, by decide +kernel⟩,
   ⟨0, { kind := 4 }, (on .run (fun d => { d with pair := { cfg := some {} } })), by decide +kernel⟩,
   ⟨0, default, (on .run (fun d =>
     { d with boot := { d.boot with role := 1 }, pair := { cells := [(0, { cfg := some { enable := 1 } })] } })),
     by decide +kernel⟩,
   ⟨0, default, (on .run (fun d => { d with pair := { cfg := some {}, wasHolder := true } })), by decide +kernel⟩,
   ⟨0, { kind := 2 }, (on .run (fun d =>
     { d with boot := { d.boot with role := 1 }, pair := { cells := [(0, { cfg := some { enable := 1 } })] } })),
     by decide +kernel⟩,
   ⟨0, { kind := 5 }, (on .run (fun d =>
     { d with boot := { d.boot with role := 1 }, pair := { cells := [(0, { cfg := some { enable := 1 } })] } })),
     by decide +kernel⟩,
   ⟨0, { kind := 5, unit := 1 }, (on .run (fun d => { d with pair := { cfg := some {} } })), by decide +kernel⟩,
   ⟨0, { kind := 1 }, (on .run (fun d =>
     { d with boot := { d.boot with role := 1 }, pair := { cells := [(0, { cfg := some { enable := 1 } })] } })),
     by decide +kernel⟩,
   ⟨0, { kind := 1, unit := 1 }, (on .run (fun d => { d with pair := { cfg := some {} } })), by decide +kernel⟩,
   ⟨0, 0, st, by decide +kernel⟩,
   ⟨1, 0, { enable := 1 }, (on .run (fun d =>
     { d with boot := { d.boot with role := 1 }, pair := { cells := [(0, { cfg := some { enable := 1 } })] } })),
     by decide +kernel⟩,
   ⟨0, 0, { enable := 1 }, (on .run (fun d =>
     { d with boot := { d.boot with role := 1 }, pair := { cells := [(0, { cfg := some { enable := 1 }, dissolve := true })] } })),
     by decide +kernel⟩,
   ⟨0, 0, { enable := 1 }, 0, 0, (on .run (fun d =>
     { d with boot := { d.boot with role := 1 }, time := { d.time with valid := true }, pair := { cells := [(0, { cfg := some { enable := 1 }, holder := some 0, request := some (0, 0), x := 1 })] } })),
     by decide +kernel⟩,
   ⟨0, 0, { enable := 1 }, 0, 0, (on .run (fun d =>
     { d with boot := { d.boot with role := 1 }, pair := { cells := [(0, { cfg := some { enable := 1 }, holder := some 0, request := some (0, 0) })] } })),
     by decide +kernel⟩,
   ⟨0, 0, { enable := 1 }, 0, 0, (on .run (fun d =>
     { d with boot := { d.boot with role := 1 }, pair := { cells := [(0, { cfg := some { enable := 1 }, holder := some 0, release := some (0, 0), x := 1 })] } })),
     by decide +kernel⟩,
   ⟨0, 0, { enable := 1 }, 0, (on .run (fun d =>
     { d with boot := { d.boot with role := 1 }, time := { d.time with valid := true }, pair := { cells := [(0, { cfg := some { enable := 1 }, holder := some 0, x := 1 })] } })),
     by decide +kernel⟩,
   ⟨0, 0, { enable := 1 }, 0, (on .run (fun d =>
     { d with boot := { d.boot with role := 1 }, pair := { cells := [(0, { cfg := some { enable := 1 }, holder := some 0 })] } })),
     by decide +kernel⟩,
   ⟨0, 0, { enable := 1 }, (on .run (fun d =>
     { d with boot := { d.boot with role := 1 }, pair := { cells := [(0, { cfg := some { enable := 1 } })] } })),
     by decide +kernel⟩,
   ⟨0, (on .run (fun d => { d with pair := { cfg := some {}, wasHolder := true } })), by decide +kernel⟩,
   ⟨0, (on .ready (fun d => { d with pair := { cfg := some {}, wasHolder := true } })), by decide +kernel⟩,
   ⟨0, (on .run (fun d => { d with pair := { cfg := some {}, xh := 1 }, time := { d.time with valid := true } })),
     by decide +kernel⟩⟩

/-- The hypotheses of each clause of MirrorEventsTakeEffect can be met. -/
theorem witness_MirrorEventsTakeEffect :
    (∃ (t : Nat) (s : State), let d := s.dev.advance t; (d.inPair = true))
    ∧ (∃ (t : Nat) (s : State), let d := s.dev.advance t; (d.inPair = false))
    ∧ (∃ (t : Nat) (p : MirrorPart) (s : State), let d := s.dev.advance t; (d.inPair = true) ∧ (d.holdsLease = false)
      ∧ (d.lanesUp ≠ []) ∧ (d.power.mode ≠ .dormant) ∧ (d.power.mode ≠ .boot) ∧ (4096 < p.length.toNat ∨
      p.length.toNat % 4 ≠ 0))
    ∧ (∃ (t : Nat) (p : MirrorPart) (s : State), let d := s.dev.advance t; (d.inPair = true) ∧ (d.holdsLease = false)
      ∧ (d.lanesUp ≠ []) ∧ (d.power.mode ≠ .dormant) ∧ (d.power.mode ≠ .boot) ∧ (p.length.toNat ≤ 4096) ∧
      (p.length.toNat % 4 = 0) ∧ (d.pair.recNo = some p.period) ∧ (p.crcOk = false))
    ∧ (∃ (t : Nat) (p : MirrorPart) (s : State), let d := s.dev.advance t; (d.inPair = true) ∧ (d.holdsLease = false)
      ∧ (d.lanesUp ≠ []) ∧ (d.power.mode ≠ .dormant) ∧ (d.power.mode ≠ .boot) ∧ (p.length.toNat ≤ 4096) ∧
      (p.length.toNat % 4 = 0) ∧ (d.pair.recNo = some p.period) ∧ (p.crcOk = true) ∧ (p.last = false) ∧
      (d.pair.lastPart = none) ∧ (p.rec? = none))
    ∧ (∃ (t : Nat) (p : MirrorPart) (r : MirrorRec) (s : State), let d := s.dev.advance t; (d.inPair = true) ∧
      (d.holdsLease = false) ∧ (d.lanesUp ≠ []) ∧ (d.power.mode ≠ .dormant) ∧ (d.power.mode ≠ .boot) ∧ (p.length.toNat
      ≤ 4096) ∧ (p.length.toNat % 4 = 0) ∧ (d.pair.recNo = some p.period) ∧ (p.crcOk = true) ∧ (p.last = true) ∧
      (p.part = 0) ∧ (p.rec? = some r))
    ∧ (∃ (t : Nat) (s : State), let d := s.dev.advance t; (d.holdsLease = true))
    ∧ (∃ (t : Nat) (p : BitVec 32) (part : Fin 16) (s : State), let d := s.dev.advance t; (d.holdsLease = true) ∧ ((p,
      part.val) ∉ d.pair.resent))
    ∧ (∃ (t : Nat) (p : BitVec 32) (part : Fin 16) (s : State), let d := s.dev.advance t; ((p, part.val) ∈
      d.pair.resent))
    ∧ (∃ (t : Nat) (s : State), let d := s.dev.advance t; (d.inPair = true))
    ∧ (∃ (t : Nat) (p : BitVec 32) (s : State), let d := s.dev.advance t; (d.pair.recNo = some p) ∧ (d.boundary
      (d.fullPeriod p + 1) + d.time.tc / 2 < t))
    ∧ (∃ (t : Nat) (s : State), let d := s.dev.advance t; (d.pair.recNo = none)) :=
  ⟨⟨0, (on .run (fun d => { d with pair := { cfg := some {} } })), by decide +kernel⟩,
   ⟨0, st, by decide +kernel⟩,
   ⟨0, { length := 4097 }, (on .run (fun d => { d with pair := { cfg := some { lanes := 1 }, lanes := 1 } })),
     by decide +kernel⟩,
   ⟨0, { length := 4096, crcOk := false }, (on .run (fun d =>
     { d with pair := { cfg := some { lanes := 1 }, lanes := 1, recNo := some 0 } })), by decide +kernel⟩,
   ⟨0, { length := 4096 }, (on .run (fun d =>
     { d with pair := { cfg := some { lanes := 1 }, lanes := 1, recNo := some 0 } })), by decide +kernel⟩,
   ⟨0, { length := 4096, last := true, rec? := some {} }, {}, (on .run (fun d =>
     { d with pair := { cfg := some { lanes := 1 }, lanes := 1, recNo := some 0 } })), by decide +kernel⟩,
   ⟨0, (on .run (fun d => { d with pair := { cfg := some {}, xh := 1 } })), by decide +kernel⟩,
   ⟨0, 0, 0, (on .run (fun d =>
     { d with pair := { cfg := some {}, xh := 1 }, time := { d.time with valid := true } })), by decide +kernel⟩,
   ⟨0, 0, 0, (on .run (fun d => { d with pair := { resent := [(0, 0)] } })), by decide +kernel⟩,
   ⟨0, (on .run (fun d => { d with pair := { cfg := some {} } })), by decide +kernel⟩,
   ⟨192001, 0, (on .run (fun d => { d with pair := { recNo := some 0 } })), by decide +kernel⟩,
   ⟨0, st, by decide +kernel⟩⟩

/-- The hypotheses of each clause of SafetyInputEventsTakeEffect can be met. -/
theorem witness_SafetyInputEventsTakeEffect :
    (∃ (t : Nat) (s : State), let d := s.dev.advance t; (d.power.mode = .boot))
    ∧ (∃ (t : Nat) (bit : Fin 8) (v : Bool) (s : State), let d := s.dev.advance t; (d.power.mode = .run) ∧
      ((d.onSafety (fun x => { x with sealPins := setBit x.sealPins bit.val v })).sealOk = false))
    ∧ (∃ (t : Nat) (s : State), let d := s.dev.advance t; (d.power.mode = .commission))
    ∧ (∃ (t : Nat) (bit : Fin 8) (v : Bool) (s : State), let d := s.dev.advance t; (d.power.mode = .dormant) ∧
      ((d.onSafety (fun x => { x with sealPins := setBit x.sealPins bit.val v })).sealOk = false))
    ∧ (∃ (t : Nat) (bit : Fin 8) (v : Bool) (s : State), let d := s.dev.advance t; (d.power.mode = .dormant) ∧
      ((d.onSafety (fun x => { x with sealPins := setBit x.sealPins bit.val v })).sealOk = true))
    ∧ (∃ (t : Nat) (bit : Fin 8) (v : Bool) (s : State), let d := s.dev.advance t; (d.power.mode = .run) ∧
      ((d.onSafety (fun x => { x with sealPins := setBit x.sealPins bit.val v })).sealOk = true))
    ∧ (∃ (t : Nat) (pin : Fin 16) (v : Bool) (s : State), let d := s.dev.advance t; (d.power.mode ≠ .dormant) ∧
      (((d.onSafety (fun x => { x with sin := setBit x.sin pin.val v })).sinPair (pin.val / 2)).function = 0))
    ∧ (∃ (t : Nat) (s : State), let d := s.dev.advance t; (d.power.mode = .dormant))
    ∧ (∃ (t : Nat) (pin : Fin 16) (v : Bool) (d2 : Dev) (s : State), let d := s.dev.advance t; (d.power.mode ≠
      .dormant) ∧ (((d.onSafety (fun x => { x with sin := setBit x.sin pin.val v })).sinPair (pin.val / 2)).function ≠
      0) ∧ (d2 = (d.onSafety (fun x => { x with sin := setBit x.sin pin.val v })).onSafety (fun x =>
      { x with pairs := upd x.pairs (pin.val / 2) (fun y => y.step t ((d.onSafety (fun x => { x with sin := setBit x.sin pin.val v })).sinA (pin.val / 2)) ((d.onSafety (fun x => { x with sin := setBit x.sin pin.val v })).sinB (pin.val / 2))) }))
      ∧ (d2.evaluates = true) ∧ (d2.pairDemand (pin.val / 2) = true) ∧ (d.pairDemand (pin.val / 2) = false))
    ∧ (∃ (t : Nat) (pin : Fin 16) (v : Bool) (d2 : Dev) (s : State), let d := s.dev.advance t; (d.power.mode ≠
      .dormant) ∧ (((d.onSafety (fun x => { x with sin := setBit x.sin pin.val v })).sinPair (pin.val / 2)).function ≠
      0) ∧ (d2 = (d.onSafety (fun x => { x with sin := setBit x.sin pin.val v })).onSafety (fun x =>
      { x with pairs := upd x.pairs (pin.val / 2) (fun y => y.step t ((d.onSafety (fun x => { x with sin := setBit x.sin pin.val v })).sinA (pin.val / 2)) ((d.onSafety (fun x => { x with sin := setBit x.sin pin.val v })).sinB (pin.val / 2))) }))
      ∧ (d2.evaluates = true) ∧ (d2.pairDemand (pin.val / 2) = false ∨ d.pairDemand (pin.val / 2) = true))
    ∧ (∃ (t : Nat) (pin : Fin 16) (v : Bool) (d2 : Dev) (s : State), let d := s.dev.advance t; (d.power.mode ≠
      .dormant) ∧ (((d.onSafety (fun x => { x with sin := setBit x.sin pin.val v })).sinPair (pin.val / 2)).function ≠
      0) ∧ (d2 = (d.onSafety (fun x => { x with sin := setBit x.sin pin.val v })).onSafety (fun x =>
      { x with pairs := upd x.pairs (pin.val / 2) (fun y => y.step t ((d.onSafety (fun x => { x with sin := setBit x.sin pin.val v })).sinA (pin.val / 2)) ((d.onSafety (fun x => { x with sin := setBit x.sin pin.val v })).sinB (pin.val / 2))) }))
      ∧ (d2.evaluates = false))
    ∧ (∃ (t : Nat) (p : Fin 8) (s : State), let d := s.dev.advance t; ((look d.safety.pairs p.val).differ = none))
    ∧ (∃ (t : Nat) (p : Fin 8) (x : Nat) (s : State), let d := s.dev.advance t; ((look d.safety.pairs p.val).differ =
      some x) ∧ (d.evaluates = true) ∧ ((d.sinPair p.val).function ≠ 0) ∧ ((look d.safety.pairs p.val).disc = false) ∧
      (x + (d.sinPair p.val).tDisc.toNat * ms1 < t))
    ∧ (∃ (t : Nat) (a : Bool × Nat) (b : Bool × Nat) (s : State), let d := s.dev.advance t; (d.stoShown = some (a, b))
      ∧ (d.evaluates = true) ∧ (d.safety.stoFbA ≠ a.1) ∧ (a.2 + d.tStofb < t))
    ∧ (∃ (t : Nat) (a : Bool × Nat) (b : Bool × Nat) (s : State), let d := s.dev.advance t; (d.stoShown = some (a, b))
      ∧ (d.evaluates = true) ∧ (d.safety.stoFbB ≠ b.1) ∧ (b.2 + d.tStofb < t))
    ∧ (∃ (t : Nat) (a : Bool × Nat) (b : Bool × Nat) (s : State), let d := s.dev.advance t; (d.stoShown = some (a, b))
      ∧ (d.safety.stoFbA = a.1 ∨ t ≤ a.2 + d.tStofb) ∧ (d.safety.stoFbB = b.1 ∨ t ≤ b.2 + d.tStofb))
    ∧ (∃ (t : Nat) (b : Bool) (s : State), let d := s.dev.advance t; (d.evaluates = true) ∧ ((if b then d.safety.stoB
      else d.safety.stoA) = true))
    ∧ (∃ (t : Nat) (c : ConfigStoEdm) (a : Bool × Nat) (b : Bool × Nat) (i : Nat) (s : State),
      let d := s.dev.advance t; (d.stoEdm = some c) ∧ (d.stoShown = some (a, b)) ∧ (d.evaluates = true) ∧ ((List.range
      8).find? (fun i => let o := if c.edmChan.getLsbD i then b else a; c.edmMask.getLsbD i && d.safety.edmIn.getLsbD
      i == o.1 && decide (o.2 + c.tEdm.toNat * ms1 < t)) = some i))
    ∧ (∃ (t : Nat) (b : Nat) (s : State), let d := s.dev.advance t; (d.safety.permit = some b) ∧ (d.power.mode.torque
      = true) ∧ (b < t))
    ∧ (∃ (t : Nat) (b : Nat) (s : State), let d := s.dev.advance t; (d.safety.permit = some b) ∧ (t ≤ b))
    ∧ (∃ (t : Nat) (since : Nat) (s : State), let d := s.dev.advance t; (d.evaluates = true) ∧ (since + 2 * d.time.tc
      < t))
    ∧ (∃ (t : Nat) (since : Nat) (s : State), let d := s.dev.advance t; (t ≤ since + 2 * d.time.tc))
    ∧ (∃ (t : Nat) (c : Fin 64) (s : State), let d := s.dev.advance t; ((d.conn c.val).dir = 1) ∧ ((look
      d.safety.conns c.val).state ≠ .failed) ∧ (d.evaluates = true) ∧ ((look d.safety.conns c.val).lastRx + (d.conn
      c.val).tWd.toNat < t) ∧ ((d.conn c.val).loss ≠ 0))
    ∧ (∃ (t : Nat) (c : Fin 64) (s : State), let d := s.dev.advance t; ((d.conn c.val).dir = 1) ∧ ((look
      d.safety.conns c.val).state ≠ .failed) ∧ (d.evaluates = true) ∧ ((look d.safety.conns c.val).lastRx + (d.conn
      c.val).tWd.toNat < t) ∧ ((d.conn c.val).loss = 0))
    ∧ (∃ (t : Nat) (c : Fin 64) (s : State), let d := s.dev.advance t; ((d.conn c.val).dir ≠ 1 ∨ (look d.safety.conns
      c.val).state = .failed ∨ t ≤ (look d.safety.conns c.val).lastRx + (d.conn c.val).tWd.toNat))
    ∧ (∃ (t : Nat) (b : Bool) (v : Bool) (d1 : Dev) (s : State), let d := s.dev.advance t; (d1 = d.onSafety (fun s =>
      let a' := if b then s.stoFbA else v; let b' := if b then v else s.stoFbB;
      { s with stoFbA := a', stoFbB := b', fbSince := if a' && b' && !(s.stoFbA && s.stoFbB) then t else s.fbSince })))
    ∧ (∃ (t : Nat) (i : Fin 8) (v : Bool) (d1 : Dev) (s : State), let d := s.dev.advance t; (d1 = d.onSafety (fun s =>
      { s with edmIn := setBit s.edmIn i.val v }))) :=
  ⟨⟨0, State.reset, by decide +kernel⟩,
   ⟨0, 0, false, st, by decide +kernel⟩,
   ⟨0, (inMode .commission), by decide +kernel⟩,
   ⟨0, 0, false, (inMode .dormant), by decide +kernel⟩,
   ⟨0, 0, false, (on .dormant (fun d => { d with safety := { valid := true } })), by decide +kernel⟩,
   ⟨0, 0, false, (on .run (fun d => { d with safety := { valid := true } })), by decide +kernel⟩,
   ⟨1024001, 0, false, (on .run (fun d =>
     { d with safety := { committed := [(itemKey 0x0E03 0, [1, 0, 100, 0, 1, 0, 10, 0, 0, 0, 0, 0, 0, 0, 0, 0])], stoFbA := true } })),
     by decide +kernel⟩,
   ⟨0, (inMode .dormant), by decide +kernel⟩,
   ⟨0, 0, false, _, (on .run (fun d =>
     { d with safety := { committed := [(itemKey 0x0E00 0, [0, 1, 0, 1, 1, 0, 1, 0])], sin := 3 } })),
     ⟨by decide +kernel, by decide +kernel, rfl, by decide +kernel, by decide +kernel, by decide +kernel⟩⟩,
   ⟨0, 0, true, _, (on .run (fun d =>
     { d with safety := { committed := [(itemKey 0x0E00 0, [0, 1, 0, 1, 1, 0, 1, 0])], sin := 3 } })),
     ⟨by decide +kernel, by decide +kernel, rfl, by decide +kernel, by decide +kernel⟩⟩,
   ⟨0, 0, false, _, (on .boot (fun d =>
     { d with safety := { committed := [(itemKey 0x0E00 0, [0, 1, 0, 1, 1, 0, 1, 0])], sin := 3 } })),
     ⟨by decide +kernel, by decide +kernel, rfl, by decide +kernel⟩⟩,
   ⟨256001, 0, st, by decide +kernel⟩,
   ⟨1024001, 0, 0, (on .run (fun d =>
     { d with safety := { committed := [(itemKey 0x0E00 0, [0, 1, 0, 1, 1, 0, 1, 0])], pairs := [(0, { differ := some 0 })] } })),
     by decide +kernel⟩,
   ⟨1024001, (false, 0), (false, 0), (on .run (fun d =>
     { d with safety := { committed := [(itemKey 0x0E03 0, [1, 0, 100, 0, 1, 0, 10, 0, 0, 0, 0, 0, 0, 0, 0, 0])], stoFbA := true } })),
     by decide +kernel⟩,
   ⟨1024001, (false, 0), (false, 0), (on .run (fun d =>
     { d with safety := { committed := [(itemKey 0x0E03 0, [1, 0, 100, 0, 1, 0, 10, 0, 0, 0, 0, 0, 0, 0, 0, 0])], stoFbB := true } })),
     by decide +kernel⟩,
   ⟨0, default, default, st, by decide +kernel⟩,
   ⟨0, true, (on .run (fun d => { d with safety := { stoB := true } })), by decide +kernel⟩,
   ⟨10240001, { tStofb := 1, tTp := 100, edmMask := 1, tEdm := 10 }, (false, 0), (false, 0), 0, (on .run (fun d =>
     { d with safety := { committed := [(itemKey 0x0E03 0, [1, 0, 100, 0, 1, 0, 10, 0, 0, 0, 0, 0, 0, 0, 0, 0])] } })),
     by decide +kernel⟩,
   ⟨1, 0, (on .run (fun d => { d with safety := { permit := some 0 } })), by decide +kernel⟩,
   ⟨0, 0, (on .run (fun d => { d with safety := { permit := some 0 } })), by decide +kernel⟩,
   ⟨256001, 0, st, by decide +kernel⟩,
   ⟨0, 0, st, by decide +kernel⟩,
   ⟨1, 0, (on .run (fun d =>
     { d with safety := { committed := [(itemKey 0x0E05 0, [0, 1, 0, 0, 1, 0, 0, 0, 1, 1, 0, 0, 0, 0, 0, 0, 0, 0, 0, 0])] } })),
     by decide +kernel⟩,
   ⟨1, 0, (on .run (fun d =>
     { d with safety := { committed := [(itemKey 0x0E05 0, [0, 1, 0, 0, 1, 0, 0, 0, 1, 0, 0, 0, 0, 0, 0, 0, 0, 0, 0, 0])] } })),
     by decide +kernel⟩,
   ⟨0, 0, st, by decide +kernel⟩,
   ⟨0, false, false, st.dev, st, by decide +kernel⟩,
   ⟨0, 0, false, st.dev, st, by decide +kernel⟩⟩

/-- The hypotheses of each clause of SafetyTimersTakeEffect can be met. -/
theorem witness_SafetyTimersTakeEffect :
    (∃ (t : Nat) (x : Ss1) (c : ConfigStops) (s : State), let d := s.dev.advance t; (d.safety.ss1 = some x) ∧ (d.stops
      = some c) ∧ (c.ss1Mode = 1) ∧ (x.e + c.tSs1.toNat ≤ t))
    ∧ (∃ (t : Nat) (x : Ss1) (c : ConfigStops) (s : State), let d := s.dev.advance t; (d.safety.ss1 = some x) ∧
      (d.stops = some c) ∧ (t < x.e + c.tSs1.toNat))
    ∧ (∃ (t : Nat) (c : ConfigStops) (a : Nat) (w : Watch) (s : State), let d := s.dev.advance t; (d.stops = some c) ∧
      ((d.markStill t).safety.watch.find? (fun e => e.2.overdue c t) = some (a, w)) ∧ ((d.markStill
      t).power.mode.torque = true))
    ∧ (∃ (t : Nat) (c : ConfigStops) (a : Nat) (w : Watch) (s : State), let d := s.dev.advance t; (d.stops = some c) ∧
      ((d.markStill t).safety.watch.find? (fun e => e.2.overdue c t) = some (a, w)) ∧ ((d.markStill
      t).power.mode.torque = false))
    ∧ (∃ (t : Nat) (c : ConfigStops) (s : State), let d := s.dev.advance t; (d.stops = some c) ∧ ((d.markStill
      t).safety.watch.find? (fun e => e.2.overdue c t) = none))
    ∧ (∃ (t : Nat) (x : BrakeTesting) (s : State), let d := s.dev.advance t; (d.safety.test = some x) ∧ (x.until_ ≤ t)
      ∧ (x.phase = .apply))
    ∧ (∃ (t : Nat) (x : BrakeTesting) (s : State), let d := s.dev.advance t; (d.safety.test = some x) ∧ (x.until_ ≤ t)
      ∧ (x.phase = .plus))
    ∧ (∃ (t : Nat) (x : BrakeTesting) (s : State), let d := s.dev.advance t; (d.safety.test = some x) ∧ (x.until_ ≤ t)
      ∧ (x.phase = .minus))
    ∧ (∃ (t : Nat) (x : BrakeTesting) (s : State), let d := s.dev.advance t; (d.safety.test = some x) ∧ (t < x.until_
      ∨ x.phase = .wait))
    ∧ (∃ (t : Nat) (b : Fin 16) (c : ConfigSbc) (s : State), let d := s.dev.advance t; (d.sbc = some c) ∧
      (c.brakes.getLsbD b.val = false ∨ d.safety.dueSaid.getLsbD b.val = true ∨ t ≤ look d.safety.lastPass b.val +
      c.tBt.toNat * 3686400000000))
    ∧ (∃ (t : Nat) (b : Fin 16) (c : ConfigSbc) (s : State), let d := s.dev.advance t; (d.sbc = some c) ∧
      (c.brakes.getLsbD b.val = true) ∧ (d.safety.dueSaid.getLsbD b.val = false) ∧ (look d.safety.lastPass b.val +
      c.tBt.toNat * 3686400000000 < t)) :=
  ⟨⟨256000, {}, { ss1Mode := 1, tSs1 := 256000, tStopMax := 256000 }, (on .run (fun d =>
    { d with safety := { committed := [(itemKey 0x0E01 0, [1, 0, 0, 0, 0, 232, 3, 0, 0, 232, 3, 0] ++ List.replicate 12 0)], ss1 := some {} } })),
    by decide +kernel⟩,
   ⟨255999, {}, { ss1Mode := 1, tSs1 := 256000, tStopMax := 256000 }, (on .run (fun d =>
     { d with safety := { committed := [(itemKey 0x0E01 0, [1, 0, 0, 0, 0, 232, 3, 0, 0, 232, 3, 0] ++ List.replicate 12 0)], ss1 := some {} } })),
     by decide +kernel⟩,
   ⟨256000, { ss1Mode := 1, tSs1 := 256000, tStopMax := 256000 }, 0, { e := some 0 }, (on .run (fun d =>
     { withArm d with safety := { committed := [(itemKey 0x0E01 0, [1, 0, 0, 0, 0, 232, 3, 0, 0, 232, 3, 0] ++ List.replicate 12 0)], joints := [(0, { known := true })], watch := [(0, { e := some 0 })] } })),
     by decide +kernel⟩,
   ⟨256000, { ss1Mode := 1, tSs1 := 256000, tStopMax := 256000 }, 0, { e := some 0 }, (on .ready (fun d =>
     { withArm d with safety := { committed := [(itemKey 0x0E01 0, [1, 0, 0, 0, 0, 232, 3, 0, 0, 232, 3, 0] ++ List.replicate 12 0)], joints := [(0, { known := true })], watch := [(0, { e := some 0 })] } })),
     by decide +kernel⟩,
   ⟨255999, { ss1Mode := 1, tSs1 := 256000, tStopMax := 256000 }, (on .run (fun d =>
     { withArm d with safety := { committed := [(itemKey 0x0E01 0, [1, 0, 0, 0, 0, 232, 3, 0, 0, 232, 3, 0] ++ List.replicate 12 0)], joints := [(0, { known := true })], watch := [(0, { e := some 0 })] } })),
     by decide +kernel⟩,
   ⟨0, { phase := .apply }, (on .hold (fun d => { d with safety := { test := some { phase := .apply } } })),
     by decide +kernel⟩,
   ⟨0, { phase := .plus }, (on .hold (fun d => { d with safety := { test := some { phase := .plus } } })),
     by decide +kernel⟩,
   ⟨0, { phase := .minus }, (on .hold (fun d => { d with safety := { test := some { phase := .minus } } })),
     by decide +kernel⟩,
   ⟨0, {}, (on .hold (fun d => { d with safety := { test := some {} } })), by decide +kernel⟩,
   ⟨0, 0, { brakes := 1, tBt := 1 }, (on .run (fun d =>
     { d with safety := { committed := [(itemKey 0x0E04 0, [1, 0, 0, 0, 1, 0, 0, 0])] } })), by decide +kernel⟩,
   ⟨3686400000001, 0, { brakes := 1, tBt := 1 }, (on .run (fun d =>
     { d with safety := { committed := [(itemKey 0x0E04 0, [1, 0, 0, 0, 1, 0, 0, 0])] } })), by decide +kernel⟩⟩

/-- The hypotheses of each clause of BrakeAndPwmEventsTakeEffect can be met. -/
theorem witness_BrakeAndPwmEventsTakeEffect :
    (∃ (t : Nat) (b : Fin 16) (c : ConfigBrake) (s : State), let d := s.dev.advance t; ((look d.pwm.brakes b.val).cfg
      = some c) ∧ ((look d.pwm.brakes b.val).phase = .pullIn) ∧ ((look d.pwm.brakes b.val).since + c.tPull.toNat *
      1024000 ≤ t))
    ∧ (∃ (t : Nat) (b : Fin 16) (c : ConfigBrake) (s : State), let d := s.dev.advance t; ((look d.pwm.brakes
      b.val).cfg = some c) ∧ ((look d.pwm.brakes b.val).phase ≠ .pullIn ∨ t < (look d.pwm.brakes b.val).since +
      c.tPull.toNat * 1024000))
    ∧ (∃ (t : Nat) (b : Fin 16) (v : Bool) (d1 : Dev) (s : State), let d := s.dev.advance t; (d1 = d.onPwm (fun y =>
      { y with brakes := upd y.brakes b.val (fun x => if x.fb = v then x else { x with fb := v, fbAt := t }) })) ∧
      ((look d1.pwm.brakes b.val).fbReleased = true))
    ∧ (∃ (t : Nat) (b : Fin 16) (v : Bool) (d1 : Dev) (s : State), let d := s.dev.advance t; (d1 = d.onPwm (fun y =>
      { y with brakes := upd y.brakes b.val (fun x => if x.fb = v then x else { x with fb := v, fbAt := t }) })) ∧
      ((look d1.pwm.brakes b.val).fbReleased = false))
    ∧ (∃ (t : Nat) (b : Fin 16) (c : ConfigBrake) (s : State), let d := s.dev.advance t; ((look d.pwm.brakes
      b.val).cfg = some c) ∧ ((look d.pwm.brakes b.val).late = false) ∧ ((look d.pwm.brakes b.val).cmdAt + c.tFb.toNat
      * ms1 < t) ∧ ((look d.pwm.brakes b.val).fbReleased = false) ∧ ((look d.pwm.brakes b.val).cmdRel = true))
    ∧ (∃ (t : Nat) (b : Fin 16) (c : ConfigBrake) (s : State), let d := s.dev.advance t; ((look d.pwm.brakes
      b.val).cfg = some c) ∧ ((look d.pwm.brakes b.val).late = false) ∧ ((look d.pwm.brakes b.val).cmdAt + c.tFb.toNat
      * ms1 < t) ∧ ((look d.pwm.brakes b.val).fbReleased = true) ∧ ((look d.pwm.brakes b.val).cmdRel = false))
    ∧ (∃ (t : Nat) (b : Fin 16) (c : ConfigBrake) (s : State), let d := s.dev.advance t; ((look d.pwm.brakes
      b.val).cfg = some c) ∧ ((look d.pwm.brakes b.val).late = true ∨ t ≤ (look d.pwm.brakes b.val).cmdAt +
      c.tFb.toNat * ms1 ∨ (look d.pwm.brakes b.val).fbReleased = (look d.pwm.brakes b.val).cmdRel))
    ∧ (∃ (t : Nat) (g : Fin 8) (low : Nat) (c : ConfigPwmGroup) (s : State), let d := s.dev.advance t; ((look
      d.pwm.groups g.val).cfg = some c) ∧ ((d.tripSets low = true ∧ (look d.pwm.groups g.val).trip = false) ∨ (look
      d.pwm.groups g.val).clearAt.isSome = true) ∧ (c.tripState ≠ 1 ∨ d.power.mode.torque = false ∨ d.isRetired 6
      g.val = true))
    ∧ (∃ (t : Nat) (g : Fin 8) (low : Nat) (c : ConfigPwmGroup) (s : State), let d := s.dev.advance t; ((look
      d.pwm.groups g.val).cfg = some c) ∧ ((d.tripSets low = true ∧ (look d.pwm.groups g.val).trip = false) ∨ (look
      d.pwm.groups g.val).clearAt.isSome = true) ∧ (c.tripState = 1) ∧ (d.power.mode.torque = true) ∧ (d.isRetired 6
      g.val = false))
    ∧ (∃ (t : Nat) (g : Fin 8) (low : Nat) (s : State), let d := s.dev.advance t; ((look d.pwm.groups g.val).clearAt =
      none) ∧ (d.tripSets low = false ∨ (look d.pwm.groups g.val).trip = true))
    ∧ (∃ (t : Nat) (g : Fin 8) (c : ConfigPwmGroup) (s : State), let d := s.dev.advance t; ((look d.pwm.groups
      g.val).cfg = some c) ∧ (d.isRetired 6 g.val = false) ∧ (d.cycleDue t g.val c = true) ∧ ((look d.pwm.groups
      g.val).driven = true))
    ∧ (∃ (t : Nat) (g : Fin 8) (c : ConfigPwmGroup) (s : State), let d := s.dev.advance t; ((look d.pwm.groups
      g.val).cfg = some c) ∧ (d.isRetired 6 g.val = false) ∧ (d.cycleDue t g.val c = true) ∧ ((look d.pwm.groups
      g.val).driven = false))
    ∧ (∃ (t : Nat) (g : Fin 8) (c : ConfigPwmGroup) (s : State), let d := s.dev.advance t; ((look d.pwm.groups
      g.val).cfg = some c) ∧ (d.isRetired 6 g.val = false) ∧ (d.cycleDue t g.val c = false))
    ∧ (∃ (t : Nat) (g : Fin 8) (c : ConfigPwmGroup) (s : State), let d := s.dev.advance t; ((look d.pwm.groups
      g.val).cfg = some c) ∧ (d.isRetired 6 g.val = true))
    ∧ (∃ (t : Nat) (g : Fin 8) (s : State), let d := s.dev.advance t; ((look d.pwm.groups g.val).cfg = none))
    ∧ (∃ (t : Nat) (g : Fin 8) (span : BitVec 16) (s : State), let d := s.dev.advance t; (32 < spanOff span) ∧ ((look
      d.pwm.groups g.val).coarse = false))
    ∧ (∃ (t : Nat) (g : Fin 8) (span : BitVec 16) (s : State), let d := s.dev.advance t; (32 < spanOff span) ∧ ((look
      d.pwm.groups g.val).coarse = true))
    ∧ (∃ (span : BitVec 16), (spanOff span ≤ 32))
    ∧ (∃ (span : BitVec 16), (spanOff span ≤ 16))
    ∧ (∃ (span : BitVec 16), (16 < spanOff span)) :=
  ⟨⟨10240000, 0, { tPull := 10, tFb := 1 }, (on .run (fun d =>
    { d with pwm := { brakes := [(0, { cfg := some { tPull := 10, tFb := 1 }, phase := .pullIn })] } })),
    by decide +kernel⟩,
   ⟨0, 0, { tPull := 10, tFb := 1 }, (on .run (fun d =>
     { d with pwm := { brakes := [(0, { cfg := some { tPull := 10, tFb := 1 } })] } })), by decide +kernel⟩,
   ⟨0, 0, true, _, (on .run (fun d =>
     { d with pwm := { brakes := [(0, { cfg := some { tPull := 10, tFb := 1, fbPol := 1 } })] } })), ⟨rfl,
     by decide +kernel⟩⟩,
   ⟨0, 0, true, _, (on .run (fun d =>
     { d with pwm := { brakes := [(0, { cfg := some { tPull := 10, tFb := 1 } })] } })), ⟨rfl, by decide +kernel⟩⟩,
   ⟨1024001, 0, { tPull := 10, tFb := 1 }, (on .run (fun d =>
     { d with pwm := { brakes := [(0, { cfg := some { tPull := 10, tFb := 1 }, cmdRel := true, fb := true })] } })),
     by decide +kernel⟩,
   ⟨1024001, 0, { tPull := 10, tFb := 1 }, (on .run (fun d =>
     { d with pwm := { brakes := [(0, { cfg := some { tPull := 10, tFb := 1 } })] } })), by decide +kernel⟩,
   ⟨0, 0, { tPull := 10, tFb := 1 }, (on .run (fun d =>
     { d with pwm := { brakes := [(0, { cfg := some { tPull := 10, tFb := 1 } })] } })), by decide +kernel⟩,
   ⟨0, 0, 10, {}, (on .run (fun d => { d with pwm := { groups := [(0, { cfg := some {} })] } })), by decide +kernel⟩,
   ⟨0, 0, 10, { tripState := 1 }, (on .run (fun d =>
     { d with pwm := { groups := [(0, { cfg := some { tripState := 1 } })] } })), by decide +kernel⟩,
   ⟨0, 0, 0, (on .run (fun d => { d with pwm := { groups := [(0, { cfg := some {} })] } })), by decide +kernel⟩,
   ⟨0, 0, { nC := 1 }, (on .run (fun d =>
     { d with pwm := { groups := [(0, { cfg := some { nC := 1 }, driven := true })] } })), by decide +kernel⟩,
   ⟨0, 0, { nC := 1 }, (on .run (fun d => { d with pwm := { groups := [(0, { cfg := some { nC := 1 } })] } })),
     by decide +kernel⟩,
   ⟨0, 0, {}, (on .run (fun d => { d with pwm := { groups := [(0, { cfg := some {} })] } })), by decide +kernel⟩,
   ⟨0, 0, {}, (on .run (fun d =>
     { d with pwm := { groups := [(0, { cfg := some {} })] }, faults := { chans := [((chanId 6 0).toNat, { retired := true })] } })),
     by decide +kernel⟩,
   ⟨0, 0, st, by decide +kernel⟩,
   ⟨0, 0, 0, st, by decide +kernel⟩,
   ⟨0, 0, 0x421, (on .run (fun d => { d with pwm := { groups := [(0, { cfg := some {}, coarse := true })] } })),
     by decide +kernel⟩,
   ⟨0x420, by decide +kernel⟩,
   ⟨0x410, by decide +kernel⟩,
   ⟨0, by decide +kernel⟩⟩

/-- The hypotheses of each clause of StepAndChopperEventsTakeEffect can be met. -/
theorem witness_StepAndChopperEventsTakeEffect :
    (∃ (t : Nat) (m : Fin 16) (n : Nat) (s : State), let d := s.dev.advance t; (d.power.mode.torque = true) ∧ ((look
      d.mults m.val).step.isSome = true) ∧ (((look d.mults m.val).run n).2 = []))
    ∧ (∃ (t : Nat) (m : Fin 16) (n : Nat) (j : Nat) (s : State), let d := s.dev.advance t; (d.power.mode.torque =
      true) ∧ ((look d.mults m.val).step.isSome = true) ∧ (((look d.mults m.val).run n).2 = [j]))
    ∧ (∃ (t : Nat) (m : Fin 16) (s : State), let d := s.dev.advance t; (d.power.mode.torque = false ∨ (look d.mults
      m.val).step = none))
    ∧ (∃ (t : Nat) (c : Fin 8) (k : Coil) (s : State), let d := s.dev.advance t; (d.chopOn c.val = true) ∧ (((look
      d.chops c.val).coil k).phase = .drive) ∧ (((look d.chops c.val).coil k).since ≤ t))
    ∧ (∃ (t : Nat) (c : Fin 8) (k : Coil) (s : State), let d := s.dev.advance t; (d.chopOn c.val = false ∨ ((look
      d.chops c.val).coil k).phase ≠ .drive ∨ t < ((look d.chops c.val).coil k).since))
    ∧ (∃ (t : Nat) (c : Fin 8) (k : Coil) (s : State), let d := s.dev.advance t; (d.chopOn c.val = true) ∧ (((look
      d.chops c.val).coil k).phase = .blank) ∧ (((look d.chops c.val).coil k).since + 256 * (d.chopCfg
      c.val).blank.toNat ≤ t))
    ∧ (∃ (t : Nat) (c : Fin 8) (k : Coil) (s : State), let d := s.dev.advance t; (d.chopOn c.val = true) ∧ (((look
      d.chops c.val).coil k).phase = .blank) ∧ (((look d.chops c.val).coil k).since + 256 * (d.chopCfg
      c.val).blank.toNat ≤ t) ∧ (((look d.chops c.val).coil k).short + 1 < 16))
    ∧ (∃ (t : Nat) (c : Fin 8) (k : Coil) (s : State), let d := s.dev.advance t; (d.chopOn c.val = true) ∧ (((look
      d.chops c.val).coil k).phase = .blank) ∧ (((look d.chops c.val).coil k).since + 256 * (d.chopCfg
      c.val).blank.toNat ≤ t) ∧ (15 ≤ ((look d.chops c.val).coil k).short))
    ∧ (∃ (t : Nat) (c : Fin 8) (k : Coil) (s : State), let d := s.dev.advance t; (d.chopOn c.val = false ∨ ((look
      d.chops c.val).coil k).phase ≠ .blank ∨ t < ((look d.chops c.val).coil k).since + 256 * (d.chopCfg
      c.val).blank.toNat))
    ∧ (∃ (t : Nat) (c : Fin 8) (k : Coil) (s : State), let d := s.dev.advance t; (d.chopOn c.val = true) ∧ (((look
      d.chops c.val).coil k).phase = .decay) ∧ (((look d.chops c.val).coil k).since + 256 * (d.chopCfg
      c.val).tOff.toNat ≤ t))
    ∧ (∃ (t : Nat) (c : Fin 8) (k : Coil) (s : State), let d := s.dev.advance t; (d.chopOn c.val = false ∨ ((look
      d.chops c.val).coil k).phase ≠ .decay ∨ t < ((look d.chops c.val).coil k).since + 256 * (d.chopCfg
      c.val).tOff.toNat))
    ∧ (∃ (t : Nat) (c : Fin 8) (k : Coil) (s : State), let d := s.dev.advance t; (d.chopOn c.val = true) ∧ (((look
      d.chops c.val).coil k).phase = .drive) ∧ (((look d.chops c.val).coil k).driveAt + 256 * (d.chopCfg
      c.val).tOnMax.toNat ≤ t))
    ∧ (∃ (t : Nat) (c : Fin 8) (k : Coil) (s : State), let d := s.dev.advance t; (d.chopOn c.val = false ∨ ((look
      d.chops c.val).coil k).phase ≠ .drive ∨ t < ((look d.chops c.val).coil k).driveAt + 256 * (d.chopCfg
      c.val).tOnMax.toNat))
    ∧ (∃ (t : Nat) (c : Fin 8) (p : ConfigChopper) (s : State), let d := s.dev.advance t; ((look d.mults (16 +
      c.val)).chop = some p))
    ∧ (∃ (t : Nat) (c : Fin 8) (s : State), let d := s.dev.advance t; ((look d.mults (16 + c.val)).chop = none))
    ∧ (∃ (t : Nat) (c : Fin 8) (n : Nat) (p : ConfigChopper) (s : State), let d := s.dev.advance t; (d.chopEnabled
      c.val = true) ∧ (d.power.mode.torque = true) ∧ let d1 := d.runMult t (16 + c.val) n; ((look d1.mults (16 +
      c.val)).chop = some p))
    ∧ (∃ (t : Nat) (c : Fin 8) (p : ConfigChopper) (s : State), let d := s.dev.advance t; (d.chopEnabled c.val = true)
      ∧ (d.power.mode.torque = false) ∧ ((look d.mults (16 + c.val)).chop = some p))
    ∧ (∃ (t : Nat) (c : Fin 8) (s : State), let d := s.dev.advance t; (d.chopEnabled c.val = false)) :=
  ⟨⟨0, 0, 0, (on .run (fun d => { d with mults := [(0, { step := some {} })] })), by decide +kernel⟩,
   ⟨0, 0, 1, 0, (on .run (fun d =>
     { d with mults := [(0, { step := some {}, a := 0xFFFFFFFF, v := 1, gen := { queue := [true, true, true], active := 100, dirPos := true } })] })),
     by decide +kernel⟩,
   ⟨0, 0, (on .run (fun d =>
     { d with mults := [(16, { chop := some {} })], chops := [(0, { coilA := { phase := .drive } })] })),
     by decide +kernel⟩,
   ⟨0, 0, .a, (on .run (fun d =>
     { d with mults := [(16, { chop := some {} })], chops := [(0, { coilA := { phase := .drive } })] })),
     by decide +kernel⟩,
   ⟨0, 0, .a, (on .run (fun d =>
     { d with mults := [(16, { chop := some {} })], chops := [(0, { coilA := { phase := .blank } })] })),
     by decide +kernel⟩,
   ⟨0, 0, .a, (on .run (fun d =>
     { d with mults := [(16, { chop := some {} })], chops := [(0, { coilA := { phase := .blank, short := 14 } })] })),
     by decide +kernel⟩,
   ⟨0, 0, .a, (on .run (fun d =>
     { d with mults := [(16, { chop := some {} })], chops := [(0, { coilA := { phase := .blank, short := 14 } })] })),
     by decide +kernel⟩,
   ⟨0, 0, .a, (on .run (fun d =>
     { d with mults := [(16, { chop := some {} })], chops := [(0, { coilA := { phase := .blank, short := 15 } })] })),
     by decide +kernel⟩,
   ⟨0, 0, .a, (on .run (fun d =>
     { d with mults := [(16, { chop := some {} })], chops := [(0, { coilA := { phase := .drive } })] })),
     by decide +kernel⟩,
   ⟨0, 0, .a, (on .run (fun d =>
     { d with mults := [(16, { chop := some {} })], chops := [(0, { coilA := { phase := .decay } })] })),
     by decide +kernel⟩,
   ⟨0, 0, default, (on .run (fun d =>
     { d with mults := [(16, { chop := some {} })], chops := [(0, { coilA := { phase := .off } })] })),
     by decide +kernel⟩,
   ⟨0, 0, .a, (on .run (fun d =>
     { d with mults := [(16, { chop := some {} })], chops := [(0, { coilA := { phase := .drive } })] })),
     by decide +kernel⟩,
   ⟨0, 0, default, st, by decide +kernel⟩,
   ⟨0, 0, {}, (on .run (fun d =>
     { d with mults := [(16, { chop := some {} })], chops := [(0, { coilA := { phase := .off } })] })),
     by decide +kernel⟩,
   ⟨0, 0, st, by decide +kernel⟩,
   ⟨0, 0, 0, {}, (on .run (fun d =>
     { d with mults := [(16, { chop := some {} })], chops := [(0, { coilA := { phase := .off } })] })),
     by decide +kernel⟩,
   ⟨0, 0, {}, (on .ready (fun d => { d with mults := [(16, { chop := some {} })], chops := [(0, {})] })),
     by decide +kernel⟩,
   ⟨0, 0, st, by decide +kernel⟩⟩

/-- The hypotheses of each clause of SkimmerEventsTakeEffect can be met. -/
theorem witness_SkimmerEventsTakeEffect :
    (∃ (t : Nat) (ch : Fin 256) (v : PinEdge) (s : State), let d := s.dev.advance t; ((look d.skim.chans
      ch.val).now.kind = 1) ∧ ((look d.skim.chans ch.val).now.source.toNat < 0x88 ∨ 0x8C ≤ (look d.skim.chans
      ch.val).now.source.toNat) ∧ ((look d.skim.chans ch.val).level ≠ some v.level) ∧ ((look d.skim.chans
      ch.val).now.glitch.toNat ≤ f300Cycle t - f300Cycle (min v.since t)))
    ∧ (∃ (t : Nat) (ch : Fin 256) (v : PinEdge) (s : State), let d := s.dev.advance t; ((look d.skim.chans
      ch.val).now.kind = 1) ∧ ((look d.skim.chans ch.val).now.source.toNat < 0x88 ∨ 0x8C ≤ (look d.skim.chans
      ch.val).now.source.toNat) ∧ ((look d.skim.chans ch.val).level = some v.level ∨ f300Cycle t - f300Cycle (min
      v.since t) < (look d.skim.chans ch.val).now.glitch.toNat))
    ∧ (∃ (t : Nat) (ch : Fin 256) (v : PinEdge) (s : State), let d := s.dev.advance t; ((look d.skim.chans
      ch.val).now.kind = 1) ∧ (0x88 ≤ (look d.skim.chans ch.val).now.source.toNat ∧ (look d.skim.chans
      ch.val).now.source.toNat < 0x8C) ∧ (d.skim.pulls (BitVec.ofNat 8 ((look d.skim.chans ch.val).now.source.toNat -
      0x88)) = false) ∧ ((look d.skim.chans ch.val).level = some v.level))
    ∧ (∃ (t : Nat) (ch : Fin 256) (s : State), let d := s.dev.advance t; ((look d.skim.chans ch.val).now.kind ≠ 1))
    ∧ (∃ (d : Dev) (t : Nat) (ch : Nat) (flags : Nat) (v : BitVec 32), let c := look d.skim.chans ch; let r : SkimRec
      := { ct := t, chan := BitVec.ofNat 16 ch, flags := BitVec.ofNat 16 flags, value := v }; (d.skim.queue.length <
      256) ∧ (d.skim.condMask ch (if c.first then none else c.prev) v = 0))
    ∧ (∃ (t : Nat) (ch : Fin 256) (w : BitVec 32) (s : State), let d := s.dev.advance t; ((look d.skim.chans
      ch.val).now.kind = 2) ∧ ((look d.skim.chans ch.val).now.hi.toInt < w.toInt) ∧ ((look d.skim.chans ch.val).above
      = false))
    ∧ (∃ (t : Nat) (ch : Fin 256) (s : State), let d := s.dev.advance t; ((look d.skim.chans ch.val).now.kind ≠ 2))
    ∧ (∃ (t : Nat) (ch : Fin 256) (w : BitVec 32) (s : State), let d := s.dev.advance t; ((look d.skim.chans
      ch.val).now.kind = 2) ∧ (w.toInt < (look d.skim.chans ch.val).now.lo.toInt) ∧ ((look d.skim.chans
      ch.val).now.lo.toInt ≤ (look d.skim.chans ch.val).now.hi.toInt) ∧ ((look d.skim.chans ch.val).above = true))
    ∧ (∃ (t : Nat) (ch : Fin 256) (w : BitVec 32) (s : State), let d := s.dev.advance t; ((look d.skim.chans
      ch.val).now.kind = 2) ∧ (w.toInt ≤ (look d.skim.chans ch.val).now.hi.toInt) ∧ ((look d.skim.chans
      ch.val).now.lo.toInt ≤ w.toInt) ∧ ((look d.skim.chans ch.val).first = false))
    ∧ (∃ (t : Nat) (s : State), let d := s.dev.advance t; (d.skim.queue = []))
    ∧ (∃ (t : Nat) (r : SkimRec) (q : List SkimRec) (d1 : Dev) (s : State), let d := s.dev.advance t; (d.skim.queue =
      r :: q) ∧ (d1 = d.onSkim (fun k => ({ k with queue := q }).put1 r)) ∧ (d1.skim.phase = .armed) ∧
      (d1.skim.lostRun = 0))
    ∧ (∃ (t : Nat) (r : SkimRec) (q : List SkimRec) (d1 : Dev) (s : State), let d := s.dev.advance t; (d.skim.queue =
      r :: q) ∧ (d1 = d.onSkim (fun k => ({ k with queue := q }).put1 r)) ∧ (d1.skim.phase = .post) ∧
      (d1.skim.postLeft = 0))
    ∧ (∃ (t : Nat) (s : State), let d := s.dev.advance t; (d.skim.phase = .post) ∧ (d.skim.cap.postTime ≠ 0) ∧
      (d.skim.trigAt + d.skim.cap.postTime.toNat ≤ t))
    ∧ (∃ (t : Nat) (s : State), let d := s.dev.advance t; (d.skim.phase ≠ .post))
    ∧ (∃ (t : Nat) (s : State), let d := s.dev.advance t; (d.skim.pulls d.skim.cap.armLine = false) ∧ (d.skim.cap.role
      = 2) ∧ (d.skim.phase = .idle ∨ d.skim.phase = .held) ∧ (d.skimOn = true))
    ∧ (∃ (t : Nat) (s : State), let d := s.dev.advance t; (d.skim.pulls d.skim.cap.armLine = true ∨ d.skim.cap.role ≠
      2 ∨ (d.skim.phase ≠ .idle ∧ d.skim.phase ≠ .held) ∨ d.skimOn = false))
    ∧ (∃ (t : Nat) (s : State), let d := s.dev.advance t; (d.skim.pulls d.skim.cap.armLine = false) ∧ (d.skim.cap.role
      = 2) ∧ (d.skim.phase = .armed))
    ∧ (∃ (t : Nat) (s : State), let d := s.dev.advance t; (d.skim.pulls d.skim.cap.armLine = true ∨ d.skim.cap.role ≠
      2 ∨ d.skim.phase ≠ .armed))
    ∧ (∃ (t : Nat) (s : State), let d := s.dev.advance t; (d.skim.cap.role ≠ 0) ∧ (d.skim.pulls d.skim.cap.fireLine =
      false) ∧ (d.skim.trig.enable.getLsbD 4 = true))
    ∧ (∃ (t : Nat) (s : State), let d := s.dev.advance t; (d.skim.cap.role = 0 ∨ d.skim.pulls d.skim.cap.fireLine =
      true ∨ d.skim.trig.enable.getLsbD 4 = false))
    ∧ (∃ (t : Nat) (s : State), let d := s.dev.advance t; (d.skim.fireOut = false ∨ t < d.skim.fireAt + 1024))
    ∧ (∃ (t : Nat) (s : State), let d := s.dev.advance t; (d.skim.fireOut = true) ∧ (d.skim.fireAt + 1024 ≤ t)) :=
  ⟨⟨0, 0, default, (on .run (fun d => { d with skim := { chans := [(0, { cfg := { kind := 1 } })] } })),
    by decide +kernel⟩,
   ⟨0, 0, { level := true }, (on .run (fun d =>
     { d with skim := { chans := [(0, { cfg := { kind := 1 }, level := some true })] } })), by decide +kernel⟩,
   ⟨0, 0, { level := true }, (on .run (fun d =>
     { d with skim := { chans := [(0, { cfg := { kind := 1, source := 0x88 }, level := some true })] } })),
     by decide +kernel⟩,
   ⟨0, 0, (on .run (fun d => { d with skim := { chans := [(0, { cfg := { kind := 2 } })] } })), by decide +kernel⟩,
   ⟨st.dev, 0, 0, 0, 0, by decide +kernel⟩,
   ⟨0, 0, 1, (on .run (fun d => { d with skim := { chans := [(0, { cfg := { kind := 2 } })] } })), by decide +kernel⟩,
   ⟨0, 0, st, by decide +kernel⟩,
   ⟨0, 0, -1, (on .run (fun d => { d with skim := { chans := [(0, { cfg := { kind := 2 }, above := true })] } })),
     by decide +kernel⟩,
   ⟨0, 0, 0, (on .run (fun d => { d with skim := { chans := [(0, { cfg := { kind := 2 }, first := false })] } })),
     by decide +kernel⟩,
   ⟨0, st, by decide +kernel⟩,
   ⟨0, {}, [], _, (on .run (fun d => { d with skim := { phase := .armed, queue := [{}] } })), ⟨rfl, rfl, rfl, rfl⟩⟩,
   ⟨0, {}, [], _, (on .run (fun d => { d with skim := { phase := .post, queue := [{}] } })), ⟨rfl, rfl, rfl, rfl⟩⟩,
   ⟨1, (on .run (fun d => { d with skim := { phase := .post, cap := { postTime := 1 } } })), by decide +kernel⟩,
   ⟨0, (on .run (fun d => { d with skim := { cap := { role := 1 }, trig := { enable := 16 } } })), by decide +kernel⟩,
   ⟨0, (on .run (fun d => { d with skim := { cap := { role := 2 } } })), by decide +kernel⟩,
   ⟨0, st, by decide +kernel⟩,
   ⟨0, (on .run (fun d => { d with skim := { pulled := 1, cap := { role := 2 }, phase := .armed } })),
     by decide +kernel⟩,
   ⟨0, st, by decide +kernel⟩,
   ⟨0, (on .run (fun d => { d with skim := { cap := { role := 1 }, trig := { enable := 16 } } })), by decide +kernel⟩,
   ⟨1024, (on .run (fun d => { d with skim := { fireOut := true } })), by decide +kernel⟩,
   ⟨0, st, by decide +kernel⟩,
   ⟨1024, (on .run (fun d => { d with skim := { fireOut := true } })), by decide +kernel⟩⟩

/-- The hypotheses of each clause of HostTuningAndJournalEventsTakeEffect can be met. -/
theorem witness_HostTuningAndJournalEventsTakeEffect :
    (∃ (t : Nat) (x : Selftest) (s : State), let d := s.dev.advance t; (d.host.selftest = some x))
    ∧ (∃ (t : Nat) (s : State), let d := s.dev.advance t; (d.host.selftest = none))
    ∧ (∃ (t : Nat) (j : Fin 128) (s : State), let d := s.dev.advance t; (look d.tuning.ids j.val = none))
    ∧ (∃ (t : Nat) (j : Fin 128) (x : Ident) (s : State), let d := s.dev.advance t; (look d.tuning.ids j.val = some x)
      ∧ (look d.tuning.bounds j.val = none))
    ∧ (∃ (t : Nat) (j : Fin 128) (p : SetRetuneBounds) (x : Ident) (s : State), let d := s.dev.advance t; (look
      d.tuning.ids j.val = some x) ∧ (look d.tuning.bounds j.val = some p))
    ∧ (∃ (t : Nat) (j : Fin 128) (p : SetRetuneBounds) (g : Proposal) (s : State), let d := s.dev.advance t;
      (d.time.policyForce = .autonomous) ∧ (look d.tuning.bounds j.val = some p) ∧ (d.power.mode = .tune) ∧ (look
      d.tuning.props j.val = some g) ∧ ((look d.tuning.inj j.val).phase ≠ .pending ∧ (look d.tuning.inj j.val).phase ≠
      .running) ∧ (d.loop.sameBanks = true) ∧ (d.loop.swap = none))
    ∧ (∃ (t : Nat) (j : Fin 128) (p : SetRetuneBounds) (g : Proposal) (s : State), let d := s.dev.advance t;
      (d.time.policyForce = .autonomous) ∧ (look d.tuning.bounds j.val = some p) ∧ (d.power.mode = .tune) ∧ (look
      d.tuning.props j.val = some g) ∧ ((look d.tuning.inj j.val).phase ≠ .pending ∧ (look d.tuning.inj j.val).phase ≠
      .running) ∧ (d.loop.sameBanks = false))
    ∧ (∃ (t : Nat) (j : Fin 128) (p : SetRetuneBounds) (g : Proposal) (s : State), let d := s.dev.advance t;
      (d.time.policyForce = .autonomous) ∧ (look d.tuning.bounds j.val = some p) ∧ (d.power.mode = .tune) ∧ (look
      d.tuning.props j.val = some g) ∧ ((look d.tuning.inj j.val).phase ≠ .pending ∧ (look d.tuning.inj j.val).phase ≠
      .running) ∧ (d.loop.sameBanks = true) ∧ (d.loop.swap.isSome = true) ∧ (look d.tuning.busy j.val < 79))
    ∧ (∃ (t : Nat) (j : Fin 128) (p : SetRetuneBounds) (g : Proposal) (s : State), let d := s.dev.advance t;
      (d.time.policyForce = .autonomous) ∧ (look d.tuning.bounds j.val = some p) ∧ (d.power.mode = .tune) ∧ (look
      d.tuning.props j.val = some g) ∧ ((look d.tuning.inj j.val).phase ≠ .pending ∧ (look d.tuning.inj j.val).phase ≠
      .running) ∧ (d.loop.sameBanks = true) ∧ (d.loop.swap.isSome = true) ∧ (79 ≤ look d.tuning.busy j.val))
    ∧ (∃ (t : Nat) (j : Fin 128) (s : State), let d := s.dev.advance t; (look d.tuning.props j.val = none))
    ∧ (∃ (t : Nat) (j : Fin 128) (g : Proposal) (s : State), let d := s.dev.advance t; (look d.tuning.props j.val =
      some g) ∧ ((look d.tuning.inj j.val).phase = .pending ∨ (look d.tuning.inj j.val).phase = .running))
    ∧ (∃ (t : Nat) (dl : Nat) (s : State), let d := s.dev.advance t; (d.host.wd.deadline = some dl) ∧ (dl < t) ∧
      (d.power.mode ≠ .dormant) ∧ (d.host.wd.action = 0))
    ∧ (∃ (t : Nat) (dl : Nat) (s : State), let d := s.dev.advance t; (d.host.wd.deadline = some dl) ∧ (dl < t) ∧
      (d.power.mode = .run ∨ d.power.mode = .hold) ∧ (d.host.wd.action = 1))
    ∧ (∃ (t : Nat) (dl : Nat) (s : State), let d := s.dev.advance t; (d.host.wd.deadline = some dl) ∧ (dl < t) ∧
      (d.power.mode ≠ .dormant) ∧ (d.power.mode ≠ .run ∧ d.power.mode ≠ .hold))
    ∧ (∃ (t : Nat) (dl : Nat) (s : State), let d := s.dev.advance t; (d.host.wd.deadline = some dl) ∧ (t ≤ dl ∨
      d.power.mode = .dormant))
    ∧ (∃ (t : Nat) (s : State), let d := s.dev.advance t; (d.host.wd.deadline = none))
    ∧ (∃ (t : Nat) (s : State), let d := s.dev.advance t; (d.faults.journal.queue = []))
    ∧ (∃ (t : Nat) (r : JRec) (q : List JRec) (s : State), let d := s.dev.advance t; (d.faults.journal.queue = r :: q)
      ∧ (t < d.faults.journal.freeAt))
    ∧ (∃ (t : Nat) (r : JRec) (q : List JRec) (j : Journal) (s : State), let d := s.dev.advance t;
      (d.faults.journal.queue = r :: q) ∧ (d.faults.journal.freeAt ≤ t) ∧ (d.faults.journal.lostNow = 0) ∧ (j =
      { d.faults.journal with queue := q }.write r)) :=
  ⟨⟨0, {}, (on .ready (fun d => { d with host := { selftest := some {} } })), by decide +kernel⟩,
   ⟨0, st, by decide +kernel⟩,
   ⟨0, 0, st, by decide +kernel⟩,
   ⟨0, 0, {}, (on .tune (fun d => { d with tuning := { ids := [(0, some {})] } })), by decide +kernel⟩,
   ⟨0, 0, {}, {}, (on .tune (fun d => { d with tuning := { ids := [(0, some {})], bounds := [(0, some {})] } })),
     by decide +kernel⟩,
   ⟨0, 0, {}, {}, (on .tune (fun d =>
     { d with time := { d.time with policyForce := .autonomous }, tuning := { bounds := [(0, some {})], inj := [(0, { phase := .done })], props := [(0, some {})] } })),
     by decide +kernel⟩,
   ⟨0, 0, {}, {}, (on .tune (fun d =>
     { d with time := { d.time with policyForce := .autonomous }, tuning := { bounds := [(0, some {})], inj := [(0, { phase := .done })], props := [(0, some {})] }, loop := { bankA := [(0, { bytes := [1] })] } })),
     by decide +kernel⟩,
   ⟨0, 0, {}, {}, (on .tune (fun d =>
     { d with time := { d.time with policyForce := .autonomous }, tuning := { bounds := [(0, some {})], inj := [(0, { phase := .done })], props := [(0, some {})] }, loop := { swap := some (0, false) } })),
     by decide +kernel⟩,
   ⟨0, 0, {}, {}, (on .tune (fun d =>
     { d with time := { d.time with policyForce := .autonomous }, tuning := { bounds := [(0, some {})], inj := [(0, { phase := .done })], props := [(0, some {})], busy := [(0, 79)] }, loop := { swap := some (0, false) } })),
     by decide +kernel⟩,
   ⟨0, 0, st, by decide +kernel⟩,
   ⟨0, 0, {}, (on .tune (fun d =>
     { d with time := { d.time with policyForce := .autonomous }, tuning := { bounds := [(0, some {})], inj := [(0, { phase := .running })], props := [(0, some {})] } })),
     by decide +kernel⟩,
   ⟨1, 0, (on .run (fun d => { d with host := { wd := { deadline := some 0 } } })), by decide +kernel⟩,
   ⟨1, 0, (on .run (fun d => { d with host := { wd := { deadline := some 0, action := 1 } } })), by decide +kernel⟩,
   ⟨1, 0, (on .ready (fun d => { d with host := { wd := { deadline := some 0 } } })), by decide +kernel⟩,
   ⟨0, 0, (on .ready (fun d => { d with host := { wd := { deadline := some 0 } } })), by decide +kernel⟩,
   ⟨0, st, by decide +kernel⟩,
   ⟨0, st, by decide +kernel⟩,
   ⟨0, {}, [], (on .run (fun d => { d with faults := { journal := { queue := [{}], freeAt := 2 ^ 62 } } })),
     by decide +kernel⟩,
   ⟨0, {}, [], Journal.write {} {}, (on .run (fun d =>
     { d with faults := { journal := { queue := [{}], freeAt := 0 } } })), by decide +kernel⟩⟩

/-- The hypotheses of each clause of StepRunsTheFrontCommand can be met. -/
theorem witness_StepRunsTheFrontCommand :
    (∃ (c : Instr) (q : List Instr) (s : State), (s.pending = c :: q))
    ∧ (∃ (s : State), (s.pending = [])) :=
  ⟨⟨.ctLatchRead 0, [], { pending := [.ctLatchRead 0] }, rfl⟩,
   ⟨st, by decide +kernel⟩⟩

/-- The hypotheses of each clause of SettledIsKeptByEveryStep can be met. -/
theorem witness_SettledIsKeptByEveryStep :
    ∃ (s : State) (t : State), (Settled s) ∧ (step s = .next t) :=
  ⟨State.reset, State.reset, ⟨⟨by decide, by decide⟩, rfl⟩⟩

/-- The hypotheses of each clause of ResetLeavesTheStatedState can be met. -/
theorem witness_ResetLeavesTheStatedState :
    ∃ (d : Dev) (p : Pin), (d.boot.rstLow = true ∨ d.boot.pwrLow = true ∨ (p.aon = false ∧ (d.boot.fwRun = false ∨
      d.power.mode = .dormant))) :=
  ⟨State.reset.dev, .stoA, by decide +kernel⟩

/-- The hypotheses of each clause of AMessageChangesOnlyItsBookkeeping can be met. -/
theorem witness_AMessageChangesOnlyItsBookkeeping :
    (∃ (h : Hdr), (h.link = .host))
    ∧ (∃ (h : Hdr), (h.link = .maint))
    ∧ (∃ (h : Hdr), (h.link = .host))
    ∧ (∃ (h : Hdr), (h.link = .maint)) :=
  ⟨⟨hd 0, by decide +kernel⟩,
   ⟨hm 0, by decide +kernel⟩,
   ⟨hd 0, by decide +kernel⟩,
   ⟨hm 0, by decide +kernel⟩⟩

/-- The hypotheses of each clause of ALateCommandIsRefusedWithDeadline can be met. -/
theorem witness_ALateCommandIsRefusedWithDeadline :
    (∃ (h : Hdr) (d : Dev), (d.server h.link ≠ .nobody) ∧ (h.ct ≠ 0) ∧ (h.ct < h.stamp))
    ∧ (∃ (h : Hdr), (h.ct = 0 ∨ h.stamp ≤ h.ct)) :=
  ⟨⟨{ ct := 1, stamp := 2 }, st.dev, by decide +kernel⟩,
   ⟨{ ct := 2, stamp := 2 }, by decide +kernel⟩⟩

/-- The hypotheses of each clause of TheFirstFailingStepDecides can be met. -/
theorem witness_TheFirstFailingStepDecides :
    (∃ (m : Sem) (h : Hdr) (d : Dev), (h.ct = 0 ∨ h.stamp ≤ h.ct) ∧ (d.server h.link = .firmware) ∧ (d.classForbidden
      (m.op / 256) = true))
    ∧ (∃ (m : Sem) (h : Hdr) (d : Dev) (st : Status), (h.ct = 0 ∨ h.stamp ≤ h.ct) ∧ (d.server h.link = .firmware) ∧
      (d.classForbidden (m.op / 256) = false) ∧ (m.link.judge d h.link = some st))
    ∧ (∃ (m : Sem) (h : Hdr) (d : Dev), (h.ct = 0 ∨ h.stamp ≤ h.ct) ∧ (d.server h.link = .firmware) ∧
      (d.classForbidden (m.op / 256) = false) ∧ (m.link.judge d h.link = none))
    ∧ (∃ (m : Sem) (h : Hdr) (d : Dev), (d.server h.link ≠ .nobody) ∧ (m.judge h (d.take h) ≠ .ok))
    ∧ (∃ (h : Hdr) (d : Dev), (d.server h.link = .nobody)) :=
  ⟨⟨semArm (hd 0), hd 0, { (inMode .run).dev with fuses := { sensed := List.replicate 16 0xFFFFFFFFFFFFFFFF } },
    by decide +kernel⟩,
   ⟨semMaintRead (hd 12) {}, hd 0, st.dev, .mode, by decide +kernel⟩,
   ⟨semArm (hd 0), hd 0, st.dev, by decide +kernel⟩,
   ⟨semArm (hd 1), hd 1, st.dev, by decide +kernel⟩,
   ⟨hd 0, {}, by decide +kernel⟩⟩

/-- The hypotheses of each clause of MailboxMessagesRunTheirCommand can be met. -/
theorem witness_MailboxMessagesRunTheirCommand :
    (∃ (d : Dev) (t : Nat) (slot : Nat) (c : Instr), let m := (look d.host.slots slot).message;
      let h := msgHdr .host slot t m; (msgBad m = none) ∧ (h.seq = d.host.expect) ∧ (parseCommand h (rd 16 m 0)
      ((m.drop 16).take h.length) = some c))
    ∧ (∃ (c : Instr) (s : State), (Dev.command c s.dev ≠ s.dev))
    ∧ (∃ (d : Dev) (h : Hdr) (op : BitVec 16) (b : List Byte), (parseCommand h op b = none) ∧ (d.server h.link =
      .firmware) ∧ (h.ct = 0 ∨ h.stamp ≤ h.ct)) :=
  ⟨⟨mailed (mail 0), 0, 0, .getJournalState (msgHdr .host 0 0 (mail 0)), ⟨by decide +kernel, by decide +kernel, rfl⟩⟩,
   ⟨.getSetCheck (hd 0), (inMode .run), fun h => absurd (congrArg (fun d : Dev => d.host.expect) h)
     (by decide +kernel)⟩,
   ⟨st.dev, hd 0, 0, [], by decide +kernel⟩⟩

/-- The hypotheses of each clause of TheSequenceRuleDecidesRepeats can be met. -/
theorem witness_TheSequenceRuleDecidesRepeats :
    (∃ (d : Dev) (slot : Nat) (st : Status), (msgBad (look d.host.slots slot).message = some st))
    ∧ (∃ (d : Dev) (t : Nat) (slot : Nat), let m := (look d.host.slots slot).message; let h := msgHdr .host slot t m;
      (msgBad m = none) ∧ (h.seq = d.host.expect))
    ∧ (∃ (d : Dev) (t : Nat) (slot : Nat) (r : List Byte), let m := (look d.host.slots slot).message;
      let h := msgHdr .host slot t m; (msgBad m = none) ∧ (h.seq ≠ d.host.expect) ∧ (d.host.anyTaken = true) ∧ (h.seq
      + 1 = d.host.expect) ∧ (h.crc = d.host.lastCrc) ∧ (d.host.last = some r))
    ∧ (∃ (d : Dev) (t : Nat) (slot : Nat), let m := (look d.host.slots slot).message; let h := msgHdr .host slot t m;
      (msgBad m = none) ∧ (h.seq ≠ d.host.expect) ∧ (d.host.anyTaken = true) ∧ (h.seq + 1 = d.host.expect) ∧ (h.crc =
      d.host.lastCrc) ∧ (d.host.last = none))
    ∧ (∃ (d : Dev) (t : Nat) (slot : Nat), let m := (look d.host.slots slot).message; let h := msgHdr .host slot t m;
      (msgBad m = none) ∧ (h.seq ≠ d.host.expect) ∧ (d.host.anyTaken = false ∨ h.seq + 1 ≠ d.host.expect ∨ h.crc ≠
      d.host.lastCrc)) :=
  ⟨⟨mailed [0, 0, 0, 0, 2, 0], 0, .length, by decide +kernel⟩,
   ⟨mailed (mail 0), 0, 0, by decide +kernel⟩,
   ⟨repeated (some []), 0, 0, [], by decide +kernel⟩,
   ⟨repeated none, 0, 0, by decide +kernel⟩,
   ⟨mailed (mail 1), 0, 0, by decide +kernel⟩⟩

/-- The hypotheses of each clause of TheEffectBoundaryIsTheFirstFarEnough can be met. -/
theorem witness_TheEffectBoundaryIsTheFirstFarEnough :
    ∃ (d : Dev), (0 < d.tcNext) :=
  ⟨st.dev, by decide +kernel⟩

/-- The hypotheses of each clause of NoticeAndJournalQueuesAreBounded can be met. -/
theorem witness_NoticeAndJournalQueuesAreBounded :
    (∃ (d : Dev) (n : Notice), (d.host.notices.length < 256) ∧ ((∀ m ∈ d.host.notices, m.ct ≤ n.ct)))
    ∧ (∃ (d : Dev), (d.host.notices.Pairwise (fun a b => a.ct ≤ b.ct)))
    ∧ (∃ (d : Dev), (256 ≤ d.host.notices.length))
    ∧ (∃ (d : Dev), (d.host.notices.length ≤ 256))
    ∧ (∃ (d : Dev) (r : JRec), (d.faults.journal.queue.length < 128 ∨ r.code.toNat / 256 = 0x01 ∨ r.code.toNat / 256 =
      0x0E))
    ∧ (∃ (d : Dev) (r : JRec), (128 ≤ d.faults.journal.queue.length) ∧ (r.code.toNat / 256 ≠ 0x01) ∧ (r.code.toNat /
      256 ≠ 0x0E)) :=
  ⟨⟨st.dev, default, by decide +kernel⟩,
   ⟨{ host := { notices := List.replicate 256 {} } }, by decide +kernel⟩,
   ⟨{ host := { notices := List.replicate 256 {} } }, by decide +kernel⟩,
   ⟨st.dev, by decide +kernel⟩,
   ⟨st.dev, default, by decide +kernel⟩,
   ⟨{ faults := { journal := { queue := List.replicate 128 {} } } }, { code := 0x0200 }, by decide +kernel⟩⟩

/-- The hypotheses of each clause of FaultBucketsCountAndDecay can be met. -/
theorem witness_FaultBucketsCountAndDecay :
    (∃ (c : FaultChan) (t : Nat), (0 < c.tDec) ∧ (c.rise ≤ t) ∧ (c.applied ≤ (t - c.rise) / c.tDec))
    ∧ (∃ (c : FaultChan) (t : Nat) (u : Nat), (0 < c.tDec) ∧ (c.rise ≤ t) ∧ (t ≤ u) ∧ (c.applied ≤ (t - c.rise) /
      c.tDec))
    ∧ (∃ (c : FaultChan) (t : Nat), ((c.decayTo t).b = 0)) :=
  ⟨⟨{ tDec := 1024000 }, 1024000, by decide +kernel⟩,
   ⟨{ tDec := 1024000 }, 1023999, 1024000, by decide +kernel⟩,
   ⟨default, 0, by decide +kernel⟩⟩

/-- The hypotheses of each clause of MemoryReadsBackWhatWasWritten can be met. -/
theorem witness_MemoryReadsBackWhatWasWritten :
    ∃ (off : Nat) (a : Nat) (b : List Byte), (a < off ∨ off + b.length ≤ a) :=
  ⟨0, 0, [], by decide +kernel⟩

/-- The hypotheses of each clause of DataPortErrorsAreTheFirstInOrder can be met. -/
theorem witness_DataPortErrorsAreTheFirstInOrder :
    (∃ (d : Dev), (6 ≤ d.host.dpSpace.toNat))
    ∧ (∃ (d : Dev) (off : Nat) (n : Nat), (d.host.dpSpace.toNat < 6) ∧ (d.spaceClosed d.host.dpSpace.toNat off n =
      true))
    ∧ (∃ (d : Dev) (off : Nat) (n : Nat), (d.host.dpSpace.toNat < 6) ∧ (d.spaceClosed d.host.dpSpace.toNat off n =
      false))
    ∧ (∃ (d : Dev), (d.host.dpErr = 0))
    ∧ (∃ (d : Dev), (d.host.dpErr ≠ 0)) :=
  ⟨⟨{ host := { dpSpace := 6 } }, by decide +kernel⟩,
   ⟨{ host := { dpSpace := 5 } }, 0, 0, by decide +kernel⟩,
   ⟨st.dev, 0, 0, by decide +kernel⟩,
   ⟨st.dev, by decide +kernel⟩,
   ⟨{ host := { dpErr := 1 } }, by decide +kernel⟩⟩

/-- The hypotheses of each clause of WaitingCommandsApplyAtTheirBoundary can be met. -/
theorem witness_WaitingCommandsApplyAtTheirBoundary :
    (∃ (c : Instr), (injectionAct c = true))
    ∧ (∃ (c : Instr) (q : QueueAct), (queueAct c = some q)) :=
  ⟨⟨.startInjection (hd 0) {}, rfl⟩,
   ⟨.resumeArms (hd 4) {}, .resume 0, rfl⟩⟩

/-- The hypotheses of each clause of ArmLoopAndSolverChangesApply can be met. -/
theorem witness_ArmLoopAndSolverChangesApply :
    (∃ (p : ConfigArm), (p.joints = 0))
    ∧ (∃ (p : ConfigArm), (p.joints ≠ 0))
    ∧ (∃ (p : SetSlotMode), (p.state = 0))
    ∧ (∃ (d : Dev) (b : Nat) (p : StartInjection), (d.power.mode ≠ .tune) ∧ (¬ ((look d.tuning.inj (slotKey p.kind
      p.index)).phase = .cancelled ∧ (look d.tuning.inj (slotKey p.kind p.index)).p = p ∧ (look d.tuning.inj (slotKey
      p.kind p.index)).effB = b)))
    ∧ (∃ (d : Dev) (b : Nat) (p : StartInjection), ((look d.tuning.inj (slotKey p.kind p.index)).phase = .cancelled ∧
      (look d.tuning.inj (slotKey p.kind p.index)).p = p ∧ (look d.tuning.inj (slotKey p.kind p.index)).effB = b))
    ∧ (∃ (d : Dev) (p : SetProblemInput) (q : Problem), (look d.solver.problems p.id.toNat = some q) ∧ (q.desc.run ≠
      2)) :=
  ⟨⟨default, by decide +kernel⟩,
   ⟨{ joints := 1 }, by decide +kernel⟩,
   ⟨default, by decide +kernel⟩,
   ⟨st.dev, 0, default, by decide +kernel⟩,
   ⟨{ tuning := { inj := [(0, { phase := .cancelled })] } }, 0, default, by decide +kernel⟩,
   ⟨{ solver := { problems := [(0, some {})] } }, default, {}, by decide +kernel⟩⟩

/-- The hypotheses of each clause of KernelDeckAndOutputChangesApply can be met. -/
theorem witness_KernelDeckAndOutputChangesApply :
    (∃ (d : Dev) (p : DeclareLift), (d.power.mode = .run) ∧ (p.flags.getLsbD 0 = false))
    ∧ (∃ (d : Dev) (p : SendBallastRequest), (d.power.mode = .run) ∧ (p.recompute ≠ 1))
    ∧ (∃ (p : SetPanPlanner), (p.enable = 1))
    ∧ (∃ (p : SetTrace), (p.restart = 1)) :=
  ⟨⟨st.dev, default, by decide +kernel⟩,
   ⟨st.dev, default, by decide +kernel⟩,
   ⟨{ enable := 1 }, by decide +kernel⟩,
   ⟨{ restart := 1 }, by decide +kernel⟩⟩

/-- The hypotheses of each clause of BusPairAndFaultChangesApply can be met. -/
theorem witness_BusPairAndFaultChangesApply :
    (∃ (d : Dev) (d1 : Dev) (blk : List Byte) (p : LoadSchedule), (d1 = d.onSet p.set.toNat (fun x =>
      { x with entries := ((rdWords 64 blk).take 128).zipIdx.foldl (fun (m : Tab (BitVec 64)) y => put m y.2 y.1) [], dProp := (rdList 16 blk 1024 64).zipIdx.foldl (fun (m : Tab (BitVec 16)) y => put m y.2 y.1) [], loaded := true, invalid := false, granted := [], grants := [], claims := [] })))
    ∧ (∃ (d : Dev) (d1 : Dev) (p : ConfigBusChannel), (d1 = d.onChan p.channel.toNat (fun c =>
      { c with mode := if p.mode = 0 then .off else if p.mode = 1 then .line else .phy, phyAddr := p.phyAddr, linkUp := c.linkUp && p.mode == 2 })))
    ∧ (∃ (d : Dev) (p : ReleaseSlot), ((d.busSet p.set.toNat).granted.any (fun y => y.1 = p.slot.toNat) = true))
    ∧ (∃ (p : ClearRetirement), (p.channel.toNat % 256 ≠ 0xFF)) :=
  ⟨⟨st.dev, _, [], default, rfl⟩,
   ⟨st.dev, _, default, rfl⟩,
   ⟨{ bus := { sets := [{ granted := [(0, 0)] }] } }, default, by decide +kernel⟩,
   ⟨default, by decide +kernel⟩⟩

/-- The hypotheses of each clause of ResetPinsAreFiltered can be met. -/
theorem witness_ResetPinsAreFiltered :
    (∃ (s : State), (s.dev.boot.rstLow = false))
    ∧ (∃ (s : State), (s.dev.boot.pwrLow = false)) :=
  ⟨⟨st, by decide +kernel⟩,
   ⟨st, by decide +kernel⟩⟩

/-- The hypotheses of each clause of SafetyItemsReadBackFromTheirBytes can be met. -/
theorem witness_SafetyItemsReadBackFromTheirBytes :
    (∃ (p : SetExport), (p.capsules.length = 16) ∧ (p.pose.length = 7))
    ∧ (∃ (p : ConfigSls), (p.vSls.length = 128) ∧ (p.cSls.length = 16)) :=
  ⟨⟨{ capsules := List.replicate 16 0, pose := List.replicate 7 0 }, by decide +kernel⟩,
   ⟨{ vSls := List.replicate 128 0, cSls := List.replicate 16 0 }, ⟨by simp, by simp⟩⟩⟩

/-- The hypotheses of clause 7 of LoopAndTuningCommandsTakeEffect can be met. -/
theorem witness_LoopAndTuningCommandsTakeEffect_clause7 :
    ∃ (h : Hdr) (p : LoadBankBlock) (s : State), (Serves 0x0311 16 (.hostOnly) bankModes h s) ∧ (Accepted
      (semLoadBankBlock h p) h s) := by
  obtain ⟨c, hc⟩ : ∃ c, c = crc32c (memRead ((inMode .ready).dev.take (hd 16)).host.memB (BitVec.toNat (0 : BitVec 32)) (BitVec.toNat (224 : BitVec 32))) := ⟨_, rfl⟩
  refine ⟨hd 16, { length := 224, count := 1, crc := c }, (inMode .ready), by unfold Serves; decide +kernel, ⟨rfl, ?_⟩⟩
  simp only [semLoadBankBlock]
  exact blockCond_passes hc (by decide) (by decide) (by decide +kernel) rfl (by decide +kernel) (by decide +kernel)

/-- The hypotheses of clause 4 of SafetySetCommandsEditTheCandidate can be met. -/
theorem witness_SafetySetCommandsEditTheCandidate_clause4 :
    ∃ (h : Hdr) (p : LoadSafetyKinematics) (s : State), (Serves 0x0603 16 (.hostOnly) [.commission] h s) ∧ (Accepted
      (semLoadSafetyKinematics h p) h s) := by
  obtain ⟨c, hc⟩ : ∃ c, c = crc32c (memRead ((on .commission (fun d => { d with host := { memB := [(1, 1), (19, 0x40), (47, 0x40)] } })).dev.take (hd 16)).host.memB (BitVec.toNat (0 : BitVec 32)) (BitVec.toNat (512 : BitVec 32))) := ⟨_, rfl⟩
  refine ⟨hd 16, { length := 512, count := 1, crc := c }, (on .commission (fun d => { d with host := { memB := [(1, 1), (19, 0x40), (47, 0x40)] } })), by unfold Serves; decide +kernel, ⟨rfl, ?_⟩⟩
  simp only [semLoadSafetyKinematics]
  exact blockCond_passes hc (by decide) (by decide) (by decide +kernel) rfl (by decide +kernel) (by decide +kernel)

/-- The hypotheses of clause 7 of SafetySetCommandsEditTheCandidate can be met. -/
theorem witness_SafetySetCommandsEditTheCandidate_clause7 :
    ∃ (h : Hdr) (p : LoadIsland) (s : State), (Serves 0x0606 16 (.hostOnly) [.commission] h s) ∧ (Accepted
      (semLoadIsland h p) h s) := by
  obtain ⟨c, hc⟩ : ∃ c, c = crc32c (memRead ((on .commission (fun d => { d with safety := { candidate := [(itemKey 0x0603 0, [0, 1])] } })).dev.take (hd 16)).host.memB (BitVec.toNat (0 : BitVec 32)) (BitVec.toNat (24 : BitVec 32))) := ⟨_, rfl⟩
  refine ⟨hd 16, { length := 24, spheres := 1, crc := c }, (on .commission (fun d => { d with safety := { candidate := [(itemKey 0x0603 0, [0, 1])] } })), by unfold Serves; decide +kernel, ⟨by rfl, ?_⟩⟩
  simp only [semLoadIsland]
  exact blockCond_passes hc (by decide) (by decide) (by decide +kernel) rfl (by decide +kernel) (by decide +kernel)

/-- The hypotheses of clause 5 of BusCommandsTakeEffect can be met. -/
theorem witness_BusCommandsTakeEffect_clause5 :
    ∃ (h : Hdr) (p : LoadSchedule) (s : State), (Serves 0x0C40 16 (.hostOnly) [.ready] h s) ∧ (Accepted
      (semLoadSchedule h p) h s) ∧ (badSlot ((rdWords 64 ((s.dev.take h).blockBytes p.offset p.length)).take 128)
      (formOf (s.dev.take h).chansView p.set.toNat) ((s.dev.take h).guardView p.set.toNat) (s.dev.take h).cycleTicks =
      none) := by
  obtain ⟨c, hc⟩ : ∃ c, c = crc32c (memRead ((inMode .ready).dev.take (hd 16)).host.memB (BitVec.toNat (0 : BitVec 32)) (BitVec.toNat (1152 : BitVec 32))) := ⟨_, rfl⟩
  refine ⟨hd 16, { length := 1152, crc := c }, (inMode .ready), by unfold Serves; decide +kernel, ⟨rfl, ?_⟩, by
    show badSlot ((rdWords 64 (memRead ((inMode .ready).dev.take (hd 16)).host.memB (BitVec.toNat (0 : BitVec 32)) (BitVec.toNat (1152 : BitVec 32)))).take 128)
      (formOf ((inMode .ready).dev.take (hd 16)).chansView 0) (((inMode .ready).dev.take (hd 16)).busSet 0).cfg.guard.toNat ((inMode .ready).dev.take (hd 16)).cycleTicks = none
    decide +kernel⟩
  simp only [semLoadSchedule]
  exact blockCond_passes hc (by decide) (by decide) (by decide +kernel) rfl (by decide +kernel) (by decide +kernel)

/-- The hypotheses of clause 17 of ResetsBootAndWakes can be met. -/
theorem witness_ResetsBootAndWakes_clause17 :
    ∃ (t : Nat) (w : WakeIn) (s : State), let d := s.dev.advance t; (d.power.mode = .dormant) ∧ (d.wakes t w = true) ∧
      (d.retainedOk w.flips = false) := by
  refine ⟨0, { source := 1 }, on .dormant (fun d => { d with power := { d.power with wake := { sources := 1 } }, safety := { valid := true }, boot := { d.boot with retained := ~~~Config.sha256 [], retDigest := Config.sha256 [] } }),
    by decide +kernel, by decide +kernel, ?_⟩
  have e : Config.sha256 [] ≠ ~~~Config.sha256 [] := fun h => by
    have := congrArg (fun w => w.getLsbD 0) h
    simp at this
  simp [Dev.retainedOk, on, Dev.advance, flipBytes, inMode, e]

/-- The hypotheses of clause 21 of ReceivedFramesTakeEffect can be met. -/
theorem witness_ReceivedFramesTakeEffect_clause21 :
    ∃ (t : Nat) (f : FrameIn) (fr : Frame) (c : DefineLoadFrame) (s : State), let d := s.dev.advance t; ((d.hear t f
      6).frame = some fr) ∧ ((d.hear t f 6).copy = false) ∧ ((rd 16 fr.payload 0).toNat = 3) ∧ ((d.hear t f
      6).dev.deck.loadDef = some c) ∧ (c.channel.toNat / 2 = f.ch.val / 2) ∧ (eUse (((d.hear t f 6).dev.busSet
      (f.ch.val / 2)).entry f.slot.val) ≠ 3) ∧ (c.slot.toNat = f.slot.val) := by
  have h := hear_pass (d := poseDev.dev.advance 0) (t := 0) (f := poseIn) (ty := 6) (b := poseBytes)
    (fr := parseFrame poseBytes) (by decide +kernel) (by decide +kernel) pose_unwrap rfl (by decide +kernel) rfl
    (by decide +kernel) (by decide) (by decide +kernel)
  refine ⟨0, poseIn, parseFrame poseBytes, {}, poseDev, ?_⟩
  simp only [h]
  refine ⟨trivial, trivial, ?_, ?_, ?_, ?_, ?_⟩ <;> decide +kernel

end Sys2Proof
end

section
/-! SUPPORT. Proofs about the cell's time base and what runs on it: the commands that wait for their boundary and the
messages that carry them, the instants of a control period, and reset, boot and the wakes. -/

namespace Sys2Proof.Machine

/-! ### Served commands (R100) -/

/-- A served and accepted command whose effect answers OK leaves the state answered with OK and its data. -/
theorem act_served_ok {m : Sem} {op len : Nat} {link : LinkRule} {modes : List Mode} {h : Hdr} {s : State} {d : Dev}
    {data : List Byte} (hS : Serves op len link modes h s) (hA : Accepted m h s) (hop : m.op = op) (hlink : m.link = link)
    (hmodes : m.modes = modes) (hlen : m.lenOk = decide (h.length = len))
    (heff : m.eff (s.dev.take h) = (d, some (.ok, data))) : s.act (runCmd m h) = .next (answered s h op d data) := by
  simp only [State.act, runCmd_served hS hA hop hlink hmodes hlen, heff, finish, hop, answered]

/-- A message that the boot ROM serves, of an opcode that it answers, has its command's effect where steps 9 to 11 of R100
pass (R74). -/
theorem runCmd_rom {m : Sem} {h : Hdr} {d : Dev} (hs : d.server h.link = .rom) (hc : h.ct = 0 ∨ h.stamp ≤ h.ct)
    (hop : m.op ∈ [0x0118, 0x0114]) (hok : m.lastSteps h (d.take h) = .ok) : runCmd m h d = finish m h (m.eff (d.take h)) := by
  have late : ¬ (h.ct ≠ 0 ∧ h.ct < h.stamp) := by omega
  have hj : m.judge h (d.take h) = .ok := by
    simp only [Sem.judge, late, Dev.take_server, hs, hop, hok, if_true, if_false]
  simp only [runCmd, hs, hj, finish]
  rfl

/-! ### The effect boundary (R23, R469) -/

/-- A stamp far enough before the next boundary takes effect there. -/
theorem Dev.effectAt_bNext {d : Dev} {t : Nat} (h : t + 4096 ≤ d.bNext) : d.effectAt t = d.bNext := if_pos h

/-- Any other stamp takes effect as few whole periods after the second boundary as the distance asks for. -/
theorem Dev.effectAt_later {d : Dev} {t : Nat} (h : d.bNext < t + 4096) :
    d.effectAt t = d.bNext2 + (t + 4096 - d.bNext2) ⌈/⌉ d.tcNext * d.tcNext := by
  unfold Dev.effectAt
  rw [if_neg (Nat.not_le.mpr h), Nat.mul_comm, ← Nat.ceilDiv_eq_add_pred_div]
  split
  · rename_i h2
    rw [Nat.sub_eq_zero_of_le h2, zero_ceilDiv, Nat.zero_mul, Nat.add_zero]
  · rfl

/-! ### Commands that wait (R21, R23) -/

/-- The due commands of a part leave the waiting list and take effect in its order; every other command stays. -/
theorem Dev.applyPart_eq (d : Dev) (b : Nat) (f : Instr → Bool) :
    d.applyPart b f = (d.waiting.filter (fun w => decide (w.effB ≤ b) && f w.cmd)).foldl (fun x w => x.applyWaiting b w)
      { d with waiting := d.waiting.filter (fun w => decide (b < w.effB) || !f w.cmd) } := by
  have stays : (fun w : Waiting => !(decide (w.effB ≤ b) && f w.cmd)) = fun w => decide (b < w.effB) || !f w.cmd := by
    funext w
    rw [Bool.not_and, ← decide_not, decide_eq_decide.mpr Nat.not_le]
  simp only [Dev.applyPart, stays]

/-- Only START_INJECTION and STOP_INJECTION start or end an injection. -/
theorem injectionAct_cases {c : Instr} (h : injectionAct c = true) :
    (∃ h p, c = .startInjection h p) ∨ ∃ h p, c = .stopInjection h p := by
  unfold injectionAct at h
  split at h
  · exact .inl ⟨_, _, rfl⟩
  · exact .inr ⟨_, _, rfl⟩
  · contradiction

/-- Only four commands act on the move queues, each by its own fields. -/
theorem queueAct_cases {c : Instr} {q : QueueAct} (h : queueAct c = some q) :
    (∃ h p, c = .stopArms h p ∧ q = .stop p.arms (p.flush == 1) h.seq) ∨ (∃ h p, c = .resumeArms h p ∧ q = .resume p.arms)
      ∨ (∃ h p, c = .flushQueue h p ∧ q = .flush p.arms h.seq) ∨ ∃ h p, c = .setScaling h p ∧ q = .scaling p := by
  unfold queueAct at h
  split at h
  · exact .inl ⟨_, _, rfl, (Option.some.inj h).symm⟩
  · exact .inr (.inl ⟨_, _, rfl, (Option.some.inj h).symm⟩)
  · exact .inr (.inr (.inl ⟨_, _, rfl, (Option.some.inj h).symm⟩))
  · exact .inr (.inr (.inr ⟨_, _, rfl, (Option.some.inj h).symm⟩))
  · contradiction

/-! ### Replies in their slots (R98, R99, R101) -/

/-- A reply put into a slot stands there, ready, with no repeat held; every other slot is as it was. -/
theorem HostIf.look_putReply (h : HostIf) (i k : Nat) (r : List Byte) :
    look (h.putReply i r).slots k =
      if i = k then { look h.slots i with outb := r, ready := true, owned := true, held := none } else look h.slots k :=
  look_upd i k (fun s : Slot => { s with outb := r, ready := true, owned := true, held := none }) h.slots

/-- Replies put into other slots leave a slot as it was. -/
theorem HostIf.look_foldl_putReply {k : Nat} (r : List Byte) {l : List Nat} (hl : k ∉ l) (h : HostIf) :
    look (l.foldl (fun a i => a.putReply i r) h).slots k = look h.slots k := by
  induction l generalizing h with
  | nil => rfl
  | cons i l ih =>
    rw [List.foldl_cons, ih (List.not_mem_of_not_mem_cons hl), HostIf.look_putReply,
      if_neg (List.ne_of_not_mem_cons hl).symm]

/-- Replies put into slots change nothing of the host interface but the slots. -/
theorem HostIf.foldl_putReply_frame (r : List Byte) (l : List Nat) (h : HostIf) :
    l.foldl (fun a i => a.putReply i r) h = { h with slots := (l.foldl (fun a i => a.putReply i r) h).slots } := by
  induction l generalizing h with
  | nil => rfl
  | cons i l ih => rw [List.foldl_cons, ih]; rfl

/-- A reply ends with the CRC-32C of the bytes before it (R98). -/
theorem replyBytes_crc (op : Nat) (seq : BitVec 16) (repeated taken : Bool) (ct : Nat) (st : Status) (data : List Byte) :
    let r := replyBytes op seq repeated taken ct st data
    r.drop (r.length - 4) = wordBytes (crc32c (r.take (r.length - 4))) := by
  intro r
  obtain ⟨body, hr⟩ : ∃ body, r = body ++ wordBytes (crc32c body) := ⟨_, rfl⟩
  have hlen : r.length - 4 = body.length := by simp [hr]
  rw [hlen, hr, List.drop_left, List.take_left]

/-- The reply of a message of the host link changes only the slots and the stored reply. -/
theorem Dev.reply_host_frame (d : Dev) {h : Hdr} (op : Nat) (st : Status) (data : List Byte) (hl : h.link = .host) :
    d.reply h op st data = { d with host := { d.host with
      slots := (d.reply h op st data).host.slots, last := (d.reply h op st data).host.last } } := by
  unfold Dev.reply
  rw [hl]
  simp only
  rw [HostIf.foldl_putReply_frame]
  split <;> rfl

/-- It stands in its own slot, ready: that slot holds no repeat any more, so the repeats of the message that are answered with
it stand in others. -/
theorem Dev.reply_host_slot (d : Dev) {h : Hdr} (op : Nat) (st : Status) (data : List Byte) (hl : h.link = .host) :
    look (d.reply h op st data).host.slots h.slot = { look d.host.slots h.slot with
      outb := replyBytes op h.seq false true h.stamp st data, ready := true, owned := true, held := none } := by
  unfold Dev.reply
  rw [hl]
  simp only
  rw [HostIf.look_foldl_putReply]
  · split <;> simp [HostIf.look_putReply]
  · split <;> simp [HostIf.look_putReply]

/-! ### The rows of reset, boot and the control period -/

theorem exec_rstNLow (t ns : Nat) (s : State) : exec (.rstNLow t ns) s = .next (s.after
    (if s.dev.boot.rstLow ∨ !s.dev.longEnough ns then (s.dev.advance t).draw 1 else ((s.dev.advance t).draw 1).reset t 3)) := rfl

theorem exec_pwrgoodLow (t ns : Nat) (s : State) : exec (.pwrgoodLow t ns) s = .next (s.after
    (if s.dev.boot.pwrLow ∨ !s.dev.longEnough ns then (s.dev.advance t).draw 1 else ((s.dev.advance t).draw 1).reset t 2)) := rfl

theorem exec_lockstepMismatch (t : Nat) (s : State) : exec (.lockstepMismatch t) s = .next (s.after
    (if s.dev.supRuns then (s.dev.advance t).reset t 4 else s.dev.advance t)) := rfl

theorem exec_watchdogLapse (t : Nat) (s : State) : exec (.watchdogLapse t) s = .next (s.after
    (if s.dev.boot.fwRun ∧ s.dev.power.mode ≠ .dormant then (s.dev.advance t).reset t 5 else s.dev.advance t)) := rfl

theorem exec_boot (t : Nat) (b : BootIn) (s : State) : exec (.boot t b) s = .next (s.after (s.dev.release t b)) := rfl

theorem exec_bootImage (h : Hdr) (p : BootImage) (s : State) :
    exec (.bootImage h p) s = .next (s.after (runCmd (semBootImage h p) h s.dev)) := rfl

theorem exec_extest (t : Nat) (s : State) :
    exec (.extest t) s = .next (s.after ((s.dev.advance t).scan 0b00000)) := rfl

theorem exec_samplePreload (t : Nat) (s : State) :
    exec (.samplePreload t) s = .next (s.after ((s.dev.advance t).scan 0b00010)) := rfl

theorem exec_xclkMissing (t last : Nat) (s : State) :
    exec (.xclkMissing t last) s = .next (s.after ((s.dev.advance t).clockLost t last)) := rfl

theorem exec_wakeEvent (t : Nat) (w : WakeIn) (s : State) :
    exec (.wakeEvent t w) s = .next (s.after (s.dev.wake t w)) := rfl

theorem exec_domainWake (t : Nat) (i : Fin 14) (s : State) :
    exec (.domainWake t i) s = .next (s.after ((s.dev.advance t).wakeDomain t i.val)) := rfl

theorem exec_domainStop (t : Nat) (i : Fin 14) (s : State) :
    exec (.domainStop t i) s = .next (s.after ((s.dev.advance t).stopDomain t i.val)) := rfl

theorem exec_boundary (t : Nat) (x : BoundaryIn) (s : State) :
    exec (.boundary t x) s = .next (s.after (s.dev.onBoundary t x)) := rfl

theorem exec_midPeriod (t : Nat) (s : State) : exec (.midPeriod t) s = .next (s.after
    (if t < s.dev.bk + s.dev.time.tc / 2 then s.dev.advance t
      else ((s.dev.advance t).latchPwm (s.dev.bk + s.dev.time.tc / 2) 1).rateWord false)) := rfl

theorem exec_quarterPoint (t : Nat) (m : Fin 4) (x : SampleIn) (s : State) :
    exec (.quarterPoint t m x) s = .next (s.after (s.dev.quarterPoint t m.val x.sd)) := rfl

/-! ### Reset, the test access and the clocks -/

/-- Power-on is the cold reset state, RST_N low, with CT valid from the newest record on (R10, R70). -/
theorem exec_powerOn (s : State) : ∃ d : Dev, exec .powerOn s = .next (s.after d) ∧ d.power.mode = .boot ∧ d.boot.cause = 1
    ∧ d.boot.rstLow = true ∧ d.boot.pwrLow = false ∧ d.time.ct = s.dev.faults.journal.powerOnCt ∧ d.time.valid = true
    ∧ d.waiting = [] ∧ d.host = {} ∧ d.safety.stoA = false ∧ d.safety.stoB = false := by
  refine ⟨_, rfl, ?_⟩
  simp [Dev.resetState, Dev.resetBase, Dev.resetLasting]

/-- A boundary-scan code is taken while RST_N alone is low and MF_EXTEST is clear (R82). -/
theorem Dev.scan_taken {d : Dev} {code : BitVec 5} (hc : code = 0b00000 ∨ code = 0b00010) (hr : d.boot.rstLow = true)
    (hp : d.boot.pwrLow = false) (hf : d.fuse 821 = false) : d.scan code = d.onBoot (fun b => { b with tapIr := code }) := by
  have taken : d.tapCode code = code := by rcases hc with rfl | rfl <;> simp [Dev.tapCode, hr, hp, hf]
  rw [Dev.scan, taken]

/-- Outside that condition it selects BYPASS (R82). -/
theorem Dev.scan_bypass {d : Dev} {code : BitVec 5} (hc : code = 0b00000 ∨ code = 0b00010)
    (h : d.boot.rstLow = false ∨ d.boot.pwrLow = true ∨ d.fuse 821 = true) :
    d.scan code = d.onBoot (fun b => { b with tapIr := 0b11111 }) := by
  have refused : ¬ (d.boot.rstLow ∧ !d.boot.pwrLow ∧ !d.fuse 821) := by rcases h with h | h | h <;> simp [h]
  have bypass : d.tapCode code = 0b11111 := by
    rw [Dev.tapCode, if_neg (by rcases hc with rfl | rfl <;> decide), if_neg (fun h => refused h.2)]
  rw [Dev.scan, bypass]

/-- The clock of a STOPPED domain starts, with a WAKE record (R54, R343). -/
theorem Dev.startDomain_stopped {d : Dev} (t : Nat) {i : Nat} (h : d.power.domains.getD i .off = .stopped) :
    d.startDomain t i = (d.onPower (fun p => { p with domains := p.domains.set i .running })).traceBare t 0x0B i := if_pos h

/-- BOOT_IMAGE asks for four payload bytes and a length within the header's range (R74, R86). -/
theorem semBootImage_lastSteps {h : Hdr} {p : BootImage} (d : Dev) (hl : h.length = 4) (hf : h.flags = 0)
    (h1 : 0x200 ≤ p.length.toNat) (h2 : p.length.toNat ≤ 0x600000) : (semBootImage h p).lastSteps h d = .ok := by
  simp [Sem.lastSteps, semBootImage, firstFail, hl, hf, h1, h2]

/-- The empty table is in canonical form. -/
theorem Tab.wf_nil {α : Type} [Inhabited α] : Tab.wf ([] : Tab α) := ⟨List.Pairwise.nil, fun _ h => nomatch h⟩

/-- A pin that AON does not drive shows its reset state until the firmware runs, and in DORMANT (R38). -/
theorem Dev.pin_atReset {d : Dev} {p : Pin} (t : Nat) (ha : p.aon = false)
    (h : d.boot.fwRun = false ∨ d.power.mode = .dormant) : d.pin t p = p.atReset := by
  have idle : (!d.boot.fwRun) = true ∨ d.power.mode = .dormant := by rwa [Bool.not_eq_true']
  rw [Dev.pin, ha, if_neg Bool.false_ne_true, if_pos idle, ite_self]

/-! ### The obligations -/

/-- Settles O42: repeats of a message that are answered with its reply are held in other slots than its own. -/
theorem aMessageChangesOnlyItsBookkeeping : Obligations.AMessageChangesOnlyItsBookkeeping := by
  refine ⟨fun d h hl => ⟨?_, ?_, ?_⟩, fun d h hl => ⟨?_, ?_, ?_⟩, fun d h op st data hl => ?_, fun d h op st data hl => ?_⟩
  · rw [Dev.take_time]; exact Nat.le_max_left ..
  · rw [Dev.take_time]; exact Nat.le_max_right ..
  · simp only [Dev.take, hl]; rfl
  · rw [Dev.take_time]; exact Nat.le_max_left ..
  · rw [Dev.take_time]; exact Nat.le_max_right ..
  · simp only [Dev.take, hl]; rfl
  · simp only [Dev.reply_host_slot d op st data hl]
    exact ⟨d.reply_host_frame op st data hl, trivial, trivial, replyBytes_crc ..⟩
  · simp only [Dev.reply, hl]
    exact ⟨trivial, rfl, trivial⟩

/-- Settles O47: past the next boundary, the number of periods is the least that reaches the distance. -/
theorem theEffectBoundaryIsTheFirstFarEnough : Obligations.TheEffectBoundaryIsTheFirstFarEnough := by
  intro d t hT
  by_cases hn : t + 4096 ≤ d.bNext
  · rw [Dev.effectAt_bNext hn]
    exact ⟨hn, .inl rfl, fun n _ => Nat.le_trans (Nat.le_add_right _ d.tcNext) (Nat.le_add_right _ _), fun _ => rfl⟩
  · have first (n : Nat) : (t + 4096 - d.bNext2) ⌈/⌉ d.tcNext ≤ n ↔ t + 4096 ≤ d.bNext2 + n * d.tcNext := by
      rw [ceilDiv_le_iff_le_mul hT, Nat.mul_comm, Nat.sub_le_iff_le_add']
    rw [Dev.effectAt_later (Nat.not_le.mp hn)]
    exact ⟨(first _).mp le_rfl, .inr ⟨_, rfl⟩,
      fun n h => Nat.add_le_add_left (Nat.mul_le_mul_right _ ((first n).mpr h)) _, fun h => absurd h hn⟩

/-- Settles O52: both steps of a boundary apply the due part of the waiting list that they pick. -/
theorem waitingCommandsApplyAtTheirBoundary : Obligations.WaitingCommandsApplyAtTheirBoundary := by
  refine ⟨fun d b => ?_, fun d b => d.applyPart_eq b injectionAct, fun _ => injectionAct_cases, fun _ _ _ => rfl,
    fun _ _ => queueAct_cases, fun _ _ _ => rfl, fun _ _ _ _ => ⟨rfl, rfl, rfl⟩⟩
  have others (c : Instr) : (!((queueAct c).isNone && !injectionAct c)) = ((queueAct c).isSome || injectionAct c) := by
    rw [Bool.not_and, Bool.not_not, Option.not_isNone]
  rw [Dev.applyDue, Dev.applyPart_eq]
  simp only [others]

/-- Settles O7: each is a served command whose effect answers OK. -/
theorem armCommandsQueueTheirEffect : Obligations.ArmCommandsQueueTheirEffect := by
  refine ⟨?_, ?_, ?_, ?_, ?_, ?_, ?_, ?_⟩ <;> exact fun h p s hS hA => act_served_ok hS hA rfl rfl rfl rfl rfl

/-- Settles O12: each is a served command whose effect answers OK. -/
theorem deckCommandsWaitForTheirBoundary : Obligations.DeckCommandsWaitForTheirBoundary := by
  refine ⟨?_, ?_, ?_, ?_, ?_, ?_, ?_, ?_, ?_, ?_, ?_⟩ <;>
    exact fun h p s hS hA => act_served_ok hS hA rfl rfl rfl rfl rfl

/-- Settles O19, row by row: the clauses of a row are the branches of its effect. -/
theorem resetsBootAndWakes : Obligations.ResetsBootAndWakes := by
  refine ⟨fun t n s hl hn => ?_, fun t n s hl hn => ?_, fun t s => rfl, fun t s hr => ?_, fun t s hr => ?_,
    fun t s hf hm => ?_, fun t s => rfl, exec_powerOn, fun t b s h1 h2 h3 h4 => ?_, fun t s h1 h2 h3 => ?_,
    fun t s h1 h2 h3 => ?_, fun t s h => ?_, fun t s h => ?_, fun t l s h => ?_, fun t w s h1 h2 h3 h4 h5 => ?_,
    fun t w s h1 h2 h3 h4 => ?_, fun t w s h1 h2 h3 => ?_, fun t w s h => ?_, fun t w s h => ?_, fun t i s h1 h2 => ?_,
    fun t i s h1 h2 => ?_, fun t i s h => ?_, fun t i s h1 h2 h3 h4 => ?_, fun h p s hs hc hl hf h1 h2 he => ?_⟩
  -- RST_N_LOW, PWRGOOD_LOW
  · simp [exec_rstNLow, Dev.longEnough, hl, hn]
  · simp [exec_pwrgoodLow, Dev.longEnough, hl, hn]
  -- LOCKSTEP_MISMATCH, WATCHDOG_LAPSE
  · rw [exec_lockstepMismatch, if_pos hr]
  · rw [exec_lockstepMismatch, hr, if_neg Bool.false_ne_true]
  · rw [exec_watchdogLapse, if_pos ⟨hf, hm⟩]
  -- BOOT
  · simp [exec_boot, Dev.release, h1, h2, h3, h4]
  -- EXTEST, SAMPLE_PRELOAD
  · rw [exec_extest, Dev.scan_taken (.inl rfl) h1 h2 h3]
  · rw [exec_samplePreload, Dev.scan_taken (.inr rfl) h1 h2 h3]
  · rw [exec_extest, Dev.scan_bypass (.inl rfl) h]
  · rw [exec_samplePreload, Dev.scan_bypass (.inr rfl) h]
  -- XCLK_MISSING
  · rw [exec_xclkMissing, Dev.clockLost, if_pos h]
  -- WAKE_EVENT: to READY, to SAFE-OFF, to a full boot, and without effect; the conditions are those at the instant
  · simp [exec_wakeEvent, Dev.wake, -Dev.advance_power, h1, h2, h3, h4, h5]
  · have bad : ((s.dev.advance t).power.dormantBad || !(s.dev.advance t).sealOk) = true := by
      rwa [Bool.or_eq_true, Bool.not_eq_true']
    simp [exec_wakeEvent, Dev.wake, -Dev.advance_power, h1, h2, h3, bad]
  · simp [exec_wakeEvent, Dev.wake, -Dev.advance_power, h1, h2, h3]
  · simp [exec_wakeEvent, Dev.wake, h]
  · simp [exec_wakeEvent, Dev.wake, -Dev.advance_power, h]
  -- DOMAIN_WAKE
  · rw [exec_domainWake, Dev.wakeDomain, if_pos h2, Dev.startDomain_stopped t h1]
  · rw [exec_domainWake, Dev.wakeDomain, if_neg]
    rintro (h | ⟨hn, h⟩)
    · exact Bool.false_ne_true (h1 ▸ h)
    · exact h2.elim (Nat.not_lt.mpr hn) (fun h2 => Bool.false_ne_true (h2 ▸ h))
  -- DOMAIN_STOP
  · rw [exec_domainStop, Dev.stopDomain, if_neg]
    rintro ⟨hi, hr, hb, hc⟩
    rcases h with h | h | h | h
    · exact h hi
    · exact h hr
    · simp [h] at hb
    · simp [h] at hc
  · rw [exec_domainStop, Dev.stopDomain, if_pos ⟨h1, h2, by simp [h3], by simp [h4]⟩]
  -- BOOT_IMAGE
  · rw [exec_bootImage, runCmd_rom hs hc List.mem_cons_self (semBootImage_lastSteps _ hl hf h1 h2)]
    simp only [semBootImage, he, if_true]
    split <;> rfl

/-- Settles O20: each clause is a branch of the row's effect. -/
theorem boundaryPhasesRunInTheirOrder : Obligations.BoundaryPhasesRunInTheirOrder := by
  refine ⟨fun t x s ht => ?_, fun t x s hb hm => ?_, fun t x c s hb h1 h2 hr => ?_, fun t x s hb h1 h2 hr => ?_,
    fun t s hm => ?_, fun t s hm => ?_, fun t m x s hq => ?_, fun t m x s hq => ?_⟩
  · simp only [exec_boundary, Dev.onBoundary, ht, if_true]
  · simp only [exec_boundary, Dev.onBoundary, Nat.not_lt.mpr hb, if_false, hm, if_true]
  · simp only [exec_boundary, Dev.onBoundary, Nat.not_lt.mpr hb, if_false, h1, h2, or_self, hr]
  · simp only [exec_boundary, Dev.onBoundary, Nat.not_lt.mpr hb, if_false, h1, h2, or_self, hr]
  · rw [exec_midPeriod, if_neg (Nat.not_lt.mpr hm)]
  · rw [exec_midPeriod, if_pos hm]
  · simp only [exec_quarterPoint, Dev.quarterPoint, hq, if_true]
  · simp only [exec_quarterPoint, Dev.quarterPoint, Nat.not_lt.mpr hq, if_false]

/-- Settles O38: every field stands at its reset value, and RST_N, low then, holds every pin. -/
theorem resetLeavesTheStatedState : Obligations.ResetLeavesTheStatedState := by
  refine ⟨⟨rfl, ⟨by decide, by decide⟩, Tab.wf_nil, Tab.wf_nil, Tab.wf_nil⟩, ⟨rfl, rfl, rfl, rfl⟩, ⟨rfl, rfl, rfl, rfl, rfl⟩,
    ⟨rfl, rfl, rfl, rfl⟩, ⟨rfl, rfl⟩, ?_, fun t p => pin_held _ t p (.inl rfl), fun d t p h => ?_⟩
  · rintro (h | h) <;> cases h
  · rcases h with h | h | ⟨ha, h⟩
    · exact pin_held d t p (.inl h)
    · exact pin_held d t p (.inr h)
    · exact Dev.pin_atReset t ha h

end Sys2Proof.Machine
end

section
/-! SUPPORT. Proofs about the safety inputs and the monitors of the safety functions: what a change of SEAL, SIN, an STO
feedback or EDM_IN does, and what follows where a monitored input stays wrong. -/

namespace Sys2Proof.Machine

/-! ### The rows of the safety inputs and their monitors -/

theorem exec_sealAccepted (t : Nat) (bit : Fin 8) (v : Bool) (s : State) :
    exec (.sealAccepted t bit v) s = .next (s.after ((s.dev.advance t).sealAccepted t bit.val v)) := rfl

theorem exec_sinChange (t : Nat) (pin : Fin 16) (v : Bool) (s : State) :
    exec (.sinChange t pin v) s = .next (s.after ((s.dev.advance t).sinChange t pin.val v)) := rfl

theorem exec_sinDiscrepancy (t : Nat) (p : Fin 8) (s : State) :
    exec (.sinDiscrepancy t p) s = .next (s.after ((s.dev.advance t).sinDiscrepancy t p.val)) := rfl

theorem exec_stoFbMismatch (t : Nat) (s : State) :
    exec (.stoFbMismatch t) s = .next (s.after ((s.dev.advance t).stoFbMismatch t)) := rfl

theorem exec_stoTestPulse (t : Nat) (b low : Bool) (s : State) :
    exec (.stoTestPulse t b low) s = .next (s.after ((s.dev.advance t).stoTestPulse t b low)) := rfl

theorem exec_edmMismatch (t : Nat) (s : State) :
    exec (.edmMismatch t) s = .next (s.after ((s.dev.advance t).edmMismatch t)) := rfl

theorem exec_permitLapse (t : Nat) (s : State) :
    exec (.permitLapse t) s = .next (s.after ((s.dev.advance t).permitLapse t)) := rfl

theorem exec_crossMismatch (t since : Nat) (s : State) :
    exec (.crossMismatch t since) s = .next (s.after ((s.dev.advance t).crossMismatch t since)) := rfl

theorem exec_connectionFailed (t : Nat) (c : Fin 64) (s : State) :
    exec (.connectionFailed t c) s = .next (s.after ((s.dev.advance t).connFailed t c.val)) := rfl

theorem exec_stoFbChange (t : Nat) (b v : Bool) (s : State) :
    exec (.stoFbChange t b v) s = .next (s.after ((s.dev.advance t).stoFbChange t b v)) := rfl

theorem exec_edmInChange (t : Nat) (i : Fin 8) (v : Bool) (s : State) :
    exec (.edmInChange t i v) s = .next (s.after ((s.dev.advance t).edmInChange t i.val v)) := rfl

/-! ### SEAL and SIN (R45, R59, R462) -/

/-- In BOOT a SEAL bit is recorded. -/
theorem Dev.sealAccepted_boot {d : Dev} (t bit : Nat) (v : Bool) (hm : d.power.mode = .boot) :
    d.sealAccepted t bit v = d.onSafety (fun x => { x with sealPins := setBit x.sealPins bit v }) := by
  simp only [Dev.sealAccepted, Dev.onSafety_power, hm]

/-- In COMMISSION it is not checked, and clears what it allows. -/
theorem Dev.sealAccepted_commission {d : Dev} (t bit : Nat) (v : Bool) (hm : d.power.mode = .commission) :
    d.sealAccepted t bit v = (d.onSafety (fun x => { x with sealPins := setBit x.sealPins bit v })).sweep t := by
  simp only [Dev.sealAccepted, Dev.onSafety_power, hm]

/-- In DORMANT a failed check is kept for the exit. -/
theorem Dev.sealAccepted_dormant {d d1 : Dev} (t bit : Nat) (v : Bool) (hm : d.power.mode = .dormant)
    (h1 : d1 = d.onSafety (fun x => { x with sealPins := setBit x.sealPins bit v })) :
    d.sealAccepted t bit v = if d1.sealOk then d1 else d1.onPower (fun p => { p with dormantBad := true }) := by
  subst h1
  simp only [Dev.sealAccepted, Dev.onSafety_power, hm]

/-- In every other mode a failed check causes STO. -/
theorem Dev.sealAccepted_checked {d d1 : Dev} (t bit : Nat) (v : Bool) (hb : d.power.mode ≠ .boot)
    (hc : d.power.mode ≠ .commission) (hd : d.power.mode ≠ .dormant)
    (h1 : d1 = d.onSafety (fun x => { x with sealPins := setBit x.sealPins bit v })) :
    d.sealAccepted t bit v = (if d1.sealOk then d1 else d1.stoReaction t 0x0F 0 false).sweep t := by
  simp only [Dev.sealAccepted, ← h1]
  rw [show d1.power = d.power by rw [h1, Dev.onSafety_power]]
  split
  next h => exact absurd h hb
  next h => exact absurd h hc
  next h => exact absurd h hd
  next => rfl

/-- A pin of no configured pair is recorded. -/
theorem Dev.sinChange_unconfigured {d d1 : Dev} (t pin : Nat) (v : Bool) (hm : d.power.mode ≠ .dormant)
    (h1 : d1 = d.onSafety (fun x => { x with sin := setBit x.sin pin v })) (hf : (d1.sinPair (pin / 2)).function = 0) :
    d.sinChange t pin v = d1 := by
  simp only [Dev.sinChange, if_neg hm, ← h1, if_pos hf]

/-- A configured pair takes the levels of its pins; where it is evaluated, a demand that it did not have is reacted to. -/
theorem Dev.sinChange_configured {d d1 d2 : Dev} (t pin : Nat) (v : Bool) (hm : d.power.mode ≠ .dormant)
    (h1 : d1 = d.onSafety (fun x => { x with sin := setBit x.sin pin v })) (hf : (d1.sinPair (pin / 2)).function ≠ 0)
    (h2 : d2 = d1.onSafety (fun x => { x with
      pairs := upd x.pairs (pin / 2) (fun y => y.step t (d1.sinA (pin / 2)) (d1.sinB (pin / 2))) })) :
    d.sinChange t pin v = if d2.evaluates then
      (if d2.pairDemand (pin / 2) ∧ d.pairDemand (pin / 2) = false then d2.pairReact t (pin / 2) else d2).sweep t
    else d2 := by
  simp only [Dev.sinChange, if_neg hm, ← h1, if_neg hf, ← h2, Bool.and_eq_true, Bool.not_eq_true']
  cases d2.evaluates with
  | false => rfl
  | true => rfl

/-! ### Monitored inputs and connections (R461, R464, R465, R485) -/

/-- A feedback of STO is wrong at an instant: it differs from a level shown for longer than t_stofb. -/
theorem Dev.stoFbMismatch_shown {d : Dev} {a b : Bool × Nat} (t : Nat) (hs : d.stoShown = some (a, b)) :
    d.stoFbMismatch t = if d.evaluates ∧ ((d.safety.stoFbA ≠ a.1 ∧ a.2 + d.tStofb < t)
      ∨ (d.safety.stoFbB ≠ b.1 ∧ b.2 + d.tStofb < t)) then d.stoReaction t 0x10 0 false else d := by
  simp only [Dev.stoFbMismatch, hs]

/-- A consumed connection that has been silent for too long fails with a notice, and with its loss reaction where it has one. -/
theorem Dev.connFailed_silent {d d1 : Dev} (t c : Nat) (hd : (d.conn c).dir = 1)
    (hs : (look d.safety.conns c).state ≠ .failed) (he : d.evaluates = true)
    (ht : (look d.safety.conns c).lastRx + (d.conn c).tWd.toNat < t)
    (h1 : d1 = (d.onSafety (fun x => { x with
      conns := put x.conns c { look d.safety.conns c with state := .failed, good := 0 } })).notice 9 0 t 0x0E03
        (safetyArg 0x17 c false) true) :
    d.connFailed t c = if (d.conn c).loss = 0 then d1
      else (d1.onSafety (fun x => { x with connTrig := setBit x.connTrig c true })).react t (d.conn c).loss.toNat 0x17 c
        false := by
  subst h1
  have fails : ¬ ((d.conn c).dir ≠ 1 ∨ (look d.safety.conns c).state = .failed ∨ !d.evaluates
      ∨ t ≤ (look d.safety.conns c).lastRx + (d.conn c).tWd.toNat) := by
    rintro (h | h | h | h)
    · exact h hd
    · exact hs h
    · simp [he] at h
    · exact absurd ht (Nat.not_lt.mpr h)
  rw [Dev.connFailed, if_neg fails]

/-- Settles O30, row by row: the clauses of a row are the branches of its effect. -/
theorem safetyInputEventsTakeEffect : Obligations.SafetyInputEventsTakeEffect := by
  refine ⟨fun t bit v s hm => ?_, fun t bit v s hm hk => ?_, fun t bit v s hm => ?_, fun t bit v s hm hk => ?_,
    fun t bit v s hm hk => ?_, fun t bit v s hm hk => ?_, fun t pin v s hm hf => ?_, fun t pin v s hm => ?_,
    fun t pin v d2 s hm hf h2 he hn hb => ?_, fun t pin v d2 s hm hf h2 he hn => ?_, fun t pin v d2 s hm hf h2 he => ?_,
    fun t p s hx => ?_, fun t p x s hx he hf hd ht => ?_, fun t a b s hs he hd ht => ?_, fun t a b s hs he hd ht => ?_,
    fun t a b s hs ha hb => ?_, fun t b s he hb => ?_, fun t b s => ?_, fun t c a b i s hc hs he hi => ?_,
    fun t b s hp hm ht => ?_, fun t b s hp ht => ?_, fun t since s he ht => ?_, fun t since s ht => ?_,
    fun t c s hd hs he ht hl => ?_, fun t c s hd hs he ht hl => ?_, fun t c s h => ?_, fun t b v d1 s h1 => ?_,
    fun t i v d1 s h1 => ?_⟩
  -- SEAL_ACCEPTED: in BOOT, in RUN, in COMMISSION, in DORMANT
  · rw [exec_sealAccepted, Dev.sealAccepted_boot _ _ _ hm]
  · rw [exec_sealAccepted, Dev.sealAccepted_checked _ _ _ (hm.trans_ne (by decide)) (hm.trans_ne (by decide))
      (hm.trans_ne (by decide)) rfl, hk, if_neg Bool.false_ne_true]
  · rw [exec_sealAccepted, Dev.sealAccepted_commission _ _ _ hm]
  · rw [exec_sealAccepted, Dev.sealAccepted_dormant _ _ _ hm rfl, hk, if_neg Bool.false_ne_true]
  · rw [exec_sealAccepted, Dev.sealAccepted_dormant _ _ _ hm rfl, if_pos hk]
  · rw [exec_sealAccepted, Dev.sealAccepted_checked _ _ _ (hm.trans_ne (by decide)) (hm.trans_ne (by decide))
      (hm.trans_ne (by decide)) rfl, if_pos hk]
  -- SIN_CHANGE: of no pair, in DORMANT, with a new demand, without one, and where nothing is evaluated
  · rw [exec_sinChange, Dev.sinChange_unconfigured _ _ _ hm rfl hf]
  · rw [exec_sinChange, Dev.sinChange, if_pos hm]
  · rw [exec_sinChange, Dev.sinChange_configured _ _ _ hm rfl hf h2, if_pos he, if_pos ⟨hn, hb⟩]
  · have noNew : ¬ (d2.pairDemand (pin.val / 2) = true ∧ (s.dev.advance t).pairDemand (pin.val / 2) = false) := by
      rintro ⟨h, h'⟩
      rcases hn with hn | hn
      · exact Bool.false_ne_true (hn.symm.trans h)
      · exact Bool.false_ne_true (h'.symm.trans hn)
    rw [exec_sinChange, Dev.sinChange_configured _ _ _ hm rfl hf h2, if_pos he, if_neg noNew]
  · rw [exec_sinChange, Dev.sinChange_configured _ _ _ hm rfl hf h2, he, if_neg Bool.false_ne_true]
  -- SIN_DISCREPANCY
  · simp only [exec_sinDiscrepancy, Dev.sinDiscrepancy, hx]
  · simp only [exec_sinDiscrepancy, Dev.sinDiscrepancy, hx]
    rw [if_pos ⟨he, hf, by rwa [Bool.not_eq_true'], ht⟩]
  -- STO_FB_MISMATCH
  · rw [exec_stoFbMismatch, Dev.stoFbMismatch_shown t hs, if_pos ⟨he, .inl ⟨hd, ht⟩⟩]
  · rw [exec_stoFbMismatch, Dev.stoFbMismatch_shown t hs, if_pos ⟨he, .inr ⟨hd, ht⟩⟩]
  · rw [exec_stoFbMismatch, Dev.stoFbMismatch_shown t hs, if_neg]
    rintro ⟨-, ⟨hd, ht⟩ | ⟨hd, ht⟩⟩
    · exact ha.elim hd (Nat.not_le.mpr ht)
    · exact hb.elim hd (Nat.not_le.mpr ht)
  -- STO_TEST_PULSE
  · rw [exec_stoTestPulse, Dev.stoTestPulse, if_pos ⟨he, hb, rfl⟩]
  · rw [exec_stoTestPulse, Dev.stoTestPulse, if_neg (fun h => Bool.false_ne_true h.2.2.symm)]
  -- EDM_MISMATCH
  · simp only [exec_edmMismatch, Dev.edmMismatch, hc, hs, hi, he, if_true]
  -- PERMIT_LAPSE, CROSS_MISMATCH
  · simp only [exec_permitLapse, Dev.permitLapse, hp]
    rw [if_pos ⟨hm, ht⟩]
  · simp only [exec_permitLapse, Dev.permitLapse, hp]
    rw [if_neg (fun h => Nat.not_lt.mpr ht h.2)]
  · rw [exec_crossMismatch, Dev.crossMismatch, if_pos ⟨he, ht⟩]
  · rw [exec_crossMismatch, Dev.crossMismatch, if_neg (fun h => Nat.not_lt.mpr ht h.2)]
  -- CONNECTION_FAILED
  · rw [exec_connectionFailed, Dev.connFailed_silent t _ hd hs he ht rfl, if_neg hl]
  · rw [exec_connectionFailed, Dev.connFailed_silent t _ hd hs he ht rfl, if_pos hl]
  · rw [exec_connectionFailed, Dev.connFailed, if_pos]
    exact h.imp_right (Or.imp_right .inr)
  -- STO_FB_CHANGE, EDM_IN_CHANGE
  · rw [exec_stoFbChange, Dev.stoFbChange, h1]
  · rw [exec_edmInChange, Dev.edmInChange, h1]

end Sys2Proof.Machine
end

section
/-! SUPPORT. Proofs about power, clocks and modes: what follows every command, the reads of the host link and the system
commands of class 0x01, and what the commands of the bus, the pair, the fault system and the domains change at their
boundary. -/

namespace Sys2Proof.Machine

/-! ### What follows every command (R52, R97, R107, R352, R355, R501) -/

/-- A device with what follows every command taken from another one: the domains, FAULT_N, the item sequences, the trace, the
interrupts and notices, and the skimmer. -/
def Dev.recordsOf (d t : Dev) : Dev :=
  { d with
    power := { d.power with domains := t.power.domains }
    boot := { d.boot with faultN := t.boot.faultN }
    time := { d.time with seqs := t.time.seqs, lastItem := t.time.lastItem }
    disp := { d.disp with trace := t.disp.trace }
    host := { d.host with
      irqSticky := t.host.irqSticky, irqCond := t.host.irqCond, msiCount := t.host.msiCount, notices := t.host.notices
      lost := t.host.lost, noticeSeq := t.host.noticeSeq, healthSticky := t.host.healthSticky }
    skim := t.skim }

/-- The domains that R52 has run continuously or a trigger wakes (R55): SUP, DISP, PTIM and SKIM. -/
def wakeable : List Nat := [1, 2, 8, 11]

/-- A device differs from an earlier one only in what follows every command, and of the domains only in such that have
started. -/
structure Dev.Follows (d t : Dev) : Prop where
  frame : t = d.recordsOf t
  domain : ∀ i, t.power.domains.getD i .off = d.power.domains.getD i .off
    ∨ (i ∈ wakeable ∧ d.power.domains.getD i .off = .stopped ∧ t.power.domains.getD i .off = .running)

theorem Dev.Follows.refl (d : Dev) : d.Follows d := ⟨rfl, fun _ => .inl rfl⟩

theorem Dev.Follows.trans {d t u : Dev} (h : d.Follows t) (k : t.Follows u) : d.Follows u where
  frame := calc
    u = t.recordsOf u := k.frame
    _ = (d.recordsOf t).recordsOf u := congrArg (·.recordsOf u) h.frame
  domain i := by
    rcases k.domain i with same | ⟨hi, stopped, started⟩
    · rw [same]
      exact h.domain i
    · rcases h.domain i with same | ⟨-, -, runs⟩
      · exact .inr ⟨hi, same ▸ stopped, started⟩
      · exact absurd (stopped.symm.trans runs) (by decide)

/-- Steps that each only follow do so together. -/
theorem Dev.Follows.foldl {α : Type} {l : List α} {g : Dev → α → Dev} (hg : ∀ x : Dev, ∀ a ∈ l, x.Follows (g x a))
    (d : Dev) : d.Follows (l.foldl g d) :=
  List.foldlRecOn l g (.refl d) fun x h a ha => h.trans (hg x a ha)

/-- What follows on both branches follows whichever is taken. -/
theorem Dev.Follows.ite {c : Prop} [Decidable c] {d t u : Dev} (ht : d.Follows t) (hu : d.Follows u) :
    d.Follows (if c then t else u) := by
  split
  · exact ht
  · exact hu

/-! ### The operations that write outputs and records -/

theorem Dev.onSkim_follows (d : Dev) (f : Skim → Skim) : d.Follows (d.onSkim f) := ⟨rfl, fun _ => .inl rfl⟩

theorem Dev.irq_follows (d : Dev) (i : Nat) : d.Follows (d.irq i) := ⟨rfl, fun _ => .inl rfl⟩

theorem Dev.stampItem_follows (d : Dev) (c i t : Nat) : d.Follows (d.stampItem c i t).2.2 := ⟨rfl, fun _ => .inl rfl⟩

theorem Dev.onTrace_follows (d : Dev) (f : Disp → Trace) : d.Follows (d.onDisp (fun x => { x with trace := f x })) :=
  ⟨rfl, fun _ => .inl rfl⟩

/-- A notice is queued, or is counted lost. -/
theorem Dev.queueNotice_follows (d : Dev) (n : Notice) : d.Follows (d.queueNotice n) := by
  refine ⟨?_, fun _ => .inl rfl⟩
  by_cases full : 256 ≤ d.host.notices.length
  · simp only [Dev.queueNotice, if_pos full]
    rfl
  · simp only [Dev.queueNotice, if_neg full]
    rfl

/-- A notice that is not journalled. -/
theorem Dev.notice_follows (d : Dev) (c i t : Nat) (k : BitVec 16) (a : BitVec 32) : d.Follows (d.notice c i t k a false) :=
  (d.stampItem_follows c i t).trans (Dev.queueNotice_follows ..)

theorem Dev.trace_follows (d : Dev) (t k : Nat) (e : BitVec 16) (x i f : Nat) : d.Follows (d.trace t k e x i f) :=
  .ite (.refl d) ((d.stampItem_follows 2 0 t).trans (Dev.onTrace_follows ..))

theorem Dev.freezeTrace_follows (d : Dev) (t : Nat) : d.Follows (d.freezeTrace t) :=
  ((d.stampItem_follows 2 0 t).trans (Dev.onTrace_follows ..)).trans (Dev.notice_follows ..)

theorem Dev.traceTrigger_follows (d : Dev) (t : Nat) : d.Follows (d.traceTrigger t) :=
  .ite (.ite (d.freezeTrace_follows t) (d.onTrace_follows _)) (.refl d)

/-- A domain set to RUNNING runs; no other changes. -/
theorem getD_set_running {l : List DomState} {i : Nat} (j : Nat) (h : l.getD i .off = .stopped) :
    (l.set i .running).getD j .off = if i = j then .running else l.getD j .off := by
  have hi : i < l.length := by
    by_contra hn
    rw [List.getD_eq_default _ _ (Nat.not_lt.mp hn)] at h
    contradiction
  simp only [List.getD_eq_getElem?_getD, List.getElem?_set, if_pos hi]
  split <;> rfl

/-- The clock of such a domain starts where it was STOPPED. -/
theorem Dev.startDomain_follows (d : Dev) (t : Nat) {i : Nat} (hi : i ∈ wakeable) : d.Follows (d.startDomain t i) := by
  unfold Dev.startDomain
  split
  next stopped =>
    refine Dev.Follows.trans ⟨rfl, fun j => ?_⟩ (Dev.trace_follows ..)
    rw [Dev.onPower_power, getD_set_running j stopped]
    split
    next same => exact .inr (same ▸ ⟨hi, stopped, rfl⟩)
    next => exact .inl rfl
  next => exact .refl d

theorem Dev.wakeDisp_follows (d : Dev) (t : Nat) : d.Follows (d.wakeDisp t) := d.startDomain_follows t (by decide)

/-! ### The skimmer -/

theorem Dev.joinTrigger_follows (d : Dev) (m : Nat) : d.Follows (d.joinTrigger m) := .ite (.refl d) (d.onSkim_follows _)

/-- A trigger wakes DISP where the skimmer is not idle; accepted in ARMED it is posted, and may freeze the trace. -/
theorem Dev.skimTrigger_follows (d : Dev) (t m : Nat) : d.Follows (d.skimTrigger t m) := by
  have woken : d.Follows (d.wakeDisp t) := d.wakeDisp_follows t
  cases hp : d.skim.phase <;> simp only [Dev.skimTrigger, hp, reduceCtorEq, if_true, if_false]
  case idle => exact .refl d
  case armed =>
    exact woken.trans (((Dev.onSkim_follows ..).trans (Dev.notice_follows ..)).trans (Dev.traceTrigger_follows ..))
  case post => exact woken.trans (Dev.joinTrigger_follows ..)
  case held => exact woken.trans (Dev.onSkim_follows ..)
  case rearm => exact woken.trans (Dev.onSkim_follows ..)

/-- A record is taken in, and the trigger that it meets follows it. -/
theorem Dev.skimData_follows (d : Dev) (t ch : Nat) (v : BitVec 32) (f : Nat) : d.Follows (d.skimData t ch v f) := by
  have noted (g : Skim → Skim) : d.Follows (d.onSkim g) := d.onSkim_follows g
  cases hp : d.skim.phase <;> simp only [Dev.skimData, hp]
  case idle => exact .refl d
  case post => exact .ite (noted _) ((noted _).trans (Dev.joinTrigger_follows ..))
  all_goals exact .ite (noted _) ((noted _).trans (Dev.skimTrigger_follows ..))

theorem Dev.skimInternal_follows (old d : Dev) : d.Follows (old.skimInternal d) :=
  .foldl (fun x _ _ => .ite (x.skimData_follows ..) (.refl x)) d

/-- A level is noted; one that has been stable for long enough is recorded. -/
theorem Dev.pinSeen_follows (d : Dev) (ch : Nat) (now : Bool) : d.Follows (d.pinSeen ch now) :=
  have noted := Dev.Follows.ite (.refl d) (d.onSkim_follows _)
  .ite noted (.ite (noted.trans (Dev.onSkim_follows ..)) (.ite noted
    ((noted.trans (Dev.onSkim_follows ..)).trans (Dev.skimData_follows ..))))

theorem Dev.skimPins_follows (d : Dev) : d.Follows d.skimPins := by
  refine .foldl (fun x e _ => ?_) d
  dsimp only
  split
  · exact x.pinSeen_follows ..
  · exact .refl x

/-! ### The clocks that must run and the outputs -/

theorem Dev.runContinuous_follows (d : Dev) : d.Follows d.runContinuous :=
  have must : ∀ i ∈ [1, 8, 11], i ∈ wakeable := by decide
  .foldl (fun x i hi => .ite (x.startDomain_follows _ (must i hi)) (.refl x)) d

/-- FAULT_N falls with its interrupt, and the interrupt condition is settled. -/
theorem Dev.settle_follows (d : Dev) : d.Follows d.settle :=
  (Dev.Follows.ite (d.irq_follows 3) (.refl d)).trans ⟨rfl, fun _ => .inl rfl⟩

/-- The device of the state after a command or event follows the one that its effect left. -/
theorem after_follows (s : State) (d : Dev) : d.Follows (s.after d).dev :=
  (((d.runContinuous_follows.trans (Dev.settle_follows _)).trans (Dev.skimInternal_follows s.dev _)).trans
    (Dev.skimPins_follows _)).trans (Dev.settle_follows _)

/-! ### Served commands that are answered later (R528) -/

/-- A served and accepted command that is answered later leaves the state after its effect. -/
theorem act_served_later {m : Sem} {op len : Nat} {link : LinkRule} {modes : List Mode} {h : Hdr} {s : State} {d : Dev}
    (hS : Serves op len link modes h s) (hA : Accepted m h s) (hop : m.op = op) (hlink : m.link = link)
    (hmodes : m.modes = modes) (hlen : m.lenOk = decide (h.length = len)) (heff : m.eff (s.dev.take h) = (d, none)) :
    s.act (runCmd m h) = .next (s.after d) := by
  simp only [State.act, runCmd_served hS hA hop hlink hmodes hlen, heff, finish]

/-! ### The domains that are switched off (R48, R50, R67) -/

theorem Dev.loseDomain_power (d : Dev) (i : Nat) : (d.loseDomain i).power = d.power := by
  unfold Dev.loseDomain
  split <;> rfl

theorem Dev.loseDomain_loop (d : Dev) (i : Nat) : (d.loseDomain i).loop = if i = 3 then d.loop.cleared else d.loop := by
  unfold Dev.loseDomain
  split
  case h_9 => exact (if_neg ‹i = 3 → False›).symm
  all_goals rfl

/-- Of SEP only what the firmware holds as configuration stays. -/
def Sep.cleared (x : Sep) : Sep :=
  { isl := x.isl, islCheck := x.islCheck, planners := x.planners, hints := x.hints, hintsNext := x.hintsNext }

theorem Dev.loseDomain_sep (d : Dev) (i : Nat) : (d.loseDomain i).sep = if i = 6 then d.sep.cleared else d.sep := by
  unfold Dev.loseDomain
  split
  case h_9 => exact (if_neg ‹i = 6 → False›).symm
  all_goals rfl

theorem Dev.loseDomain_sig (d : Dev) (i : Nat) :
    (d.loseDomain i).sig = if i = 7 then { d.sig with cores := [] } else d.sig := by
  unfold Dev.loseDomain
  split
  case h_9 => exact (if_neg ‹i = 7 → False›).symm
  all_goals rfl

theorem Dev.loseDomain_memB (d : Dev) (i : Nat) : (d.loseDomain i).host.memB = if i = 13 then [] else d.host.memB := by
  unfold Dev.loseDomain
  split
  case h_9 => exact (if_neg ‹i = 13 → False›).symm
  all_goals rfl

/-- What the loss of domain `k` alone changes, the loss of the domains of a mask changes where `k` is one of them. -/
theorem Dev.foldl_loseDomain_proj {α : Type} {f : Dev → α} {g : α → α} {k : Nat}
    (hlose : ∀ (x : Dev) (i : Nat), f (x.loseDomain i) = if i = k then g (f x) else f x) (m : BitVec 16) {l : List Nat}
    (hl : l.Nodup) (d : Dev) :
    f (l.foldl (fun x i => if m.getLsbD i then x.loseDomain i else x) d)
      = if k ∈ l ∧ m.getLsbD k = true then g (f d) else f d := by
  induction l generalizing d with
  | nil => simp
  | cons i l ih =>
    obtain ⟨hi, hl⟩ := List.nodup_cons.mp hl
    rw [List.foldl_cons, ih hl]
    by_cases hk : i = k
    · subst hk
      by_cases hm : m.getLsbD i <;> simp [hi, hm, hlose]
    · by_cases hm : m.getLsbD i <;> simp [Ne.symm hk, hm, hlose, hk]

/-- A notice leaves MEMB. -/
theorem Dev.notice_memB (d : Dev) (c i t : Nat) (k : BitVec 16) (a : BitVec 32) (j : Bool) (p : List Byte) :
    (d.notice c i t k a j p).host.memB = d.host.memB := by
  have queued (x : Dev) (n : Notice) : (x.queueNotice n).host.memB = x.host.memB := by
    by_cases full : 256 ≤ x.host.notices.length
    · simp only [Dev.queueNotice, if_pos full]
    · simp only [Dev.queueNotice, if_neg full]
  cases j
  · exact queued (d.stampItem c i t).2.2 _
  · exact queued (d.stampItem c i t).2.2 _

/-- A spare that joins the pool changes only the fault channels with their journal, and what its notices change (R215). -/
theorem Dev.bringSpare_proj {α : Type} {f : Dev → α} (hfaults : ∀ (x : Dev) (g : Faults → Faults), f (x.onFaults g) = f x)
    (hnotice : ∀ (x : Dev) (c i t : Nat) (k : BitVec 16) (a : BitVec 32) (j : Bool) (p : List Byte),
      f (x.notice c i t k a j p) = f x) (d : Dev) (t l : Nat) : f (d.bringSpare t l) = f d := by
  have partner (x : Dev) (c : BitVec 16) (o : Option (BitVec 16)) : f (x.setPartner c o) = f x :=
    hfaults x (fun y => { y with chans := upd y.chans c.toNat (fun z => { z with partner := o }) })
  unfold Dev.bringSpare
  split
  · rfl
  · rw [Dev.onJournal, hfaults, hnotice, hnotice, partner, partner]

/-- A domain comes up when a mask takes effect: it was masked, and off. -/
def Dev.comesUp (d : Dev) (m : BitVec 16) (i : Nat) : Bool :=
  d.power.offMask.getLsbD i && !m.getLsbD i && decide (d.power.domains.getD i .off = .off)

/-- A mask in force: its domains are off, and those that come up run, with their sources begun anew (R13). -/
def Dev.masked (d : Dev) (m : BitVec 16) : Dev :=
  (d.onPower (fun x => { x with
    offMask := m
    domains := d.power.domains.mapIdx (fun i y => if m.getLsbD i then .off else if d.comesUp m i then .running else y) })
  ).onTime (fun x => x.restartSources (d.comesUp m))

/-- The domains of a mask lose their state. -/
def Dev.loseDomains (d : Dev) (m : BitVec 16) : Dev :=
  (List.range 14).foldl (fun x i => if m.getLsbD i then x.loseDomain i else x) d

/-- Spares stand in for the retired lanes that have none. -/
def Dev.coverLanes (d : Dev) : Dev := d.uncovered.foldl (fun x l => x.bringSpare x.bk l) d

/-- What SET_DOMAINS does: its mask takes effect, and the domains of it lose their state; where a solver half comes up, spares
may join the pool, and where SIG does, its memories are reloaded. -/
theorem Dev.applyDomains_cases {d : Dev} {p : BitVec 16} {m : BitVec 16} (hm : m = d.offMaskOf p) :
    ∃ x, (x = ((d.masked m).loseDomains m).coverLanes ∨ x = (d.masked m).loseDomains m)
      ∧ d.applyDomains p = if d.comesUp m 7 then x.reloadCores else x :=
  hm ▸ ⟨_, ite_eq_or_eq ((d.comesUp (d.offMaskOf p) 4 || d.comesUp (d.offMaskOf p) 5) = true) _ _, rfl⟩

/-- SET_DOMAINS changes a part of the device that neither a spare nor the reload of SIG touches as the mask in force and the loss of
domain `k` alone do. -/
theorem Dev.applyDomains_proj {α : Type} {f : Dev → α} {g : α → α} {k : Nat} {d : Dev} {p m : BitVec 16}
    (hm : m = d.offMaskOf p) (hk : k < 14)
    (hlose : ∀ (x : Dev) (i : Nat), f (x.loseDomain i) = if i = k then g (f x) else f x)
    (hfaults : ∀ (x : Dev) (u : Faults → Faults), f (x.onFaults u) = f x)
    (hnotice : ∀ (x : Dev) (c i t : Nat) (n : BitVec 16) (a : BitVec 32) (j : Bool) (b : List Byte),
      f (x.notice c i t n a j b) = f x)
    (hreload : m.getLsbD 7 = false → ∀ x : Dev, f x.reloadCores = f x) :
    f (d.applyDomains p) = if m.getLsbD k then g (f (d.masked m)) else f (d.masked m) := by
  have lost (x : Dev) : f (x.loseDomains m) = if m.getLsbD k then g (f x) else f x := by
    rw [Dev.loseDomains, Dev.foldl_loseDomain_proj hlose m List.nodup_range]
    simp only [List.mem_range, hk, true_and]
  have covered (x : Dev) : f x.coverLanes = f x := by
    rw [Dev.coverLanes, ← List.foldl_hom f (g₂ := fun a _ => a)
      (fun y n => (Dev.bringSpare_proj hfaults hnotice y y.bk n).symm), List.foldl_fixed]
  obtain ⟨x, hx, hd⟩ := Dev.applyDomains_cases hm
  rw [← lost, hd]
  calc
    f (if d.comesUp m 7 then x.reloadCores else x) = f x := by
      split
      next up =>
        simp only [Dev.comesUp, Bool.and_eq_true, Bool.not_eq_true'] at up
        exact hreload up.1.2 x
      next => rfl
    _ = f ((d.masked m).loseDomains m) := by
      rcases hx with rfl | rfl
      · exact covered _
      · rfl

/-- The reload changes SIG alone (R54). -/
theorem Dev.reloadCores_frame (d : Dev) : d.reloadCores = { d with sig := d.reloadCores.sig } := by
  unfold Dev.reloadCores
  rfl

/-! What SET_DOMAINS leaves of each part. -/

theorem Dev.applyDomains_power (d : Dev) (p : BitVec 16) : (d.applyDomains p).power = (d.masked (d.offMaskOf p)).power :=
  (Dev.applyDomains_proj (f := (·.power)) (g := id) (k := 0) rfl (by decide)
    (fun x i => (x.loseDomain_power i).trans (ite_self _).symm) (fun _ _ => rfl) Dev.notice_power
    (fun _ x => congrArg (·.power) x.reloadCores_frame)).trans (ite_self _)

theorem Dev.applyDomains_loop (d : Dev) (p : BitVec 16) :
    (d.applyDomains p).loop = if (d.offMaskOf p).getLsbD 3 then d.loop.cleared else d.loop :=
  Dev.applyDomains_proj (f := (·.loop)) (g := Loop.cleared) rfl (by decide) Dev.loseDomain_loop (fun _ _ => rfl)
    Dev.notice_loop (fun _ x => congrArg (·.loop) x.reloadCores_frame)

theorem Dev.applyDomains_sep (d : Dev) (p : BitVec 16) :
    (d.applyDomains p).sep = if (d.offMaskOf p).getLsbD 6 then d.sep.cleared else d.sep :=
  Dev.applyDomains_proj (f := (·.sep)) (g := Sep.cleared) rfl (by decide) Dev.loseDomain_sep (fun _ _ => rfl)
    Dev.notice_sep (fun _ x => congrArg (·.sep) x.reloadCores_frame)

theorem Dev.applyDomains_memB (d : Dev) (p : BitVec 16) :
    (d.applyDomains p).host.memB = if (d.offMaskOf p).getLsbD 13 then [] else d.host.memB :=
  Dev.applyDomains_proj (f := (·.host.memB)) (g := fun _ => []) rfl (by decide) Dev.loseDomain_memB (fun _ _ => rfl)
    Dev.notice_memB (fun _ x => congrArg (·.host.memB) x.reloadCores_frame)

/-- A SIG that is switched off keeps no core state: it is not reloaded. -/
theorem Dev.applyDomains_sig {d : Dev} {p : BitVec 16} (off : (d.offMaskOf p).getLsbD 7 = true) :
    (d.applyDomains p).sig = { d.sig with cores := [] } := by
  rw [Dev.applyDomains_proj (f := (·.sig)) (g := fun s => { s with cores := [] }) (k := 7) rfl (by decide)
    Dev.loseDomain_sig (fun _ _ => rfl) Dev.notice_sig (fun up => absurd (off.symm.trans up) (by decide)), if_pos off]
  rfl

/-! ### The obligations -/

/-- Settles O1: each is a served command whose effect answers OK; the data of GET_POWER_STATE and GET_BOOT_REPORT have their
length by the widths of their fields. -/
theorem hostReadsAnswerWithTheTableLength : Obligations.HostReadsAnswerWithTheTableLength := by
  refine ⟨fun h p s hl hS => ?_, fun h s hS hA => ⟨_, ?_, act_served_ok hS hA rfl rfl rfl rfl rfl⟩,
    fun h s hS hA => ⟨_, ?_, act_served_ok hS hA rfl rfl rfl rfl rfl⟩,
    fun h s hS hA => act_served_ok hS hA rfl rfl rfl rfl rfl, fun h p s hS hA hp => ?_, fun h p s hS hA hp => ?_⟩
  -- ECHO, whose length is that of its data
  · have lenOk : (semEcho h p).lenOk = decide (h.length = h.length) := (decide_eq_true hl).trans (decide_eq_true rfl).symm
    exact act_served_ok hS ⟨rfl, rfl⟩ rfl rfl rfl lenOk rfl
  -- GET_POWER_STATE, GET_BOOT_REPORT
  · simp
  · simp
  -- MAINT_READ
  · exact act_served_ok hS hA rfl rfl rfl rfl (by simp only [semMaintRead, if_pos hp])
  · exact act_served_ok hS hA rfl rfl rfl rfl (by simp only [semMaintRead, if_neg hp])

/-- Settles O5: each is a served command whose effect answers OK, but for RUN_SELFTEST, which is answered later. -/
theorem systemCommandsTakeEffect : Obligations.SystemCommandsTakeEffect := by
  refine ⟨?_, ?_, ?_, ?_, ?_, ?_, ?_, fun h p s hS hA => act_served_later hS hA rfl rfl rfl rfl rfl⟩ <;>
    exact fun h p s hS hA => act_served_ok hS hA rfl rfl rfl rfl rfl

/-- Settles O41: each part of what follows a command writes only outputs and records. -/
theorem settlingChangesOnlyOutputsAndRecords : Obligations.SettlingChangesOnlyOutputsAndRecords := by
  intro s d t
  have follows : d.Follows t := after_follows s d
  clear_value t
  obtain ⟨frame, domain⟩ := follows
  have unit {α : Type} (f : Dev → α) := congrArg f frame
  exact ⟨unit (·.power), unit (·.fuses), unit (·.safety), unit (·.arms), unit (·.joints), unit (·.mults), unit (·.chops),
    unit (·.loop), unit (·.tuning), unit (·.solver), unit (·.kin), unit (·.sep), unit (·.deck), unit (·.sig), unit (·.pwm),
    unit (·.bus), unit (·.pair), unit (·.faults), unit (·.waiting), unit (·.fresh), unit (·.boot), unit (·.time),
    unit (·.disp), unit (·.host), domain⟩

/-- Settles O55: each clause is the row's arm of `applyWaiting`. -/
theorem busPairAndFaultChangesApply : Obligations.BusPairAndFaultChangesApply := by
  refine ⟨fun _ _ _ _ _ _ _ => rfl, fun _ _ _ _ _ _ _ => rfl, fun d d1 b e st blk h p h1 => h1 ▸ rfl,
    fun d d1 b e st blk h p h1 => h1 ▸ rfl, fun d b e st blk h p granted => if_pos granted, fun _ _ _ _ _ _ _ => rfl,
    fun _ _ _ _ _ _ _ => rfl, fun _ _ _ _ _ _ _ => rfl, fun _ _ _ _ _ _ _ => rfl, fun _ _ _ _ _ _ _ => rfl,
    fun d b e st blk h p one => if_neg one, fun d b e st blk h p => ?_⟩
  exact ⟨d.applyDomains_power p.offMask, d.applyDomains_loop p.offMask, d.applyDomains_sep p.offMask,
    Dev.applyDomains_sig, d.applyDomains_memB p.offMask⟩

end Sys2Proof.Machine
end

section
/-! SUPPORT. Proofs about the fuses and the doorbells: which fuses the two commands that program them blow, and what a write of
MBX_IN_DB or an update of MAINT_MSG rings. -/

namespace Sys2Proof.Machine

/-! ### Fuses (R78, R81, R86) -/

/-- A reply is posted in the host interface; it blows nothing. -/
@[simp] theorem Dev.reply_fuses (d : Dev) (h : Hdr) (op : Nat) (st : Status) (data : List Byte) :
    (d.reply h op st data).fuses = d.fuses := by
  cases h with | mk link => cases link <;> rfl

/-- Nor does anything that follows a command. -/
theorem Dev.Follows.fuses {d t : Dev} (h : d.Follows t) : t.fuses = d.fuses := congrArg (·.fuses) h.frame

@[simp] theorem after_fuses (s : State) (d : Dev) : (s.after d).dev.fuses = d.fuses := (after_follows s d).fuses

@[simp] theorem finish_fuses (m : Sem) (h : Hdr) (r : Dev × Option (Status × List Byte)) :
    (finish m h r).fuses = r.1.fuses := by
  rcases r with ⟨d, _ | ⟨st, data⟩⟩
  · rfl
  · exact d.reply_fuses h m.op st data

/-- The fuses that a message leaves are those of its command's effect, or those there were. -/
theorem runCmd_fuses (m : Sem) (h : Hdr) (d : Dev) :
    (runCmd m h d).fuses = d.fuses ∨ (runCmd m h d).fuses = (m.eff (d.take h)).1.fuses := by
  by_cases hs : d.server h.link = .nobody
  · exact .inl (by rw [runCmd, if_pos hs])
  by_cases hj : m.judge h (d.take h) = .ok
  · simp only [runCmd, if_neg hs, hj]
    exact .inr (finish_fuses m h (m.eff (d.take h)))
  · exact .inl (by simp [runCmd_refused m h d hs hj])

/-- Bits set in one row leave every blown fuse blown. -/
theorem getLsbD_modify_or {l : List (BitVec 64)} {r i : Nat} (n : Nat) (m : BitVec 64) (h : (l.getD r 0).getLsbD i = true) :
    ((l.modify n (· ||| m)).getD r 0).getLsbD i = true := by
  simp only [List.getD_eq_getElem?_getD, List.getElem?_modify] at h ⊢
  cases hr : l[r]? with
  | none => simp [hr] at h
  | some v =>
    have blown : v.getLsbD i = true := by simpa [hr] using h
    by_cases hn : n = r <;> simp [hn, blown]

/-- A command whose effect only sets bits of one row heals no blown fuse, whether its message is served or not (R78). -/
theorem act_runCmd_fusesKept {m : Sem} {h : Hdr} {s t : State}
    (blows : ∀ d : Dev, ∃ n w, (m.eff d).1.fuses.rows = d.fuses.rows.modify n (· ||| w))
    (ht : s.act (runCmd m h) = .next t) : FusesKept s t := by
  obtain rfl : s.after (runCmd m h s.dev) = t := Host.Outcome.next.inj ht
  intro r i blown
  rw [after_fuses]
  rcases runCmd_fuses m h s.dev with same | effect
  · rwa [same]
  · obtain ⟨n, w, rows⟩ := blows (s.dev.take h)
    rw [effect, rows, Dev.take_fuses]
    exact getLsbD_modify_or n w blown

/-! ### Doorbells (R83, R95, R99, R341) -/

/-- Rung slots that are the host's become the device's, entry 13 fires once for them, and their messages are taken in slot
order, busy where entry 13 was back-pressured. -/
def Dev.takeRung (d : Dev) (t : Nat) (free : List Nat) : Dev :=
  let d2 := d.onHost (fun h => { h with slots := free.foldl (fun m i => upd m i (fun x => { x with owned := true })) h.slots })
  free.foldl (fun d i => d.hostMessage t i (d2.pressedNow 13)) (d2.fire t t 13)

/-- The rung slots with a property are the slots that are rung and have it. -/
theorem filter_rung (w : BitVec 32) (p : Nat → Bool) :
    ((List.range 8).filter (fun i => w.getLsbD i)).filter p = (List.range 8).filter (fun i => w.getLsbD i && p i) := by
  rw [List.filter_filter]
  exact List.filter_congr fun i _ => Bool.and_comm ..

/-- A ring while the interface is open: DISP wakes, slots rung that the device owns set IRQ 5, and the other rung slots are
taken. -/
theorem Dev.ring_open {d : Dev} {w : BitVec 32} {own free : List Nat} (t : Nat) (ho : d.hostOpen = true)
    (hown : (List.range 8).filter (fun i => w.getLsbD i && (look d.host.slots i).owned) = own)
    (hfree : (List.range 8).filter (fun i => w.getLsbD i && !(look d.host.slots i).owned) = free)
    (rings : own ≠ [] ∨ free ≠ []) :
    d.ring t w =
      let d1 := if own.isEmpty then d.wakeDisp t else (d.wakeDisp t).irq 5
      if free.isEmpty then d1 else d1.takeRung t free := by
  have rung : ((List.range 8).filter (fun i => w.getLsbD i)).isEmpty = false := by
    rw [Bool.eq_false_iff, ne_eq, List.isEmpty_iff]
    intro noRung
    rw [← filter_rung, noRung] at hown hfree
    exact rings.elim (· hown.symm) (· hfree.symm)
  simp only [Dev.ring, ho, filter_rung, hown, hfree, rung, Dev.takeRung]
  rfl

/-- With free slots among those rung, their messages are taken after the wake, and after IRQ 5 where others are owned. -/
theorem Dev.ring_free {d : Dev} {w : BitVec 32} {own free : List Nat} (t : Nat) (ho : d.hostOpen = true)
    (hown : (List.range 8).filter (fun i => w.getLsbD i && (look d.host.slots i).owned) = own)
    (hfree : (List.range 8).filter (fun i => w.getLsbD i && !(look d.host.slots i).owned) = free) (someFree : free ≠ []) :
    d.ring t w = (if own.isEmpty then d.wakeDisp t else (d.wakeDisp t).irq 5).takeRung t free := by
  rw [Dev.ring_open t ho hown hfree (.inr someFree)]
  exact if_neg (by simpa using someFree)

/-- An update of MAINT_MSG with RING takes its message where none is unanswered. -/
theorem Dev.updateDr_ring {d : Dev} {b : List Byte} (t : Nat) (ring : (b.getD 1024 0).getLsbD 0 = true)
    (idle : d.host.maint.owned = false) : d.updateDr t b = (d.scan 0b01001).maintMessage t (b.take 1024) :=
  if_pos ⟨ring, (congrArg (!·) idle : (!d.host.maint.owned) = true)⟩

/-- Any other update of MAINT_MSG takes nothing: the instruction register holds its code. -/
theorem Dev.updateDr_silent {d : Dev} {b : List Byte} (t : Nat)
    (silent : (b.getD 1024 0).getLsbD 0 = false ∨ d.host.maint.owned = true) : d.updateDr t b = d.scan 0b01001 := by
  refine if_neg fun ⟨ring, idle⟩ => ?_
  have idle : (!d.host.maint.owned) = true := idle
  rcases silent with off | owned
  · exact absurd (off.symm.trans ring) (by decide)
  · simp [owned] at idle

theorem exec_mbxInDbRing (t : Nat) (w : BitVec 32) (s : State) :
    exec (.mbxInDbRing t w) s = .next (s.after ((s.dev.advance t).ring t w)) := rfl

theorem exec_maintMsgUpdateDr (t : Nat) (b : List Byte) (s : State) :
    exec (.maintMsgUpdateDr t b) s = .next (s.after ((s.dev.advance t).updateDr t b)) := rfl

/-! ### The obligations -/

/-- Settles O6: both are served commands whose effect answers OK, and that effect only sets bits of one row. -/
theorem fuseCommandsBlowTheirBits : Obligations.FuseCommandsBlowTheirBits :=
  ⟨fun _ _ _ hS hA => act_served_ok hS hA rfl rfl rfl rfl rfl,
   fun _ _ hS hA => act_served_ok hS hA rfl rfl rfl rfl rfl,
   fun h p _ _ => act_runCmd_fusesKept (m := semFuseProgram h p) fun _ => ⟨p.row.toNat, p.mask, rfl⟩,
   fun h _ _ => act_runCmd_fusesKept (m := semAdvanceRollback h) fun _ => ⟨10, _, rfl⟩⟩

/-- Settles O18: the slots rung split into the owned and the free ones, and MAINT_MSG rings on RING with no message
unanswered. -/
theorem ringsTakeTheirMessages : Obligations.RingsTakeTheirMessages := by
  refine ⟨fun t w s => ?_, fun t w rung s => ?_, fun t w own free s => ?_, fun t b s => ?_, fun t b s => ?_⟩ <;> intro d
  -- only owned slots
  · intro ho hfree hown
    rw [exec_mbxInDbRing, Dev.ring_open t ho rfl hfree (.inl hown)]
    simp [hown]
  -- only free slots
  · intro ho hrung someRung allFree
    have isFree : ∀ i ∈ rung, (look d.host.slots i).owned = false := by simpa using allFree
    have noneOwned : (List.range 8).filter (fun i => w.getLsbD i && (look d.host.slots i).owned) = [] := by
      rw [← filter_rung, hrung, List.filter_eq_nil_iff]
      exact fun i hi => by simp [isFree i hi]
    have free : (List.range 8).filter (fun i => w.getLsbD i && !(look d.host.slots i).owned) = rung := by
      rw [← filter_rung, hrung, List.filter_eq_self]
      exact fun i hi => by simp [isFree i hi]
    rw [exec_mbxInDbRing, Dev.ring_free t ho noneOwned free someRung]
    rfl
  -- both
  · intro ho hown hfree someOwned someFree
    rw [exec_mbxInDbRing, Dev.ring_free t ho hown hfree someFree, if_neg (by simpa using someOwned)]
    rfl
  -- RING with no message unanswered
  · intro ring idle
    rw [exec_maintMsgUpdateDr, Dev.updateDr_ring t ring idle]
  -- no ring, or a message unanswered
  · intro silent
    rw [exec_maintMsgUpdateDr, Dev.updateDr_silent t silent]

end Sys2Proof.Machine
end

section
/-! SUPPORT. Proofs about messages of the host link: how a taken message is judged, how a rung one finds its command or is
refused, the queues of notices and of journal records, and how the queue of commands runs to its end. -/

namespace Sys2Proof.Machine

/-! ### The queue of commands (R99, R100) -/

/-- Every command answers a settled state with the queue as it was. -/
theorem exec_answers (c : Instr) (s : State) : ∃ t, exec c s = .next t ∧ t.pending = s.pending ∧ Settled t := by
  obtain ⟨d, hd⟩ := exec_after c s
  exact ⟨s.after d, hd, after_pending s d, after_settled s d⟩

theorem step_nil {s : State} (h : s.pending = []) : step s = .next s := by
  simp only [step, h]

theorem step_cons {s : State} {c : Instr} {q : List Instr} (h : s.pending = c :: q) :
    step s = exec c { s with pending := q } := by
  simp only [step, h]

/-- A step for every command of a queue runs it to its end. -/
theorem runsTo_empty {q : List Instr} {s : State} (hq : s.pending = q) : ∃ t, RunsTo q.length s t ∧ t.pending = [] := by
  induction q generalizing s with
  | nil => exact ⟨s, rfl, hq⟩
  | cons c q ih =>
    obtain ⟨m, hm, rest, -⟩ := exec_answers c { s with pending := q }
    obtain ⟨t, run, empty⟩ := ih rest
    exact ⟨t, ⟨m, (step_cons hq).trans hm, run⟩, empty⟩

/-! ### Judging a message (R100, R102, R527) -/

/-- Only lateness is read from `ct`: a message on time is judged as one without. -/
theorem Sem.judge_onTime (m : Sem) {h : Hdr} (d : Dev) (onTime : h.ct = 0 ∨ h.stamp ≤ h.ct) :
    m.judge h d = m.judge { h with ct := 0 } d := by
  have notLate : ¬ (h.ct ≠ 0 ∧ h.ct < h.stamp) := by omega
  simp only [Sem.judge, if_neg notLate, ne_eq, not_true_eq_false, false_and, if_false]
  rfl

/-- Steps 6 to 11 of R100, for a message on time that the firmware answers. -/
theorem Sem.judge_firmware (m : Sem) {h : Hdr} {d : Dev} (onTime : h.ct = 0 ∨ h.stamp ≤ h.ct)
    (firmware : d.server h.link = .firmware) :
    m.judge h d = if d.classForbidden (m.op / 256) then .fused
      else (m.link.judge d h.link).getD (if d.power.mode ∉ m.modes then .mode else m.lastSteps h d) := by
  have notLate : ¬ (h.ct ≠ 0 ∧ h.ct < h.stamp) := by omega
  simp only [Sem.judge, if_neg notLate, firmware]
  cases m.link.judge d h.link <;> rfl

/-! ### Rung messages (R95, R99 to R101) -/

/-- A command that changes the device as a message does so as a row; an event is no message. -/
theorem exec_of_command {c : Instr} {s : State} (changes : Dev.command c s.dev ≠ s.dev) :
    exec c s = .next (s.after (Dev.command c s.dev)) := by
  unfold Dev.command at changes
  split at changes
  -- an event, the last branch, leaves the device; every other branch is its row
  on_goal -1 => exact absurd rfl changes
  all_goals rfl

theorem Dev.takenMessage_command {d : Dev} {h : Hdr} {op : BitVec 16} {b : List Byte} {c : Instr}
    (spells : parseCommand h op b = some c) : d.takenMessage h op b = d.command c := by
  simp only [Dev.takenMessage, spells]

theorem Dev.takenMessage_unknown {d : Dev} {h : Hdr} {op : BitVec 16} {b : List Byte} (spells : parseCommand h op b = none)
    (firmware : d.server h.link = .firmware) (onTime : h.ct = 0 ∨ h.stamp ≤ h.ct) :
    d.takenMessage h op b = (d.take h).reply h op.toNat .unknownOpcode [] := by
  have notLate : ¬ (h.ct ≠ 0 ∧ h.ct < h.stamp) := by omega
  simp only [Dev.takenMessage, spells, if_neg notLate, if_pos firmware]

section
variable {d : Dev} {t slot : Nat} {m : List Byte} (busy : Bool) (hm : (look d.host.slots slot).message = m)
include hm

/-- A message with a bad length or check value is refused (steps 1 and 2). -/
theorem Dev.hostMessage_bad {st : Status} (bad : msgBad m = some st) : d.hostMessage t slot busy = d.refuseMsg slot t m st := by
  simp only [Dev.hostMessage, hm, bad]

/-- One in sequence is taken, or refused with BUSY (steps 3 and 4). -/
theorem Dev.hostMessage_expected (good : msgBad m = none) (inSeq : (msgHdr .host slot t m).seq = d.host.expect) :
    d.hostMessage t slot busy = if busy then d.refuseMsg slot t m .busy
      else d.takenMessage (msgHdr .host slot t m) (rd 16 m 0) ((m.drop 16).take (msgHdr .host slot t m).length) := by
  simp only [Dev.hostMessage, hm, good, if_pos inSeq]

variable (good : msgBad m = none) (outOfSeq : (msgHdr .host slot t m).seq ≠ d.host.expect)
include good outOfSeq

/-- A repeat of the last taken message gets the stored reply. -/
theorem Dev.hostMessage_repeat {r : List Byte} (again : d.host.anyTaken ∧ (msgHdr .host slot t m).seq + 1 = d.host.expect
      ∧ (msgHdr .host slot t m).crc = d.host.lastCrc) (posted : d.host.last = some r) :
    d.hostMessage t slot busy = d.onHost (fun x => x.putReply slot (asRepeat r)) := by
  simp only [Dev.hostMessage, hm, good, if_neg outOfSeq, if_pos again, posted]

/-- Where the reply is still to come, the repeat is held for it. -/
theorem Dev.hostMessage_held (again : d.host.anyTaken ∧ (msgHdr .host slot t m).seq + 1 = d.host.expect
      ∧ (msgHdr .host slot t m).crc = d.host.lastCrc) (notPosted : d.host.last = none) :
    d.hostMessage t slot busy = d.onHost (fun x => { x with
      slots := upd x.slots slot (fun y => { y with held := some (msgHdr .host slot t m).seq }) }) := by
  simp only [Dev.hostMessage, hm, good, if_neg outOfSeq, if_pos again, notPosted]

/-- Any other message out of sequence is refused with SEQ. -/
theorem Dev.hostMessage_seq (other : ¬ (d.host.anyTaken ∧ (msgHdr .host slot t m).seq + 1 = d.host.expect
      ∧ (msgHdr .host slot t m).crc = d.host.lastCrc)) : d.hostMessage t slot busy = d.refuseMsg slot t m .seq := by
  simp only [Dev.hostMessage, hm, good, if_neg outOfSeq, if_neg other]

end

/-! ### The notice queue (R107) -/

/-- With room in the queue, a notice takes its place there. -/
theorem Dev.queueNotice_room {d : Dev} (n : Notice) (room : d.host.notices.length < 256) :
    d.queueNotice n = { d with host := { d.host with
      notices := insertNotice { n with seq := d.host.noticeSeq } d.host.notices, noticeSeq := d.host.noticeSeq + 1 } } := by
  simp only [Dev.queueNotice, if_neg (Nat.not_le.mpr room)]

/-- With a full queue, it is counted lost. -/
theorem Dev.queueNotice_full {d : Dev} (n : Notice) (full : 256 ≤ d.host.notices.length) :
    d.queueNotice n = { d with host := { d.host with
      lost := satInc d.host.lost, healthSticky := setBit d.host.healthSticky 1 true, noticeSeq := d.host.noticeSeq + 1 } } := by
  simp only [Dev.queueNotice, if_pos full]

theorem satInc_16 (v : BitVec 16) : satInc v = if v = 0xFFFF then 0xFFFF else v + 1 := by
  unfold satInc
  split
  next top => rw [top]; rfl
  next below => exact (if_neg below).symm

/-! ### The obligations -/

/-- Settles O37: a step idles or answers a state after an effect, which is settled. -/
theorem settledIsKeptByEveryStep : Obligations.SettledIsKeptByEveryStep := by
  intro s t settled h
  rcases step_cases h with ⟨-, rfl⟩ | ⟨c, q, d, -, -, rfl⟩
  · exact settled
  · exact after_settled _ d

/-- Settles O39: by induction on the queue, since every command answers a state with the rest of it. -/
theorem everyQueueRunsToItsEnd : Obligations.EveryQueueRunsToItsEnd := fun _ => runsTo_empty rfl

/-- Settles O40: every command answers the state after some effect on the device, with the queue as it was. -/
theorem everyCommandAnswersANextState : Obligations.EveryCommandAnswersANextState := exec_answers

/-- Settles O36: the two branches of a step. -/
theorem stepRunsTheFrontCommand : Obligations.StepRunsTheFrontCommand :=
  ⟨fun _ _ _ => step_cons, fun _ => step_nil⟩

/-- Settles O43: lateness is the first step of the judgement and all that it reads from `ct`. -/
theorem aLateCommandIsRefusedWithDeadline : Obligations.ALateCommandIsRefusedWithDeadline :=
  ⟨runCmd_late, fun m _ d => m.judge_onTime d⟩

/-- Settles O44, step by step of the judgement. -/
theorem theFirstFailingStepDecides : Obligations.TheFirstFailingStepDecides := by
  refine ⟨fun m h d ot fw forbidden => ?_, fun m h d st ot fw allowed link => ?_, fun m h d ot fw allowed link => ?_,
    runCmd_refused, fun m h d nobody => if_pos nobody⟩
  · rw [m.judge_firmware ot fw, if_pos forbidden]
  · rw [m.judge_firmware ot fw, allowed, link]
    rfl
  · rw [m.judge_firmware ot fw, allowed, link]
    simp only [Sem.lastSteps, Bool.not_eq_true', Bool.false_eq_true, if_false, Option.getD_none]

/-- Settles O45: in sequence and not busy, a message is taken, and what is taken is the command that it spells. -/
theorem mailboxMessagesRunTheirCommand : Obligations.MailboxMessagesRunTheirCommand := by
  refine ⟨fun d t slot c good inSeq spells => ?_, fun c s => exec_of_command,
    fun d h op b => Dev.takenMessage_unknown⟩
  rw [Dev.hostMessage_expected false rfl good inSeq, if_neg Bool.false_ne_true]
  exact Dev.takenMessage_command spells

/-- Settles O46: the cases of the sequence rule. -/
theorem theSequenceRuleDecidesRepeats : Obligations.TheSequenceRuleDecidesRepeats := by
  refine ⟨fun d t slot busy st => Dev.hostMessage_bad busy rfl, fun d t slot good inSeq => ?_,
    fun d t slot busy r good outOfSeq taken before crc => Dev.hostMessage_repeat busy rfl good outOfSeq ⟨taken, before, crc⟩,
    fun d t slot busy good outOfSeq taken before crc => Dev.hostMessage_held busy rfl good outOfSeq ⟨taken, before, crc⟩,
    fun d t slot busy good outOfSeq other => Dev.hostMessage_seq busy rfl good outOfSeq ?_, fun d slot t m st => ⟨rfl, rfl⟩⟩
  · rw [Dev.hostMessage_expected true rfl good inSeq, if_pos rfl]
  · rintro ⟨taken, before, crc⟩
    rcases other with h | h | h
    · exact Bool.false_ne_true (h.symm.trans taken)
    · exact h before
    · exact h crc

/-- Settles O48: a notice is inserted or counted lost, a record appended or counted lost. -/
theorem noticeAndJournalQueuesAreBounded : Obligations.NoticeAndJournalQueuesAreBounded := by
  refine ⟨fun d n room latest => ?_, fun d n sorted => ?_, fun d n full => ?_, fun d n bounded => ?_,
    fun d r kept => ?_, fun d r full h1 hE => ?_⟩
  · have last := insertNotice_last (n := { n with seq := d.host.noticeSeq }) latest
    rw [Dev.queueNotice_room n room, last]
  · rcases Nat.lt_or_ge d.host.notices.length 256 with room | full
    · rw [Dev.queueNotice_room n room]
      exact insertNotice_sorted sorted
    · rw [Dev.queueNotice_full n full]
      exact sorted
  · rw [Dev.queueNotice_full n full, satInc_16]
  · rcases Nat.lt_or_ge d.host.notices.length 256 with room | full
    · rw [Dev.queueNotice_room n room]
      exact (insertNotice_length _ _).trans_le room
    · rw [Dev.queueNotice_full n full]
      exact bounded
  · have notDropped : ¬ (128 ≤ d.faults.journal.queue.length ∧ r.code.toNat / 256 ≠ 0x01
        ∧ r.code.toNat / 256 ≠ 0x0E) := by omega
    simp only [Dev.queueRecord, if_neg notDropped]
  · simp only [Dev.queueRecord, if_pos (⟨full, h1, hE⟩ : _ ∧ _ ∧ _)]
    exact ⟨trivial, trivial⟩

end Sys2Proof.Machine
end

section
/-! SUPPORT. Proofs about the host registers and the data port: what a memory reads back, which error a request meets, what an
access moves, and what a write to a register does. -/

namespace Sys2Proof.Machine

/-- A row that computes an effect on the device leaves the state after every form of that effect. -/
theorem exec_eq_after {c : Instr} {s : State} {d e : Dev} (row : exec c s = .next (s.after d)) (effect : d = e) :
    exec c s = .next (s.after e) := effect ▸ row

/-! ### Memories (R109, R110) -/

theorem memWrite_cons (m : Memory) (off : Nat) (x : Byte) (b : List Byte) :
    memWrite m off (x :: b) = memWrite (put m off x) (off + 1) b := rfl

/-- A byte outside those written reads as before. -/
theorem look_memWrite_outside {m : Memory} {off a : Nat} {b : List Byte} (outside : a < off ∨ off + b.length ≤ a) :
    look (memWrite m off b) a = look m a := by
  induction b generalizing m off with
  | nil => rfl
  | cons x b ih =>
    rw [List.length_cons] at outside
    rw [memWrite_cons, ih (by omega), look_put, if_neg (by omega)]

/-- The bytes written read back. -/
theorem memRead_memWrite (m : Memory) (off : Nat) (b : List Byte) : memRead (memWrite m off b) off b.length = b := by
  induction b generalizing m off with
  | nil => rfl
  | cons x b ih =>
    rw [List.length_cons, memWrite_cons, memRead, ih, look_memWrite_outside (.inl (Nat.lt_succ_self off)), look_put, if_pos rfl]

/-! ### Fuse fields (R79) -/

/-- Bits that are put together make a number of as many bits. -/
theorem foldr_bit_lt (f : Nat → Bool) (l : List Nat) : l.foldr (fun i acc => bit (f i) + 2 * acc) 0 < 2 ^ l.length := by
  induction l with
  | nil => exact Nat.one_pos
  | cons i l ih =>
    have one : bit (f i) ≤ 1 := by cases f i <;> decide
    rw [List.foldr_cons, List.length_cons, Nat.pow_succ]
    omega

theorem Dev.fuseField_lt (d : Dev) (lo n : Nat) : d.fuseField lo n < 2 ^ n :=
  (foldr_bit_lt (fun i => d.fuse (lo + i)) (List.range n)).trans_eq (congrArg (2 ^ ·) List.length_range)

theorem Dev.hostSel_lt (d : Dev) : d.hostSel < 4 := Nat.mod_lt _ (by decide)

/-- The fields of DEV_ID stand side by side in its word (R91). -/
theorem Dev.devId_toNat (d : Dev) :
    d.devId.toNat = 0x1628 + 2 ^ 16 * d.fuseField 64 8 + 2 ^ 24 * d.boot.role.toNat + 2 ^ 26 * d.hostSel := by
  have rev := d.fuseField_lt 64 8
  have role := d.boot.role.isLt
  have sel := d.hostSel_lt
  rw [Dev.devId, BitVec.toNat_ofNat]
  exact Nat.mod_eq_of_lt (by omega)

/-! ### Errors of the data port (R96) -/

theorem Dev.dpError_reserved {d : Dev} (off n : Nat) (ok w : Bool) (space : 6 ≤ d.host.dpSpace.toNat) :
    d.dpError off n ok w = 3 := if_pos space

theorem Dev.dpError_closed {d : Dev} {off n : Nat} (ok w : Bool) (space : d.host.dpSpace.toNat < 6)
    (closed : d.spaceClosed d.host.dpSpace.toNat off n = true) : d.dpError off n ok w = 5 := by
  rw [Dev.dpError, if_neg (Nat.not_le.mpr space), if_pos closed]

theorem Dev.dpError_open {d : Dev} {off n : Nat} (ok w : Bool) (space : d.host.dpSpace.toNat < 6)
    (isOpen : d.spaceClosed d.host.dpSpace.toNat off n = false) :
    d.dpError off n ok w = if ok = false then 4 else if spaceSize d.host.dpSpace.toNat < off + n then 1
      else if w = true ∧ d.spaceWritable d.host.dpSpace.toNat off = false then 2 else 0 := by
  simp only [Dev.dpError, if_neg (Nat.not_le.mpr space), isOpen, Bool.false_eq_true, if_false, Bool.not_eq_true',
    Bool.and_eq_true]

/-! ### Requests of the data port (R109) -/

section
variable {d : Dev} {align n : Nat} {ok : Bool}

theorem Dev.dpRequest_read (fine : d.dpError (d.host.dpOffset.toNat / align * align) n ok false = 0) :
    d.dpRequest align n ok none =
      (d.onHost (fun h => { h with readData := d.spaceRead h.dpSpace.toNat (d.host.dpOffset.toNat / align * align) n })).onHost
        (fun h => { h with dpOffset := BitVec.ofNat 28 (d.host.dpOffset.toNat / align * align + n) }) := by
  simp only [Dev.dpRequest, Option.isSome_none, fine, ne_eq, not_true_eq_false, if_false]

theorem Dev.dpRequest_write {b : List Byte} (fine : d.dpError (d.host.dpOffset.toNat / align * align) n ok true = 0) :
    d.dpRequest align n ok (some b) =
      (d.spaceWrite d.host.dpSpace.toNat (d.host.dpOffset.toNat / align * align) (b.take n)).onHost
        (fun h => { h with dpOffset := BitVec.ofNat 28 (d.host.dpOffset.toNat / align * align + n) }) := by
  simp only [Dev.dpRequest, Option.isSome_some, fine, ne_eq, not_true_eq_false, if_false]

theorem Dev.dpRequest_badRead (error : d.dpError (d.host.dpOffset.toNat / align * align) n ok false ≠ 0) :
    d.dpRequest align n ok none = (d.dpFail (d.dpError (d.host.dpOffset.toNat / align * align) n ok false)).onHost
      (fun h => { h with readData := List.replicate n 0 }) := by
  simp only [Dev.dpRequest, Option.isSome_none, if_pos error, Bool.false_eq_true, if_false]

end

/-- An access of 4 or 8 bytes to DP_DATA is a request, of the right size where DP_CTRL selects it. -/
theorem Dev.dpAccess_request {d : Dev} {a : DpAccess} {n : Nat} (ho : d.hostOpen = true) (width : a.width = 4 ∨ a.width = 8)
    (selected : n = if d.host.dpInc then 8 else 4) :
    d.dpAccess a = d.dpRequest n a.width (decide (a.width = n))
      (a.write.map (fun b => b.take a.width ++ List.replicate (a.width - b.length) 0)) := by
  have sized : ¬ (a.width ≠ 4 ∧ a.width ≠ 8) := by omega
  simp only [Dev.dpAccess, ho, Bool.not_true, Bool.false_eq_true, if_false, if_neg sized, selected]

/-- The size that DP_CTRL selects is one of two. -/
theorem selected_width {x : Bool} {n : Nat} (h : n = if x then 8 else 4) : n = 4 ∨ n = 8 := by
  cases x
  · exact .inl h
  · exact .inr h

/-- A burst over the selected link that carries bytes is a request of its own size. -/
theorem Dev.dpBurst_read {d : Dev} {q : Bool} {n : Nat} (ho : d.hostOpen = true) (link : q = decide (d.hostSel = 1))
    (carries : burstBytes q n ≠ 0) : d.dpBurst (.read q n) = d.dpRequest 4 (burstBytes q n) true none := by
  have live : ¬ ((!d.hostOpen || burstQspi (.read q n) != decide (d.hostSel = 1)) = true) := by
    simp [ho, burstQspi, link]
  simp only [Dev.dpBurst, if_neg live, if_neg carries]

theorem Dev.dpBurst_write {d : Dev} {q : Bool} {b : List Byte} (ho : d.hostOpen = true) (link : q = decide (d.hostSel = 1))
    (carries : burstBytes q b.length ≠ 0) :
    d.dpBurst (.write q b) = d.dpRequest 4 (burstBytes q b.length) true (some b) := by
  have live : ¬ ((!d.hostOpen || burstQspi (.write q b) != decide (d.hostSel = 1)) = true) := by
    simp [ho, burstQspi, link]
  simp only [Dev.dpBurst, if_neg live, if_neg carries]

theorem exec_dpDataAccess (t : Nat) (a : DpAccess) (s : State) :
    exec (.dpDataAccess t a) s = .next (s.after ((s.dev.advance t).dpAccess a)) := rfl

theorem exec_dpBurstAccess (t : Nat) (a : DpBurst) (s : State) :
    exec (.dpBurstAccess t a) s = .next (s.after ((s.dev.advance t).dpBurst a)) := rfl

/-! ### Mailbox slots, the time latch and PERST_N (R88, R94, R95, R99) -/

section
variable {d : Dev} (ho : d.hostOpen = true)
include ho

theorem Dev.slotWrite_owned {slot : Nat} (o : Nat) (b : List Byte) (owned : (look d.host.slots slot).owned = true) :
    d.slotWrite slot o b = d.irq 5 := by
  simp only [Dev.slotWrite, ho, owned, Bool.not_true, Bool.false_eq_true, if_false, if_true]

theorem Dev.slotWrite_free {slot : Nat} (o : Nat) (b : List Byte) (free : (look d.host.slots slot).owned = false) :
    d.slotWrite slot o b = d.onHost (fun h => { h with slots := upd h.slots slot (fun s =>
      let old := s.inb ++ List.replicate (0x400 - s.inb.length) 0
      { s with inb := (old.take o ++ b ++ old.drop (o + b.length)).take 0x400 }) }) := by
  simp only [Dev.slotWrite, ho, free, Bool.not_true, Bool.false_eq_true, if_false]

theorem Dev.outRelease_open (w : BitVec 32) : d.outRelease w = d.onHost (fun h => { h with
    slots := (List.range 8).foldl (fun t i =>
      upd t i (fun s => if w.getLsbD i ∧ s.ready then { s with ready := false, owned := false } else s)) h.slots }) := by
  simp only [Dev.outRelease, ho, Bool.not_true, Bool.false_eq_true, if_false]

theorem Dev.latchCt_open (t : Nat) : d.latchCt t = (d.draw 1).onHost (fun h => { h with
    ctLatch := BitVec.ofNat 64 (t - Config.freeNat d.fresh % 41)
    readData := wordBytes (BitVec.ofNat 64 (t - Config.freeNat d.fresh % 41)) }) := by
  simp only [Dev.latchCt, ho, Bool.not_true, Bool.false_eq_true, if_false]

end

/-- While the interface is closed, no access of the host has an effect (R74, R87). -/
theorem Dev.access_closed {d : Dev} (closed : d.hostOpen = false) (t slot o : Nat) (b : List Byte) (w : BitVec 32) :
    d.slotWrite slot o b = d ∧ d.outRelease w = d ∧ d.latchCt t = d ∧ (if d.hostOpen then d.writeDpCtrl w else d) = d
      ∧ d.irqClear w = d ∧ d.irqEnable w = d ∧ d.msiEnable = d ∧ d.healthClear w = d := by
  simp [Dev.slotWrite, Dev.outRelease, Dev.latchCt, Dev.irqClear, Dev.irqEnable, Dev.msiEnable, Dev.healthClear, closed]

/-! ### Writes to the registers (R89, R90) -/

/-- An aligned word written while the interface is open: each register takes it as its own rule says. -/
theorem Dev.writeReg_aligned {d : Dev} {o : Nat} (t : Nat) (w : BitVec 32) (ho : d.hostOpen = true) (aligned : o % 4 = 0) :
    d.writeReg t o w =
      if o = 0x08 then d.healthClear w
      else if o = 0x20 then d.ring t w
      else if o = 0x24 then d.outRelease w
      else if o = 0x30 then d.onHost (fun h => { h with dpOffset := w.setWidth 28, dpSpace := (w >>> 28).setWidth 4 })
      else if o = 0x34 then d.writeDpCtrl w
      else if o = 0x38 then d.dpAccess { width := 4, write := some (wordBytes w) }
      else if o = 0x40 then d.irqEnable w
      else if o = 0x44 then d.irqClear w
      else if 0x8000 ≤ o ∧ o < 0x9000 then d.dpBurst (.write (decide (d.hostSel = 1)) (wordBytes w))
      else if 0x10000 ≤ o ∧ o < 0x12000 then d.slotWrite (o / 0x400 % 8) (o % 0x400) (wordBytes w)
      else d := by
  have taken : ¬ ((!d.hostOpen) = true ∨ o % 4 ≠ 0) := by simp [ho, aligned]
  rw [Dev.writeReg, if_neg taken]

theorem Dev.writeReg_unaligned (d : Dev) {o : Nat} (t : Nat) (w : BitVec 32) (unaligned : o % 4 ≠ 0) :
    d.writeReg t o w = d := if_pos (.inr unaligned)

/-- Outside the burst aperture the words of a transaction are written one after another. -/
theorem Dev.writeWords_registers (d : Dev) {o : Nat} (t : Nat) (w : BitVec 32) (more : List (BitVec 32))
    (outside : o % 4 ≠ 0 ∨ o < 0x8000 ∨ 0x9000 ≤ o) : d.writeWords t o w more = d.writeFrom t o (w :: more) :=
  if_neg (by omega)

/-- In it they are one request. -/
theorem Dev.writeWords_burst {d : Dev} {o : Nat} (t : Nat) (w : BitVec 32) (more : List (BitVec 32)) (ho : d.hostOpen = true)
    (aligned : o % 4 = 0) (inside : 0x8000 ≤ o ∧ o < 0x9000) :
    d.writeWords t o w more = d.dpBurst (.write (decide (d.hostSel = 1)) ((w :: more).flatMap wordBytes)) :=
  if_pos ⟨ho, aligned, inside⟩

theorem exec_registerWrite (t : Nat) (o w : BitVec 32) (more : List (BitVec 32)) (s : State) :
    exec (.registerWrite t o { word := w, more := more }) s = .next (s.after ((s.dev.advance t).writeWords t o.toNat w more)) :=
  rfl

/-- One word written at an aligned offset below the aperture has the effect of the register there. -/
theorem exec_registerWrite_low {t : Nat} {o w : BitVec 32} {s : State} {e : Dev} (low : o.toNat < 0x8000)
    (effect : (s.dev.advance t).writeReg t o.toNat w = e) :
    exec (.registerWrite t o { word := w }) s = .next (s.after e) :=
  exec_eq_after (exec_registerWrite ..) ((Dev.writeWords_registers _ t w [] (.inr (.inl low))).trans effect)

/-- Two words from DP_DATA on are one access of 8 bytes (R90). -/
theorem Dev.writeFrom_dpData {d : Dev} (t : Nat) (w x : BitVec 32) (ho : d.hostOpen = true) :
    d.writeFrom t 0x38 [w, x] = d.dpAccess { width := 8, write := some (wordBytes w ++ wordBytes x) } := by
  simp only [Dev.writeFrom, ho, if_true]

/-- Elsewhere the second word goes to the next address. -/
theorem Dev.writeFrom_two (d : Dev) {o : Nat} (t : Nat) (w x : BitVec 32) (h : o ≠ 0x38) :
    d.writeFrom t o [w, x] = (d.writeReg t o w).writeReg t ((d.writeReg t o w).nextOffset o) x := by
  simp only [Dev.writeFrom, if_neg h]

/-! ### The obligations -/

/-- Settles O50, by induction on the bytes written. -/
theorem memoryReadsBackWhatWasWritten : Obligations.MemoryReadsBackWhatWasWritten :=
  ⟨memRead_memWrite, fun _ _ _ _ => look_memWrite_outside⟩

/-- Settles O58: no field of DEV_ID reaches into the next. -/
theorem deviceIdentityShowsItsFields : Obligations.DeviceIdentityShowsItsFields := by
  intro d
  have rev := d.fuseField_lt 64 8
  have role := d.boot.role.isLt
  have sel := d.hostSel_lt
  rw [d.devId_toNat]
  omega

/-- Settles O51: the order of the branches of `dpError`, and the two of `dpFail`. -/
theorem dataPortErrorsAreTheFirstInOrder : Obligations.DataPortErrorsAreTheFirstInOrder :=
  ⟨fun _ => Dev.dpError_reserved, fun _ _ _ => Dev.dpError_closed, fun _ _ _ => Dev.dpError_open,
    fun _ _ fresh => if_pos fresh, fun _ _ kept => if_neg kept⟩

/-- Settles O17: an access is a request, which moves its bytes or fails. -/
theorem dataPortAccessesMoveTheirBytes : Obligations.DataPortAccessesMoveTheirBytes := by
  refine ⟨fun t a s ho read width fine => ?_, fun t a b s ho write full width fine => ?_,
    fun t a n s ho read width selected error => ?_, fun t q n s ho link carries fine => ?_,
    fun t q b s ho link carries fine => ?_⟩
  -- DP_DATA_ACCESS: a read, a write, and a read that fails
  · rw [exec_dpDataAccess, Dev.dpAccess_request ho (selected_width width) width, read, decide_eq_true rfl, Option.map_none,
      Dev.dpRequest_read fine]
  · have whole : b.take a.width ++ List.replicate (a.width - b.length) 0 = b := by simp [full]
    rw [exec_dpDataAccess, Dev.dpAccess_request ho (selected_width width) width, write, decide_eq_true rfl, Option.map_some,
      whole, Dev.dpRequest_write fine, List.take_of_length_le full.le]
  · rw [exec_dpDataAccess, Dev.dpAccess_request ho width selected, read, Option.map_none, Dev.dpRequest_badRead error]
  -- DP_BURST_ACCESS: a read and a write
  · rw [exec_dpBurstAccess, Dev.dpBurst_read ho link carries, Dev.dpRequest_read fine]
  · rw [exec_dpBurstAccess, Dev.dpBurst_write ho link carries, Dev.dpRequest_write fine]

/-- Settles O16, row by row: the clauses of a row are the branches of its effect. -/
theorem hostRegisterAccessesTakeEffect : Obligations.HostRegisterAccessesTakeEffect := by
  refine ⟨fun t slot o b s ho owned => exec_eq_after rfl (Dev.slotWrite_owned ho o b owned),
    fun t slot o b s ho free => exec_eq_after rfl (Dev.slotWrite_free ho o b free),
    fun t w s ho => exec_eq_after rfl (Dev.outRelease_open ho w), fun t s ho => exec_eq_after rfl (Dev.latchCt_open ho t),
    fun t w s ho => exec_eq_after rfl (if_pos ho), fun t w s ho => exec_eq_after rfl (if_pos ho),
    fun t w s ho => exec_eq_after rfl (if_pos ho), fun t s ho pcie => exec_eq_after rfl (if_pos ⟨ho, pcie⟩),
    fun t w s ho => exec_eq_after rfl (if_pos ho), fun t w slot o b s closed => ?_,
    fun t s pcie => exec_eq_after rfl (if_pos pcie), fun t s other => exec_eq_after rfl (if_neg other),
    ?_, ?_, ?_, ?_, ?_, ?_, ?_, ?_, fun t o w s ho unaligned => ?_, ?_,
    fun t o w x s ho aligned => ⟨fun inside => ?_, fun data => ?_, fun outside => ?_⟩⟩
  -- closed
  · obtain ⟨h1, h2, h3, h4, h5, h6, h7, h8⟩ := Dev.access_closed closed t slot.val o b w
    exact ⟨exec_eq_after rfl h1, exec_eq_after rfl h2, exec_eq_after rfl h3, exec_eq_after rfl h4, exec_eq_after rfl h5,
      exec_eq_after rfl h6, exec_eq_after rfl h7, exec_eq_after rfl h8⟩
  -- REGISTER_WRITE at a register
  iterate 8
    rintro t _ w s d ho rfl
    exact exec_registerWrite_low (by decide) (Dev.writeReg_aligned t w ho (by decide))
  -- at an unaligned offset, and at the read-only one
  · refine exec_eq_after (exec_registerWrite ..) ?_
    rw [Dev.writeWords_registers _ t w [] (.inl unaligned)]
    exact Dev.writeReg_unaligned _ t w unaligned
  · rintro t _ w s d ho rfl
    exact exec_registerWrite_low (by decide) (Dev.writeReg_aligned t w ho (by decide))
  -- two words: in the aperture, at DP_DATA, and elsewhere
  · refine exec_eq_after (exec_registerWrite ..) ((Dev.writeWords_burst t w [x] ho aligned inside).trans ?_)
    simp only [List.flatMap_cons, List.flatMap_nil, List.append_nil]
  · refine exec_eq_after (exec_registerWrite ..) ?_
    rw [Dev.writeWords_registers _ t w [x] (.inr (.inl (by omega))), data]
    exact Dev.writeFrom_dpData t w x ho
  · refine exec_eq_after (exec_registerWrite ..) ?_
    rw [Dev.writeWords_registers _ t w [x] (.inr outside.1)]
    exact Dev.writeFrom_two _ t w x outside.2

end Sys2Proof.Machine
end

section
/-! SUPPORT. Proofs about the host interface and what reports to it: the reads that clear what they report, the ends of self-tests
and identifications, retunes, the host watchdog and the journal. -/

namespace Sys2Proof.Machine

/-! ### The lengths of replies (R114, R453) -/

theorem Notice.bytes_length (n : Notice) : n.bytes.length = 16 := by simp [Notice.bytes]

theorem Dev.cellBytes_length (d : Dev) (c : Nat) : (d.cellBytes c).length = 12 := by simp [Dev.cellBytes]

/-! ### The rows -/

theorem exec_selftestDone (t : Nat) (r : SelftestRun) (s : State) :
    exec (.selftestDone t r) s = .next (s.after ((s.dev.advance t).selftestDone t r)) := rfl

theorem exec_identResult (t : Nat) (j : Fin 128) (s : State) :
    exec (.identResult t j) s = .next (s.after ((s.dev.advance t).identResult t j.val)) := rfl

theorem exec_retune (t : Nat) (j : Fin 128) (s : State) :
    exec (.retune t j) s = .next (s.after ((s.dev.advance t).retune t j.val)) := rfl

theorem exec_hostWatchdog (t : Nat) (s : State) :
    exec (.hostWatchdog t) s = .next (s.after ((s.dev.advance t).hostWatchdog t)) := rfl

theorem exec_journalWrite (t : Nat) (s : State) :
    exec (.journalWrite t) s = .next (s.after ((s.dev.advance t).journalDrain t)) := rfl

/-! ### Identifications (R206, R207) -/

/-- What an identification reports before any fit is judged: J′, b′ and r, and no record. -/
def Injection.report (i : Injection) (f : Rat × Rat × Rat) : Injection :=
  { i with
    j := BitVec.ofInt 32 (Config.rounds 8 (f.1 * 2 ^ 10)), b := BitVec.ofInt 32 (Config.rounds 8 (f.2.1 * 2 ^ 10))
    r := BitVec.ofInt 16 (clampInt 0 65535 (Config.rounds 8 (f.2.2 * 2 ^ 15))), record := [], clamp := 0, idStat := 0xA }

/-- The end of an identification: its injection reports, its record waits as a proposal, and a notice says so. -/
def Dev.endIdent (d : Dev) (t j : Nat) (x : Ident) (done : Injection) : Dev :=
  (d.onTuning (fun u => { u with
    inj := put u.inj j done, ids := put u.ids j none, busy := put u.busy j 0
    props := put u.props j (if done.record.isEmpty then none else some { id := x.p.id, record := done.record }) })).notice
    5 0 t 0x0404 (injArg j x.p.id) false

theorem Dev.identResult_unbounded {d : Dev} {j : Nat} {x : Ident} (t : Nat) (hx : look d.tuning.ids j = some x)
    (hb : look d.tuning.bounds j = none) :
    d.identResult t j = d.endIdent t j x ((look d.tuning.inj j).report (fitPlant (x.responses d.time.tc))) := by
  simp only [Dev.identResult, hx, hb]
  rfl

/-- With bounds, a fit within them proposes its gains in the smallest format that holds them, or says that none does. -/
theorem Dev.identResult_bounded {d : Dev} {j : Nat} {x : Ident} {p : SetRetuneBounds} {f : Rat × Rat × Rat} {base : Injection}
    (t : Nat) (hx : look d.tuning.ids j = some x) (hb : look d.tuning.bounds j = some p)
    (hf : fitPlant (x.responses d.time.tc) = f) (hbase : (look d.tuning.inj j).report f = base) :
    d.identResult t j = d.endIdent t j x
      (if x.lost = false ∧ 0 < f.1 ∧ 0 ≤ f.2.1 ∧ f.2.2 ≤ ofWord 15 p.rMax.toNat then
        match smallestF (proposal f.1 f.2.1 p d.time.tc).1 17 0 with
        | some (e, m) => { base with
            idStat := 0, record := withGains (d.loop.active j).bytes e m
            clamp := BitVec.ofNat 8 (proposal f.1 f.2.1 p d.time.tc).2 }
        | none => { base with idStat := 6, clamp := BitVec.ofNat 8 (proposal f.1 f.2.1 p d.time.tc).2 }
      else base) := by
  subst hbase
  obtain ⟨jj, bb, r⟩ := f
  have fits : (!x.lost && decide (0 < jj) && decide (0 ≤ bb) && decide (r ≤ ofWord 15 p.rMax.toNat)) = true
      ↔ x.lost = false ∧ 0 < jj ∧ 0 ≤ bb ∧ r ≤ ofWord 15 p.rMax.toNat := by
    simp only [Bool.and_eq_true, Bool.not_eq_true', decide_eq_true_eq, and_assoc]
  simp only [Dev.identResult, hx, hb, hf, fits]
  rfl

/-! ### Retunes (R208) -/

/-- A retune whose conditions hold: at AUTONOMOUS in TUNE, with bounds, and with no injection on the slot. -/
def Dev.mayRetune (d : Dev) (j : Nat) : Prop :=
  d.time.policyForce = .autonomous ∧ (look d.tuning.bounds j).isSome ∧ d.power.mode = .tune
    ∧ (look d.tuning.inj j).phase ≠ .pending ∧ (look d.tuning.inj j).phase ≠ .running

theorem Dev.retune_none {d : Dev} {j : Nat} (t : Nat) (hg : look d.tuning.props j = none) : d.retune t j = d := by
  simp only [Dev.retune, hg]

section
variable {d : Dev} {j : Nat} {g : Proposal} (t : Nat) (hg : look d.tuning.props j = some g)
include hg

/-- While the slot carries an injection, its proposal goes on waiting. -/
theorem Dev.retune_injected (h : (look d.tuning.inj j).phase = .pending ∨ (look d.tuning.inj j).phase = .running) :
    d.retune t j = d := by
  simp only [Dev.retune, hg]
  exact if_pos (.inr (.inr (.inr h)))

variable (may : d.mayRetune j)
include may

/-- Where a retune may be made, it is skipped where the banks differ, deferred or skipped where a swap is in progress, and else
made. -/
theorem Dev.retune_due : d.retune t j =
    if d.loop.sameBanks = false then d.skipRetune t j g.id
    else if d.loop.swap.isSome then
      if 79 ≤ look d.tuning.busy j then d.skipRetune t j g.id
      else d.onTuning (fun u => { u with busy := put u.busy j (look d.tuning.busy j + 1) })
    else (d.onLoop (fun l => { l.copy.load j { bytes := g.record, stamp := some t } with
        swap := some (d.effectAt t, true) })).onTuning (fun u => { u with
          busy := put u.busy j 0, props := put u.props j none
          retune := some (j, g.id, (d.loop.active j).bytes, g.record) }) := by
  obtain ⟨policy, bounds, mode, idle, still⟩ := may
  have goes : ¬ (d.time.policyForce ≠ .autonomous ∨ (look d.tuning.bounds j).isNone ∨ d.power.mode ≠ .tune
      ∨ (look d.tuning.inj j).phase = .pending ∨ (look d.tuning.inj j).phase = .running) := by
    simp [policy, mode, idle, still, Option.isSome_iff_ne_none.mp bounds]
  simp only [Dev.retune, hg, if_neg goes, Bool.not_eq_true', Nat.reduceLeDiff]

end

/-! ### The host watchdog (R106) -/

/-- The host watchdog past its deadline: it stops, sets IRQ 6 and reports its action. -/
def Dev.watchdogReport (d : Dev) (t : Nat) : Dev :=
  ((d.onHost (fun x => { x with wd := { x.wd with deadline := none } })).irq 6).notice 1 0 t 0x0104
    (d.host.wd.action.setWidth 32) true

/-- Every configured arm that waits for no other stop is to stop at a boundary. -/
def Dev.stopArmsAt (d : Dev) (e t : Nat) : Dev :=
  d.mapArms (fun _ a => match a.stopNext with
    | some _ => a
    | none => { a with stopNext := some (e, 2, t) })

theorem Dev.hostWatchdog_off {d : Dev} (t : Nat) (off : d.host.wd.deadline = none) : d.hostWatchdog t = d := by
  simp only [Dev.hostWatchdog, off]

section
variable {d : Dev} {t dl : Nat} (running : d.host.wd.deadline = some dl)
include running

theorem Dev.hostWatchdog_early (early : t ≤ dl ∨ d.power.mode = .dormant) : d.hostWatchdog t = d := by
  have notDue : ¬ (dl < t ∧ d.power.mode ≠ .dormant) := by
    rintro ⟨late, awake⟩
    exact early.elim (Nat.not_le.mpr late) awake
  simp only [Dev.hostWatchdog, running, if_neg notDue]

/-- Past its deadline it reports, and with action 1 stops every arm in RUN and HOLD. -/
theorem Dev.hostWatchdog_late (late : dl < t) (awake : d.power.mode ≠ .dormant) : d.hostWatchdog t =
    if d.host.wd.action = 1 ∧ (d.power.mode = .run ∨ d.power.mode = .hold) then
      (d.watchdogReport t).stopArmsAt (d.effectAt t) t
    else d.watchdogReport t := by
  simp only [Dev.hostWatchdog, running, if_pos (⟨late, awake⟩ : _ ∧ _)]
  rfl

end

/-! ### The journal (R507) -/

theorem Dev.journalDrain_empty {d : Dev} (t : Nat) (empty : d.faults.journal.queue = []) : d.journalDrain t = d := by
  simp only [Dev.journalDrain, empty]

section
variable {d : Dev} {t : Nat} {r : JRec} {q : List JRec} (queued : d.faults.journal.queue = r :: q)
include queued

/-- The ring has not had its 20 µs for every unit of the last record. -/
theorem Dev.journalDrain_busy (busy : t < d.faults.journal.freeAt) : d.journalDrain t = d := by
  simp only [Dev.journalDrain, queued, if_pos busy]

/-- The oldest record is written, and with none lost nothing is reported. -/
theorem Dev.journalDrain_writes {j : Journal} (free : d.faults.journal.freeAt ≤ t) (noneLost : d.faults.journal.lostNow = 0)
    (hj : j = { d.faults.journal with queue := q }.write r) : d.journalDrain t = { d with faults := { d.faults with
      journal := { j with freeAt := t + (j.written - d.faults.journal.written) * 20480 } } } := by
  subst hj
  simp only [Dev.journalDrain, queued, if_neg (Nat.not_lt.mpr free), noneLost, ne_eq, not_true_eq_false, false_and, if_false]

end

/-! ### The obligations -/

/-- Settles O4: each is a served command whose effect answers OK with data of the length of its table. -/
theorem readsThatClearClearWhatTheyReport : Obligations.ReadsThatClearClearWhatTheyReport := by
  refine ⟨fun h p s hS hA => ⟨_, ?_, act_served_ok hS hA rfl rfl rfl rfl rfl⟩, fun h p s hS hA hp => ?_,
    fun h p s hS hA hp => ?_, fun h p s hS hA hp => ?_,
    fun h p s hS hA => ⟨_, ?_, act_served_ok hS hA rfl rfl rfl rfl rfl⟩, fun h p s hS hA hp => ?_, fun h p s hS hA hp => ?_,
    fun h p s hS hA => ⟨_, ?_, act_served_ok hS hA rfl rfl rfl rfl rfl⟩,
    fun h s hS hA => ⟨_, ?_, act_served_ok hS hA rfl rfl rfl rfl rfl⟩,
    fun h s hS hA => ⟨_, ?_, act_served_ok hS hA rfl rfl rfl rfl rfl⟩⟩
  -- GET_NOTICES
  · simp [flatMap_length _ Notice.bytes 16 fun n _ => n.bytes_length]
    omega
  -- GET_SLOT_STATE of a joint, an arm and a current slot
  · exact act_served_ok hS hA rfl rfl rfl rfl (if_pos hp)
  · exact act_served_ok hS hA rfl rfl rfl rfl (by simp [semGetSlotState, hp])
  · exact act_served_ok hS hA rfl rfl rfl rfl (by simp [semGetSlotState, hp])
  -- GET_RATE_STATE
  · simp
  -- GET_BUS_STATS with clear 1 and 0
  · exact act_served_ok hS hA rfl rfl rfl rfl (by simp only [semGetBusStats, if_pos hp])
  · exact act_served_ok hS hA rfl rfl rfl rfl (by simp [semGetBusStats, hp])
  -- GET_CONN_STATE, GET_SET_CHECK, GET_HIERARCHY_STATE
  · simp [flatMap_length _ wordBytes 4 fun (v : BitVec 32) _ => wordBytes_length v]
    omega
  · simp
  · exact flatMap_length _ _ 12 fun c _ => Dev.cellBytes_length _ c

/-- Settles O35, row by row: the clauses of a row are the branches of its effect. -/
theorem hostTuningAndJournalEventsTakeEffect : Obligations.HostTuningAndJournalEventsTakeEffect := by
  refine ⟨fun t r x s hx => ?_, fun t r s hx => ?_, fun t j s hx => ?_, fun t j x s hx hb => ?_, fun t j p x s hx hb => ?_,
    fun t j p g s hp hb hm hg hi same swap => ?_, fun t j p g s hp hb hm hg hi differ => ?_,
    fun t j p g s hp hb hm hg hi same swap less => ?_, fun t j p g s hp hb hm hg hi same swap often => ?_,
    fun t j s hg => ?_, fun t j g s hg hi => ?_, fun t dl s running late awake act => ?_, fun t dl s running late mode act => ?_,
    fun t dl s running late awake mode => ?_, fun t dl s running early => ?_, fun t s off => ?_, fun t s empty => ?_,
    fun t r q s queued busy => ?_, fun t r q j s queued free noneLost hj => ?_⟩
  -- SELFTEST_DONE
  · simp only [exec_selftestDone, Dev.selftestDone, hx]
  · simp only [exec_selftestDone, Dev.selftestDone, hx]
  -- IDENT_RESULT
  · simp only [exec_identResult, Dev.identResult, hx]
  · rw [exec_identResult, Dev.identResult_unbounded t hx hb]
    rfl
  · rw [exec_identResult, Dev.identResult_bounded t hx hb rfl rfl]
    rfl
  -- RETUNE: made, skipped, deferred, skipped after 80 busy periods, with nothing to do, and waiting for an injection
  · rw [exec_retune, Dev.retune_due t hg ⟨hp, hb ▸ rfl, hm, hi⟩, same, swap]
    rfl
  · rw [exec_retune, Dev.retune_due t hg ⟨hp, hb ▸ rfl, hm, hi⟩, if_pos differ]
    rfl
  · rw [exec_retune, Dev.retune_due t hg ⟨hp, hb ▸ rfl, hm, hi⟩, same, if_pos swap, if_neg (Nat.not_le.mpr less)]
    rfl
  · rw [exec_retune, Dev.retune_due t hg ⟨hp, hb ▸ rfl, hm, hi⟩, same, if_pos swap, if_pos often]
    rfl
  · rw [exec_retune, Dev.retune_none t hg]
  · rw [exec_retune, Dev.retune_injected t hg hi]
  -- HOST_WATCHDOG: action 0, action 1 in RUN and HOLD, in another mode, before the deadline, and off
  · have noStop : (s.dev.advance t).host.wd.action ≠ 1 := act.trans_ne (by decide)
    rw [exec_hostWatchdog, Dev.hostWatchdog_late running late awake, if_neg fun h => noStop h.1, Dev.watchdogReport, act]
    rfl
  · have awake : (s.dev.advance t).power.mode ≠ .dormant := by rcases mode with h | h <;> exact h.trans_ne (by decide)
    rw [exec_hostWatchdog, Dev.hostWatchdog_late running late awake, if_pos ⟨act, mode⟩, Dev.watchdogReport, act]
    rfl
  · rw [exec_hostWatchdog, Dev.hostWatchdog_late running late awake, if_neg fun h => h.2.elim mode.1 mode.2]
    rfl
  · rw [exec_hostWatchdog, Dev.hostWatchdog_early running early]
  · rw [exec_hostWatchdog, Dev.hostWatchdog_off t off]
  -- JOURNAL_WRITE
  · rw [exec_journalWrite, Dev.journalDrain_empty t empty]
  · rw [exec_journalWrite, Dev.journalDrain_busy queued busy]
  · rw [exec_journalWrite, Dev.journalDrain_writes queued free noneLost hj]

end Sys2Proof.Machine
end

section
/-! SUPPORT. Proofs about the arms, the loop slots and the solver array: the reads of the engines, the ends of solver runs and the
limits of misses, and what the commands of these units change at their boundary. -/

namespace Sys2Proof.Machine

/-! ### The rows -/

theorem exec_problemRunEnd (t : Nat) (lane : Fin 36) (mism : List Nat) (s : State) :
    exec (.problemRunEnd t lane mism) s = .next (s.after (((s.dev.advance t).cancelsBefore t).runEnd t lane.val mism)) := rfl

theorem exec_problemDeadline (t : Nat) (id : Fin 256) (pos : RunPos) (s : State) :
    exec (.problemDeadline t id pos) s = .next (s.after (((s.dev.advance t).cancelsBefore t).problemDeadline t id.val pos)) := rfl

theorem exec_laneTest (t : Nat) (lane : Fin 36) (pass : Bool) (s : State) :
    exec (.laneTest t lane pass) s = .next (s.after ((s.dev.advance t).laneTest t lane.val pass)) := rfl

theorem exec_ikMissLimit (t : Nat) (arm : Fin 16) (s : State) :
    exec (.ikMissLimit t arm) s = .next (s.after ((s.dev.advance t).ikMissLimit arm.val)) := rfl

theorem exec_feedbackMissLimit (t : Nat) (slot : Fin 128) (s : State) :
    exec (.feedbackMissLimit t slot) s = .next (s.after ((s.dev.advance t).missLimit t slot.val)) := rfl

/-! ### The state of a kernel slot (R332) -/

/-- GET_KERNEL_STATE answers 20 bytes, whether or not the slot is configured. -/
theorem semGetKernelState_eff (h : Hdr) (p : GetKernelState) (d : Dev) :
    ∃ data : List Byte, data.length = 20 ∧ (semGetKernelState h p).eff d = (d, some (.ok, data)) := by
  simp only [semGetKernelState]
  cases (look d.sig.kernels p.slot.toNat).cfg with
  | none => exact ⟨_, by simp, rfl⟩
  | some c => exact ⟨_, by simp, rfl⟩

/-! ### The end of a run in time (R230, R232, R234) -/

section
variable {d : Dev} {t lane id : Nat} {p : Problem} {r : SolverRun} {mism : List Nat}
  (running : (look d.solver.lanes lane).running = some id) (defined : look d.solver.problems id = some p)
  (run : p.run = some r) (inTime : t ≤ r.dl)
include running defined run inTime

/-- With at most one mismatch it writes the outcome of its plan. -/
theorem Dev.runEnd_planned (few : mism.length < 2) : d.runEnd t lane mism =
    ((d.laneMismatches lane mism).draw 5).runOver t id lane { (d.runPlan t id p r).out with rerun := !mism.isEmpty }
      (d.runPlan t id p r) true := by
  simp only [Dev.runEnd, running, defined, run, if_neg (Nat.not_lt.mpr inTime), if_neg (Nat.not_le.mpr few),
    List.take_of_length_le few.le]

/-- From the second mismatch on it ends with CHECK. -/
theorem Dev.runEnd_checked (twice : 2 ≤ mism.length) : d.runEnd t lane mism =
    ((d.laneMismatches lane (mism.take 2)).draw 5).runOver t id lane (d.checkOut (d.runPlan t id p r)) (d.runPlan t id p r)
      (decide (0 < (d.checkOut (d.runPlan t id p r)).iters) || Config.freeBool (d.fresh + 4)) := by
  simp only [Dev.runEnd, running, defined, run, if_neg (Nat.not_lt.mpr inTime), if_pos twice]

end

/-! ### The obligations -/

/-- Settles O2: each is a served command whose effect answers OK with data of the length of its table. -/
theorem engineReadsAnswerAndChangeNothing : Obligations.EngineReadsAnswerAndChangeNothing := by
  refine ⟨fun h p s hS hA => ⟨_, ?_, act_served_ok hS hA rfl rfl rfl rfl rfl⟩, fun h p s q hq hS hA => ?_,
    fun h p s q hq hS hA => ?_, fun h p s hS hA => ⟨_, ?_, act_served_ok hS hA rfl rfl rfl rfl rfl⟩,
    fun h p s hS hA => ⟨_, ?_, act_served_ok hS hA rfl rfl rfl rfl rfl⟩,
    fun h p s hS hA => ⟨_, ?_, act_served_ok hS hA rfl rfl rfl rfl rfl⟩,
    fun h p s hS hA => act_served_ok hS hA rfl rfl rfl rfl rfl,
    fun h p s hS hA => ⟨_, ?_, act_served_ok hS hA rfl rfl rfl rfl rfl⟩,
    fun h p s hS hA => ⟨_, ?_, act_served_ok hS hA rfl rfl rfl rfl rfl⟩, fun h p s hS hA => ?_,
    fun h s hS hA => ⟨_, ?_, act_served_ok hS hA rfl rfl rfl rfl rfl⟩,
    fun h p s hS hA => ⟨_, ?_, act_served_ok hS hA rfl rfl rfl rfl rfl⟩⟩
  -- GET_ARM_STATE
  · simp
  -- GET_PROBLEM_RESULT, GET_PROBLEM_DESCRIPTOR
  · exact act_served_ok hS hA rfl rfl rfl rfl (by simp only [semGetProblemResult, Dev.take_solver, hq])
  · exact act_served_ok hS hA rfl rfl rfl rfl (by simp only [semGetProblemDescriptor, Dev.take_solver, hq])
  -- GET_LANE_STATE, GET_PAN_STATE, GET_PAIR_RESULT
  · simp
  · simp
  · simp
  -- GET_INJECTION_STATE, whose record is filled up to 216 bytes
  · simp
    omega
  -- GET_CORE_STATE, GET_KERNEL_STATE
  · simp
  · obtain ⟨data, len, eff⟩ := semGetKernelState_eff h p (s.dev.take h)
    exact ⟨data, len, act_served_ok hS hA rfl rfl rfl rfl eff⟩
  -- GET_DISPATCH_STATE, GET_EVENT_ENTRY
  · simp
  · simp

/-- Settles O22, row by row: the clauses of a row are the branches of its effect. -/
theorem solverRunsEnd : Obligations.SolverRunsEnd := by
  refine ⟨fun t lane id p r s running defined run inTime => ?_, fun t lane id p r x s running defined run inTime => ?_,
    fun t lane id p r x y s running defined run inTime => ?_, fun t lane l s idle => ?_,
    fun t id pos p r lane s defined run late on => ?_, fun t id pos p x s defined run due => ?_,
    fun t id pos s undefined => ?_, fun t lane s => ?_, fun t lane s idle on kept unit awake up => ?_,
    fun t arm s misses going noStop mode => ?_, fun t arm s misses => ?_,
    fun t slot c s configured misses limited unlatched => ?_⟩
  -- PROBLEM_RUN_END: without a mismatch, with one, with two, and on an idle lane
  · rw [exec_problemRunEnd, Dev.runEnd_planned running defined run inTime (by simp)]
    rfl
  · rw [exec_problemRunEnd, Dev.runEnd_planned running defined run inTime (by simp)]
    rfl
  · rw [exec_problemRunEnd, Dev.runEnd_checked running defined run inTime (by simp)]
    rfl
  · simp only [exec_problemRunEnd, Dev.runEnd, idle]
  -- PROBLEM_DEADLINE: of a run, of a task not started, and of no problem
  · simp only [exec_problemDeadline, Dev.problemDeadline, defined, run, if_neg (Nat.not_le.mpr late), on]
  · simp only [exec_problemDeadline, Dev.problemDeadline, defined, run, due]
  · simp only [exec_problemDeadline, Dev.problemDeadline, undefined]
  -- LANE_TEST: passed, and failed on an idle lane
  · simp only [exec_laneTest, Dev.laneTest, true_or, if_true]
  · simp [exec_laneTest, Dev.laneTest, -Dev.advance_solver, -Dev.advance_power, idle, on, kept, unit, awake, up]
  -- IK_MISS_LIMIT: reached, and not reached
  · have noStop : (!(look (s.dev.advance t).arms arm.val).jstop) = true := by rw [noStop, Bool.not_false]
    simp only [exec_ikMissLimit, Dev.ikMissLimit, if_pos (⟨misses, going, noStop, mode⟩ : _ ∧ _ ∧ _ ∧ _)]
  · simp only [exec_ikMissLimit, Dev.ikMissLimit, if_neg fun reached : _ ∧ _ => Nat.not_le.mpr misses reached.1]
  -- FEEDBACK_MISS_LIMIT
  · simp only [exec_feedbackMissLimit, Dev.missLimit, configured, if_pos (⟨misses, limited⟩ : _ ∧ _), unlatched,
      Bool.false_eq_true, if_false]

/-- Settles O53: each clause is the row's arm of `applyWaiting`, in the branch of its condition. -/
theorem armLoopAndSolverChangesApply : Obligations.ArmLoopAndSolverChangesApply := by
  refine ⟨fun d b e st blk h p empty => if_pos empty, fun d b e st blk h p joints => if_neg joints, fun _ _ _ _ _ _ _ => rfl,
    fun _ _ _ _ _ _ _ => rfl, fun _ _ _ _ _ _ _ => rfl, fun _ _ _ _ _ _ _ => rfl, fun _ _ _ _ _ _ _ => rfl,
    fun _ _ _ _ _ _ _ => rfl, fun _ _ _ _ _ _ _ => rfl, fun d b e st blk h p auto => ?_,
    fun d b e st blk h p mode notEnded => ?_, fun d b e st blk h p ended => if_pos ended, fun _ _ _ _ _ _ _ => rfl,
    fun _ _ _ _ _ _ _ => rfl, fun _ _ _ _ _ _ _ => rfl, fun d b e st blk h p q defined held => ?_⟩
  -- SET_SLOT_MODE to AUTO: no arm's move is abandoned
  · have notManual : decide (p.state = 1) = false := by rw [auto]; rfl
    simp only [Dev.applyWaiting, Dev.applySlotMode, notManual, Bool.false_and, Bool.not_false, Bool.and_true,
      Bool.false_eq_true, if_false]
  -- START_INJECTION outside TUNE
  · exact (if_neg notEnded).trans (if_pos mode)
  -- SET_PROBLEM_INPUT of a problem that its input does not release
  · simp only [Dev.applyWaiting, Dev.applyProblemInput, defined, if_neg held]

end Sys2Proof.Machine
end

section
/-! SUPPORT. Proofs about the rate multipliers, the coil choppers and the commands of the outputs: how a multiplier advances,
what a step pulse, an edge of a coil's cycle and a reference period do, and the commands of the rate, PWM, brake and skimmer
units. -/

namespace Sys2Proof.Machine

/-! ### A multiplier that runs (R146) -/

@[simp] theorem Mult.run_a (m : Mult) (n : Nat) : (m.run n).1.a = m.a := by unfold Mult.run; split <;> rfl

@[simp] theorem Mult.run_v (m : Mult) (n : Nat) : (m.run n).1.v = m.v := by unfold Mult.run; split <;> rfl

@[simp] theorem Mult.run_ticks (m : Mult) (n : Nat) : (m.run n).1.ticks = m.ticks + n := by unfold Mult.run; split <;> rfl

/-- The accumulator advances by the velocity at each tick. -/
theorem Mult.run_now (m : Mult) (n : Nat) : (m.run n).1.now = m.now + BitVec.ofInt 48 (m.v * n) := by
  simp only [Mult.now, Mult.run_a, Mult.run_v, Mult.run_ticks, Nat.cast_add, mul_add, BitVec.ofInt_add, BitVec.add_assoc]

theorem Mult.run_run_now (m : Mult) (n k : Nat) : ((m.run n).1.run k).1.now = (m.run (n + k)).1.now := by
  simp only [Mult.now, Mult.run_a, Mult.run_v, Mult.run_ticks, Nat.add_assoc]

/-! ### The rows of the rate multipliers and choppers -/

theorem exec_stepPulse (t : Nat) (m : Fin 16) (n : Nat) (s : State) : exec (.stepPulse t m n) s = .next (s.after
    (if (s.dev.advance t).power.mode.torque ∧ (look (s.dev.advance t).mults m.val).step.isSome
      then (s.dev.advance t).runMult t m.val n else s.dev.advance t)) := rfl

theorem exec_chopIsnsHigh (t : Nat) (c : Fin 8) (k : Coil) (s : State) : exec (.chopIsnsHigh t c k) s = .next (s.after
    ((s.dev.advance t).coilEvent t c.val k .drive (·.since) (fun _ => 0) (fun d => d.coilEnter t c.val k .decay id))) := rfl

theorem exec_chopBlankEnd (t : Nat) (c : Fin 8) (k : Coil) (isns : Bool) (s : State) :
    exec (.chopBlankEnd t c k isns) s = .next (s.after
      ((s.dev.advance t).coilEvent t c.val k .blank (·.since) (·.blank.toNat) (fun d =>
        if !isns then d.coilEnter t c.val k .drive (fun y => { y with short := 0 })
        else if ((look d.chops c.val).coil k).short + 1 < 16 then
          d.coilEnter t c.val k .decay (fun y => { y with short := y.short + 1 })
        else
          (d.onChop c.val (fun x => { x with
            latched := true, coilA := { short := x.coilA.short }, coilB := { short := x.coilB.short } })).rateNotice
            t 4 (16 + c.val) (k = .b)))) := rfl

theorem exec_chopOffTimeEnd (t : Nat) (c : Fin 8) (k : Coil) (s : State) : exec (.chopOffTimeEnd t c k) s = .next (s.after
    ((s.dev.advance t).coilEvent t c.val k .decay (·.since) (·.tOff.toNat) (fun d =>
      d.onChop c.val (fun x => x.onCoil k (fun y => y.drive (d.chopCfg c.val) t))))) := rfl

theorem exec_chopOnTimeLimit (t : Nat) (c : Fin 8) (k : Coil) (s : State) : exec (.chopOnTimeLimit t c k) s = .next (s.after
    ((s.dev.advance t).coilEvent t c.val k .drive (·.driveAt) (·.tOnMax.toNat) (fun d =>
      (((d.coilEnter t c.val k .decay id).onMult (16 + c.val) (fun m => { m with chopOpen := true })).rateNotice
        t 3 (16 + c.val) (k = .b)).faultEvent 9 (16 + c.val) t))) := rfl

theorem exec_holdDelay (t : Nat) (c : Fin 8) (s : State) : exec (.holdDelay t c) s = execHoldDelay t c s := rfl

theorem exec_chopRefPwmPeriod (t : Nat) (c : Fin 8) (n : Nat) (s : State) :
    exec (.chopRefPwmPeriod t c n) s = .next (s.after ((s.dev.advance t).chopRefs t c.val n)) := rfl

/-! ### The requests of a step channel (R153) -/

theorem Dev.runMult_eq (d : Dev) (t i n : Nat) : d.runMult t i n = ((look d.mults i).run n).2.foldl
    (fun d j => (d.rateNotice (t - lsbOfTicks j) 2 i false).faultEvent 9 i (t - lsbOfTicks j))
    { d with mults := put d.mults i ((look d.mults i).run n).1 } := rfl

/-! ### The coil cycle (R157, R158) -/

section
variable {d : Dev} {t c : Nat} {k : Coil} {p : CoilPhase} {from_ : CoilState → Nat} {quarters : ConfigChopper → Nat}

/-- Where the chopper is on, the coil in the phase named and the time over, the event happens. -/
theorem Dev.coilEvent_due (f : Dev → Dev) (on : d.chopOn c = true) (phase : ((look d.chops c).coil k).phase = p)
    (due : from_ ((look d.chops c).coil k) + 256 * quarters (d.chopCfg c) ≤ t) :
    d.coilEvent t c k p from_ quarters f = f d := if_pos ⟨on, phase, due⟩

/-- Otherwise nothing does. -/
theorem Dev.coilEvent_idle (f : Dev → Dev) (idle : d.chopOn c = false ∨ ((look d.chops c).coil k).phase ≠ p
      ∨ t < from_ ((look d.chops c).coil k) + 256 * quarters (d.chopCfg c)) :
    d.coilEvent t c k p from_ quarters f = d := by
  refine if_neg fun ⟨on, phase, due⟩ => ?_
  rcases idle with off | other | early
  · exact Bool.false_ne_true (off.symm.trans on)
  · exact other phase
  · exact Nat.not_le.mpr early due

end

/-! ### The references of a PWM period (R156, R157) -/

section
variable {d : Dev} {t c n : Nat} {p : ConfigChopper}

/-- In a mode with torque the multiplier runs first, and the coils take the references of where it stands then. -/
theorem Dev.chopRefs_running (enabled : d.chopEnabled c = true) (torque : d.power.mode.torque = true)
    (cfg : (look (d.runMult t (16 + c) n).mults (16 + c)).chop = some p) :
    let d1 := d.runMult t (16 + c) n
    let theta := (look d1.mults (16 + c)).now.toNat / 2 ^ 24 % 1024
    let amp := if (look d1.chops c).atHold then p.iHold.toNat else p.iRun.toNat
    d.chopRefs t c n = d1.onChop c (fun x => { x with
      coilA := x.coilA.take p t (coilRef theta amp false), coilB := x.coilB.take p t (coilRef theta amp true) }) := by
  simp only [Dev.chopRefs, CoilState.refer, enabled, torque, if_true, cfg, Option.getD_some]

/-- In another mode it holds, and the references alone change. -/
theorem Dev.chopRefs_resting (enabled : d.chopEnabled c = true) (torque : d.power.mode.torque = false)
    (cfg : (look d.mults (16 + c)).chop = some p) :
    let theta := (look d.mults (16 + c)).now.toNat / 2 ^ 24 % 1024
    let amp := if (look d.chops c).atHold then p.iHold.toNat else p.iRun.toNat
    d.chopRefs t c n = d.onChop c (fun x => { x with
      coilA := { x.coilA with ref := coilRef theta amp false }, coilB := { x.coilB with ref := coilRef theta amp true } }) := by
  simp only [Dev.chopRefs, CoilState.refer, enabled, torque, Bool.false_eq_true, if_true, if_false, cfg, Option.getD_some]

theorem Dev.chopRefs_disabled (disabled : d.chopEnabled c = false) : d.chopRefs t c n = d :=
  if_neg (Bool.eq_false_iff.mp disabled)

end

/-! ### DISARM (R371) -/

section
variable {h : Hdr} {d : Dev}

theorem semDisarm_eff_armed (armed : d.skim.phase = .armed) : (semDisarm h).eff d =
    (d.onSkim (fun k => { k with phase := .idle, queue := [], armOut := false }), some (.ok, [])) := by
  simp only [semDisarm, armed, if_true]

theorem semDisarm_eff_post (post : d.skim.phase = .post) : (semDisarm h).eff d = (d.cutCapture h.stamp, some (.ok, [])) := by
  simp only [semDisarm, post, reduceCtorEq, if_true, if_false]

theorem semDisarm_eff_other (notArmed : d.skim.phase ≠ .armed) (notPost : d.skim.phase ≠ .post) :
    (semDisarm h).eff d = (d, some (.ok, [])) := by
  simp only [semDisarm, notArmed, notPost, if_false]

end

/-! ### The obligations -/

/-- Settles O59: the accumulator is the phase at the reference tick and the velocity times the ticks run since. -/
theorem phaseAccumulatorsAdvanceByTheirVelocity : Obligations.PhaseAccumulatorsAdvanceByTheirVelocity :=
  ⟨fun m n => ⟨m.run_now n, m.run_v n⟩, Mult.run_run_now⟩

/-- Settles O13: each is a served command whose effect answers OK. -/
theorem outputCommandsTakeEffect : Obligations.OutputCommandsTakeEffect := by
  refine ⟨?_, ?_, ?_, ?_, ?_, ?_, ?_, ?_, ?_, fun h s hS hA => act_served_ok hS hA rfl rfl rfl rfl rfl,
    -- DISARM of an armed skimmer, of a capture in POST, and elsewhere
    fun h s hS hA armed => act_served_ok hS hA rfl rfl rfl rfl (semDisarm_eff_armed armed),
    fun h s hS hA post => act_served_ok hS hA rfl rfl rfl rfl (semDisarm_eff_post post),
    fun h s hS hA notArmed notPost => act_served_ok hS hA rfl rfl rfl rfl (semDisarm_eff_other notArmed notPost),
    -- FORCE_TRIGGER
    fun h s hS hA => ⟨_, leBytes_length .., act_served_ok hS hA rfl rfl rfl rfl rfl⟩⟩
  -- the commands with parameters
  all_goals exact fun h p s hS hA => act_served_ok hS hA rfl rfl rfl rfl rfl

/-- Settles O33, row by row: the clauses of a row are the branches of its effect. -/
theorem stepAndChopperEventsTakeEffect : Obligations.StepAndChopperEventsTakeEffect := by
  refine ⟨fun t m n s torque step taken => ?_, fun t m n j s torque step one => ?_, fun t m n s idle => ?_,
    fun t c k s on phase due => ?_, fun t c k s idle => ?_, fun t c k s on phase due => ?_,
    fun t c k s on phase due few => ?_, fun t c k s on phase due many => ?_, fun t c k v s idle => ?_,
    fun t c k s on phase due => ?_, fun t c k s idle => ?_, fun t c k s on phase due => ?_, fun t c k s idle => ?_,
    fun t c p s cfg => ?_, fun t c s cfg => ?_, fun t c n p s enabled torque => ?_,
    fun t c n p s enabled torque cfg => ?_, fun t c n s disabled => ?_⟩
  -- STEP_PULSE: no request dropped, one dropped, and outside the modes with torque or of no step channel
  · rw [exec_stepPulse, if_pos ⟨torque, step⟩, Dev.runMult_eq, taken, List.foldl_nil]
  · rw [exec_stepPulse, if_pos ⟨torque, step⟩, Dev.runMult_eq, one, List.foldl_cons, List.foldl_nil]
  · rw [exec_stepPulse, if_neg]
    rintro ⟨torque, step⟩
    rcases idle with rest | unused
    · exact Bool.false_ne_true (rest.symm.trans torque)
    · rw [unused] at step; contradiction
  -- CHOP_ISNS_HIGH
  · rw [exec_chopIsnsHigh, Dev.coilEvent_due _ on phase due]
    rfl
  · rw [exec_chopIsnsHigh, Dev.coilEvent_idle _ idle]
  -- CHOP_BLANK_END: without current, with current, with it for the sixteenth time in a row, and not at its time
  · rw [exec_chopBlankEnd, Dev.coilEvent_due _ on phase due]
    rfl
  · rw [exec_chopBlankEnd, Dev.coilEvent_due _ on phase due]
    simp only [Bool.not_true, Bool.false_eq_true, if_false, if_pos few]
    rfl
  · rw [exec_chopBlankEnd, Dev.coilEvent_due _ on phase due]
    simp only [Bool.not_true, Bool.false_eq_true, if_false, if_neg (Nat.not_lt.mpr (Nat.succ_le_succ many))]
  · rw [exec_chopBlankEnd, Dev.coilEvent_idle _ idle]
  -- CHOP_OFF_TIME_END
  · rw [exec_chopOffTimeEnd, Dev.coilEvent_due _ on phase due]
    rfl
  · rw [exec_chopOffTimeEnd, Dev.coilEvent_idle _ idle]
  -- CHOP_ON_TIME_LIMIT
  · rw [exec_chopOnTimeLimit, Dev.coilEvent_due _ on phase due]
    rfl
  · rw [exec_chopOnTimeLimit, Dev.coilEvent_idle _ idle]
  -- HOLD_DELAY: of a configured channel, and of none
  · simp only [exec_holdDelay, execHoldDelay, State.act, cfg]
  · simp only [exec_holdDelay, execHoldDelay, State.act, cfg]
  -- CHOP_REF_PWM_PERIOD: in a mode with torque, in another, and of a channel that is not enabled
  · intro d1 cfg
    rw [exec_chopRefPwmPeriod, Dev.chopRefs_running enabled torque cfg]
  · rw [exec_chopRefPwmPeriod, Dev.chopRefs_resting enabled torque cfg]
  · rw [exec_chopRefPwmPeriod, Dev.chopRefs_disabled disabled]

end Sys2Proof.Machine
end

section
/-! SUPPORT. Proofs about the loop engine: the commands of its slots and banks, of the injections and of the retune bounds. -/

namespace Sys2Proof.Machine

/-- LOAD_BANK for a slot kind that exists asks for the length of that kind's record (R194). -/
theorem semLoadBank_lenOk {h : Hdr} {p : LoadBank} (kind : p.kind.toNat ≤ 2) :
    (semLoadBank h p).lenOk = decide (h.length = 4 + recordSize p.kind.toNat) := by
  simp only [semLoadBank, if_pos kind]

/-- Where no injection runs in the slot, the new one is pending there until its boundary (R210). -/
theorem semStartInjection_eff_idle {h : Hdr} {p : StartInjection} {d : Dev}
    (idle : (look d.tuning.inj (slotKey p.kind p.index)).phase ≠ .running) : (semStartInjection h p).eff d =
      ((d.onTuning (fun x => { x with
        inj := put x.inj (slotKey p.kind p.index) { p := p, phase := .pending, effB := d.effectAt h.stamp } })).await
        h.stamp (.startInjection h p), some (.ok, [])) := by
  simp only [semStartInjection, if_neg idle]

/-- Settles O8: each is a served command whose effect answers OK. -/
theorem loopAndTuningCommandsTakeEffect : Obligations.LoopAndTuningCommandsTakeEffect := by
  refine ⟨?_, ?_, ?_, ?_, ?_,
    -- LOAD_BANK, whose length is that of its kind's record
    fun h p s hS hA kind => act_served_ok hS hA rfl rfl rfl (semLoadBank_lenOk kind) rfl, ?_,
    -- COPY_BANK
    fun h s hS hA => act_served_ok hS hA rfl rfl rfl rfl rfl, ?_,
    -- START_INJECTION: the slot has no running injection, and taking the message changes none
    fun h p s hS hA idle => act_served_ok hS hA rfl rfl rfl rfl
      (semStartInjection_eff_idle (by rwa [Dev.take_tuning])), ?_, ?_⟩
  -- the other commands
  all_goals exact fun h p s hS hA => act_served_ok hS hA rfl rfl rfl rfl rfl

end Sys2Proof.Machine
end

section
/-! SUPPORT. Proofs about the problems, kernels and tasks: the commands that define, run and remove them, and what a cancel answers
in its dispatch cycle. -/

namespace Sys2Proof.Machine

/-! ### Served commands (R100) -/

/-- A served and accepted command leaves the state after its reply, of whatever status its effect answers. -/
theorem act_served_reply {m : Sem} {op len : Nat} {link : LinkRule} {modes : List Mode} {h : Hdr} {s : State} {d : Dev}
    {st : Status} {data : List Byte} (hS : Serves op len link modes h s) (hA : Accepted m h s) (hop : m.op = op)
    (hlink : m.link = link) (hmodes : m.modes = modes) (hlen : m.lenOk = decide (h.length = len))
    (heff : m.eff (s.dev.take h) = (d, some (st, data))) :
    s.act (runCmd m h) = .next (s.after (d.reply h op st data)) := by
  simp only [State.act, runCmd_served hS hA hop hlink hmodes hlen, heff, finish, hop]

/-! ### SET_PROBLEM_INPUT (R239) -/

/-- For a defined problem it asks for the words of that problem's input. -/
theorem semSetProblemInput_lenOk {h : Hdr} {p : SetProblemInput} {d : Dev} {q : DefineProblem}
    (defined : d.problemView p.id.toNat = some q) :
    (semSetProblemInput h p d).lenOk = decide (h.length = 4 + 4 * inputWords q.n.toNat) := by
  simp only [semSetProblemInput, defined]

/-! ### RUN_KERNEL (R331, R341) -/

section
variable {h : Hdr} {p : RunKernel} {d : Dev}

/-- A kernel that is free to run is pending until its boundary. -/
theorem semRunKernel_eff_free (free : ((look d.sig.kernels p.slot.toNat).pending || (look d.sig.kernels p.slot.toNat).running ||
      d.pressedNow (0x700 + p.slot.toNat)) = false) : (semRunKernel h p).eff d =
    ((d.onSig (fun x => { x with kernels := upd x.kernels p.slot.toNat (fun k => { k with pending := true }) })).await
      h.stamp (.runKernel h p), some (.ok, [])) :=
  if_neg (Bool.eq_false_iff.mp free)

/-- Any other is answered BUSY, and its source is pressed. -/
theorem semRunKernel_eff_busy (busy : ((look d.sig.kernels p.slot.toNat).pending || (look d.sig.kernels p.slot.toNat).running ||
      d.pressedNow (0x700 + p.slot.toNat)) = true) : (semRunKernel h p).eff d =
    (d.pressHostRun h.stamp (0x700 + p.slot.toNat), some (.busy, [])) :=
  if_pos busy

end

/-! ### A cancel in its dispatch cycle (R338, R350) -/

section
variable {d : Dev} {c e : Nat} {x : Task}

theorem Dev.cancel_none (noTask : d.taskOf e = none) : d.cancel c e = (0, d) := by simp only [Dev.cancel, noTask]

section
variable (task : d.taskOf e = some x)
include task

/-- A waiting task that may be ready is made ready and removed in the one cycle, and both records say ANNULLED. -/
theorem Dev.cancel_waiting_ready (waiting : x.phase = .waiting) (may : d.mayBeReady x = true) :
    d.cancel c e = (2, (d.traceEntry c 0x02 e 0 8).removeTask c x 8) := by
  simp only [Dev.cancel, task, waiting, may, if_true]

theorem Dev.cancel_waiting (waiting : x.phase = .waiting) (notYet : d.mayBeReady x = false) :
    d.cancel c e = (1, d.removeTask c x 0) := by
  simp only [Dev.cancel, task, waiting, notYet, Bool.false_eq_true, if_false]

/-- A task that became ready in an earlier cycle, or was preempted since, is cancelled. -/
theorem Dev.cancel_ready_before (ready : x.phase = .ready) (before : x.readyAt ≠ c ∨ x.preempted = true) :
    d.cancel c e = (1, d.removeTask c x 0) := by
  have notNow : (decide (x.readyAt = c) && !x.preempted) = false := by
    rcases before with other | preempted
    · rw [decide_eq_false other, Bool.false_and]
    · rw [preempted, Bool.not_true, Bool.and_false]
  simp only [Dev.cancel, task, ready, notNow, Bool.false_eq_true, if_false]

/-- A task that became ready in this cycle is annulled, its READY record too. -/
theorem Dev.cancel_ready_now (ready : x.phase = .ready) (now : x.readyAt = c) (kept : x.preempted = false) :
    d.cancel c e = (2, (d.onDisp (fun y => { y with trace := y.trace.annul e c })).removeTask c x 8) := by
  simp only [Dev.cancel, task, ready, now, kept, decide_true, Bool.not_false, Bool.and_self, if_true]

theorem Dev.cancel_running (running : x.phase = .running) : d.cancel c e = (3, d.removeTask c x 0) := by
  simp only [Dev.cancel, task, running]

end
end

/-- The cancel's outcome is its reply, with the cycle in which it took effect. -/
theorem Dev.applyCancel_of_cancel {d e : Dev} {q : CancelReq} {outcome : Nat}
    (cancelled : d.cancel q.cycle q.entry = (outcome, e)) :
    d.applyCancel q = e.reply q.hdr 0x0920 .ok (leBytes 1 outcome ++ [0, 0, 0] ++ leBytes 8 q.cycle) := by
  simp only [Dev.applyCancel, cancelled]

/-! ### The obligation -/

/-- Settles O9: each is a served command whose effect answers OK, but for RUN_KERNEL of a busy kernel, which is answered BUSY, and
CANCEL_TASK, which is answered when its cancel takes effect; the clauses of that are the branches of `Dev.cancel`. -/
theorem solverAndKernelCommandsTakeEffect : Obligations.SolverAndKernelCommandsTakeEffect := by
  refine ⟨?_, ?_,
    -- SET_PROBLEM_INPUT, whose length is that of its problem's input
    fun h p s q hq hS hA => act_served_ok hS hA rfl rfl rfl (semSetProblemInput_lenOk hq) rfl, ?_, ?_,
    -- RUN_KERNEL of a free kernel, and of a busy one
    fun h p s hS hA free => act_served_ok hS hA rfl rfl rfl rfl (semRunKernel_eff_free free),
    fun h p s hS hA busy => act_served_reply hS hA rfl rfl rfl rfl (semRunKernel_eff_busy busy), ?_, ?_, ?_,
    -- CANCEL_TASK
    fun h p s hS hA => act_served_later hS hA rfl rfl rfl rfl rfl,
    -- a cancel in its cycle: of no task, of a waiting one, of a ready one, of a running one
    fun d q x => ⟨fun noTask => Dev.applyCancel_of_cancel (Dev.cancel_none noTask),
      fun task waiting may => Dev.applyCancel_of_cancel (Dev.cancel_waiting_ready task waiting may),
      fun task waiting notYet => Dev.applyCancel_of_cancel (Dev.cancel_waiting task waiting notYet),
      fun task ready before => Dev.applyCancel_of_cancel (Dev.cancel_ready_before task ready before),
      fun task ready now kept => Dev.applyCancel_of_cancel (Dev.cancel_ready_now task ready now kept),
      fun task running => Dev.applyCancel_of_cancel (Dev.cancel_running task running)⟩⟩
  -- the other commands
  all_goals exact fun h p s hS hA => act_served_ok hS hA rfl rfl rfl rfl rfl

end Sys2Proof.Machine
end

section
/-! SUPPORT. Proofs about pans and separation: the items of the safety parameter set read back from their bytes, the commands that
edit the candidate set, the events of a separation pass, and what the commands of the kernels, the deck and the outputs change at
their boundary. -/

namespace Sys2Proof.Machine

/-! ### Reads of bytes laid end to end (R4)

A field of a record reads back because its read passes over the pieces that stand before its own. -/

@[simp] theorem rd_behind_byte (w : Nat) (x : Byte) (s : List Byte) (n : Nat) : rd w (x :: s) (n + 1) = rd w s n := rfl

@[simp] theorem rdList_behind_byte (w : Nat) (x : Byte) (s : List Byte) (n k : Nat) :
    rdList w (x :: s) (n + 1) k = rdList w s n k := by
  rw [rdList_drop, List.drop_succ_cons, ← rdList_drop]

section
variable {u n : Nat}

@[simp] theorem rd_behind_word (w : Nat) (v : BitVec u) (s : List Byte) (h : u / 8 ≤ n) :
    rd w (wordBytes v ++ s) n = rd w s (n - u / 8) := by
  rw [rd_drop, drop_word v s n h, ← rd_drop]

@[simp] theorem rdList_behind_word (w : Nat) (v : BitVec u) (s : List Byte) (k : Nat) (h : u / 8 ≤ n) :
    rdList w (wordBytes v ++ s) n k = rdList w s (n - u / 8) k := by
  rw [rdList_drop, drop_word v s n h, ← rdList_drop]

@[simp] theorem rdList_behind_words (w : Nat) {l : List (BitVec u)} (s : List Byte) (k : Nat) (h : u / 8 * l.length ≤ n) :
    rdList w (wordsBytes l ++ s) n k = rdList w s (n - u / 8 * l.length) k := by
  rw [rdList_drop, drop_words l s n h, ← rdList_drop]

end

section
variable {w n : Nat} (hw : w % 8 = 0) (h0 : 0 < w) {l : List (BitVec w)}
include hw h0

/-- As many words as stand at the front read back. -/
@[simp] theorem rdList_head (s : List Byte) (h : l.length = n) : rdList w (wordsBytes l ++ s) 0 n = l :=
  h ▸ rdList_words hw h0 l s

/-- A list of words reads back from its bytes alone. -/
@[simp] theorem rdList_head' (h : l.length = n) : rdList w (wordsBytes l) 0 n = l := by
  have := rdList_head hw h0 [] h
  rwa [List.append_nil] at this

end

/-- Bytes are the byte form of themselves. -/
theorem wordsBytes_bytes (l : List Byte) : wordsBytes l = l := by
  have one (b : Byte) : wordBytes b = [b] := by simp [wordBytes, leBytes]
  simp only [wordsBytes, funext one, List.flatMap_singleton']

/-! ### The items (R283, R438, R485, R486, R493) -/

theorem parse_bytesConfigSeparation (p : ConfigSeparation) : parseConfigSeparation (bytesConfigSeparation p) = p := by
  simp [parseConfigSeparation, bytesConfigSeparation, rd_head, rd_head']

theorem parse_bytesDefinePan (p : DefinePan) : parseDefinePan (bytesDefinePan p) = p := by
  simp [parseDefinePan, bytesDefinePan, rd_byte, rd_head']

theorem parse_bytesSetParamSet (p : SetParamSet) : parseSetParamSet (bytesSetParamSet p) = p := by
  simp [parseSetParamSet, bytesSetParamSet, wordsBytes, rd_byte, rd_head, rd_head']

theorem parse_bytesSetObjectSource (p : SetObjectSource) : parseSetObjectSource (bytesSetObjectSource p) = p := by
  simp [parseSetObjectSource, bytesSetObjectSource, rd_byte, rd_head, rd_head']

theorem parse_bytesSetExport (p : SetExport) (hc : p.capsules.length = 16) (hp : p.pose.length = 7) :
    parseSetExport (bytesSetExport p) = p := by
  have pieces : bytesSetExport p =
      p.conn :: p.count :: (wordBytes p.reserved ++ (wordsBytes p.capsules ++ wordsBytes p.pose)) := by
    simp [bytesSetExport, wordsBytes_bytes]
  simp [parseSetExport, pieces, rd_byte, rd_head, hc, hp]

theorem parse_bytesConfigSinPair (p : ConfigSinPair) : parseConfigSinPair (bytesConfigSinPair p) = p := by
  simp [parseConfigSinPair, bytesConfigSinPair, rd_byte, rd_head]

theorem parse_bytesConfigStops (p : ConfigStops) : parseConfigStops (bytesConfigStops p) = p := by
  simp [parseConfigStops, bytesConfigStops, wordsBytes, rd_byte, rd_head, rd_head']

theorem parse_bytesConfigSls (p : ConfigSls) (hv : p.vSls.length = 128) (hc : p.cSls.length = 16) :
    parseConfigSls (bytesConfigSls p) = p := by
  simp [parseConfigSls, bytesConfigSls, rd_byte, rd_head, hv, hc]

theorem parse_bytesConfigStoEdm (p : ConfigStoEdm) : parseConfigStoEdm (bytesConfigStoEdm p) = p := by
  simp [parseConfigStoEdm, bytesConfigStoEdm, rd_byte, rd_head, rd_head']

theorem parse_bytesConfigSbc (p : ConfigSbc) : parseConfigSbc (bytesConfigSbc p) = p := by
  simp [parseConfigSbc, bytesConfigSbc, rd_head, rd_head']

theorem parse_bytesConfigSafetyConn (p : ConfigSafetyConn) : parseConfigSafetyConn (bytesConfigSafetyConn p) = p := by
  simp [parseConfigSafetyConn, bytesConfigSafetyConn, rd_byte, rd_head, rd_head']

theorem parse_bytesConfigSsmReaction (p : ConfigSsmReaction) : parseConfigSsmReaction (bytesConfigSsmReaction p) = p := by
  simp [parseConfigSsmReaction, bytesConfigSsmReaction, rd_byte]

/-! ### The rows of a separation pass (R268, R271, R273, R275) -/

theorem exec_separationInputsComplete (t : Nat) (s : State) :
    exec (.separationInputsComplete t) s = .next (s.after ((s.dev.advance t).inputsComplete t)) := rfl

theorem exec_sepMonitorDecision (t : Nat) (s : State) :
    exec (.sepMonitorDecision t) s = .next (s.after ((s.dev.advance t).sepDecision t)) := rfl

theorem exec_passOverrun (t : Nat) (s : State) :
    exec (.passOverrun t) s = .next (s.after ((s.dev.advance t).passOverrun t)) := rfl

theorem exec_islandDecision (t : Nat) (s : State) :
    exec (.islandDecision t) s = .next (s.after ((s.dev.advance t).islandDecision t)) := rfl

section
variable {d : Dev} (t : Nat)

theorem Dev.sepDecision_openInputs (opened : d.sep.pass.inputs.isSome = false) : d.sepDecision t = d :=
  if_neg fun due => Bool.false_ne_true (opened.symm.trans due.2.1)

section
variable (noPass : d.sep.pass.running = false)
include noPass

theorem Dev.inputsComplete_noPass : d.inputsComplete t = d :=
  if_neg fun due => Bool.false_ne_true (noPass.symm.trans due.1)

theorem Dev.passOverrun_noPass : d.passOverrun t = d :=
  if_neg fun due => Bool.false_ne_true (noPass.symm.trans due.1)

theorem Dev.islandDecision_noPass : d.islandDecision t = d :=
  if_neg fun due => Bool.false_ne_true (noPass.symm.trans due.1)

end
end

/-! ### Lifts and ballast requests at their boundary (R298, R299, R302) -/

/-- RUN is one of the modes in which a lift opens and a ballast request is staged. -/
theorem Dev.liftMode_of_run {d : Dev} (run : d.power.mode = .run) : ¬ d.power.mode ∉ [Mode.ready, .run, .hold] := by
  rw [run]
  decide

/-! ### The obligations -/

/-- Settles O60, item by item. -/
theorem safetyItemsReadBackFromTheirBytes : Obligations.SafetyItemsReadBackFromTheirBytes :=
  ⟨parse_bytesConfigSeparation, parse_bytesDefinePan, parse_bytesSetParamSet, parse_bytesSetObjectSource, parse_bytesSetExport,
    parse_bytesConfigSinPair, parse_bytesConfigStops, parse_bytesConfigSls, parse_bytesConfigStoEdm, parse_bytesConfigSbc,
    parse_bytesConfigSafetyConn, parse_bytesConfigSsmReaction⟩

/-- Settles O10: each is a served command whose effect answers OK. -/
theorem safetySetCommandsEditTheCandidate : Obligations.SafetySetCommandsEditTheCandidate := by
  refine ⟨?_, ?_, ?_, ?_, ?_, ?_, ?_,
    -- SET_OBJECT_SOURCE in READY, where it waits, and in COMMISSION; taking the message leaves the mode
    fun h p s hS hA ready => act_served_ok hS hA rfl rfl rfl rfl (if_pos (by rwa [Dev.take_power])),
    fun h p s hS hA notReady => act_served_ok hS hA rfl rfl rfl rfl (if_neg (by rwa [Dev.take_power])), ?_,
    -- DISCARD_CHANGES
    fun h s hS hA => act_served_ok hS hA rfl rfl rfl rfl rfl, ?_⟩
  -- the other commands
  all_goals exact fun h p s hS hA => act_served_ok hS hA rfl rfl rfl rfl rfl

/-- Settles O23, row by row: the clauses of a row are the branches of its effect. -/
theorem separationPassAdvances : Obligations.SeparationPassAdvances :=
  ⟨-- SEPARATION_INPUTS_COMPLETE: at the cut or with every position in, and outside a pass
    fun t s running opened complete => exec_eq_after (exec_separationInputsComplete t s)
      (if_pos ⟨running, Option.isNone_iff_eq_none.mpr opened, complete⟩),
    fun t s noPass => exec_eq_after (exec_separationInputsComplete t s) (Dev.inputsComplete_noPass t noPass),
    -- SEP_MONITOR_DECISION: with closed inputs and a pipe in service, and before the inputs close
    fun t s running closed undecided inService => exec_eq_after (exec_sepMonitorDecision t s)
      (if_pos ⟨running, closed, (Bool.not_eq_true' _).mpr undecided, (Bool.not_eq_true' _).mpr inService⟩),
    fun t s opened => exec_eq_after (exec_sepMonitorDecision t s) (Dev.sepDecision_openInputs t opened),
    -- PASS_OVERRUN: of an undecided pass when the next one is due, and outside a pass
    fun t s running undecided due => exec_eq_after (exec_passOverrun t s)
      (if_pos ⟨running, (Bool.not_eq_true' _).mpr undecided, due⟩),
    fun t s noPass => exec_eq_after (exec_passOverrun t s) (Dev.passOverrun_noPass t noPass),
    -- ISLAND_DECISION: with closed inputs, and outside a pass
    fun t s running closed undecided => exec_eq_after (exec_islandDecision t s)
      (if_pos ⟨running, closed, (Bool.not_eq_true' _).mpr undecided⟩),
    fun t s noPass => exec_eq_after (exec_islandDecision t s) (Dev.islandDecision_noPass t noPass)⟩

/-- Settles O54: each clause is the row's arm of `applyWaiting`, in the branch of its condition. -/
theorem kernelDeckAndOutputChangesApply : Obligations.KernelDeckAndOutputChangesApply := by
  refine ⟨?_, ?_, ?_, ?_, ?_, ?_, ?_, ?_, ?_, ?_, ?_, ?_,
    -- DECLARE_LIFT without an allocation, and SEND_BALLAST_REQUEST without a new one, in RUN
    fun d b e st blk h p run noAlloc => (if_neg (Dev.liftMode_of_run run)).trans (if_neg (Bool.eq_false_iff.mp noAlloc)),
    fun d b e st blk h p run given => (if_neg (Dev.liftMode_of_run run)).trans (if_neg given), ?_,
    -- SET_PAN_PLANNER that enables, and SET_TRACE with restart
    fun d b e st blk h p enable => if_pos enable,
    fun d b e st blk h p restart => by simp only [Dev.applyWaiting, Dev.applySetTrace, restart, if_true],
    -- ARM
    fun _ _ _ _ _ _ => rfl, ?_, ?_⟩
  -- the other commands
  all_goals exact fun _ _ _ _ _ _ _ => rfl

end Sys2Proof.Machine
end

section
/-! SUPPORT. Proofs about the peripherals and the deck: the reads of the deck, capture, output, bus, pair, safety and fault state,
and the events of the motion ports and of the deck, load and ballast data. -/

namespace Sys2Proof.Machine

/-! ### The lengths of replies (R301, R458) -/

theorem BallastStat.bytes_length (s : BallastStat) : s.bytes.length = 60 := by
  simp [BallastStat.bytes]

theorem Dev.pairStateBytes_length (d : Dev) : d.pairStateBytes.length = 44 := by simp [Dev.pairStateBytes]

/-! ### The rows of the deck -/

theorem exec_msnDrdyEdge (t : Nat) (p : Fin 2) (s : State) :
    exec (.msnDrdyEdge t p) s = .next (s.after ((s.dev.advance t).drdyEdge t p.val)) := rfl

theorem exec_motionReadDone (t : Nat) (p : Fin 2) (data copy : List Byte) (s : State) :
    exec (.motionReadDone t p data copy) s = .next (s.after ((s.dev.advance t).readDone t p.val data copy)) := rfl

theorem exec_motionPortSilence (t : Nat) (p : Fin 2) (s : State) :
    exec (.motionPortSilence t p) s = .next (s.after ((s.dev.advance t).portSilence t p.val)) := rfl

theorem exec_deckInvalidTimeout (t : Nat) (s : State) :
    exec (.deckInvalidTimeout t) s = .next (s.after ((s.dev.advance t).deckTimeout t)) := rfl

theorem exec_loadFrameStale (t : Nat) (s : State) :
    exec (.loadFrameStale t) s = .next (s.after ((s.dev.advance t).loadStale t)) := rfl

theorem exec_ballastStatusStale (t : Nat) (s : State) : exec (.ballastStatusStale t) s = .next (s.after
    (if (s.dev.advance t).ballastFresh t then s.dev.advance t else (s.dev.advance t).evalLifts t)) := rfl

/-! ### The motion ports (R285, R286) -/

section
variable {d : Dev} {i : Nat} {c : ConfigMotionPort} (t : Nat)

theorem Dev.drdyEdge_unconfigured (unconfigured : d.portCfg i = none) : d.drdyEdge t i = d := by
  simp only [Dev.drdyEdge, unconfigured]

theorem Dev.drdyEdge_configured (configured : d.portCfg i = some c) (notDormant : d.power.mode ≠ .dormant)
    (notBoot : d.power.mode ≠ .boot) : d.drdyEdge t i =
      if (d.port i).reading then (d.wakeDisp t).faultEvent 8 i t
      else ((d.wakeDisp t).startDomain t 8).onPort i (fun x => { x with reading := true, edge := t }) := by
  simp only [Dev.drdyEdge, configured]
  exact if_neg (not_or.mpr ⟨notDormant, notBoot⟩)

theorem Dev.readDone_idle (data copy : List Byte) (idle : (d.port i).reading = false) : d.readDone t i data copy = d := by
  cases cfg : (d.port i).cfg with
  | none => simp only [Dev.readDone, cfg]
  | some _ => simp [Dev.readDone, cfg, idle]

theorem Dev.readDone_reading (data copy : List Byte) (cfg : (d.port i).cfg = some c) (reading : (d.port i).reading = true) :
    d.readDone t i data copy =
      if data.length = c.nBytes.toNat ∧ sampleOk c.check data copy = true ∧
          sampleInRange c ((List.range 6).map (sampleField c data)) = true then
        (((d.onPort i (fun q => { q with reading := false })).onPort i
          (fun q => q.take c (d.lever i) ((List.range 6).map (sampleField c data)))).onDeck
          (fun k => { k with started := if k.cfg.isSome ∧ k.started.isNone then some (d.port i).edge else k.started })).fire
          t (d.port i).edge (1 + i)
      else (d.onPort i (fun q => { q with reading := false })).faultEvent 8 i t := by
  simp [Dev.readDone, cfg, reading, and_assoc]

theorem Dev.portSilence_unconfigured (unconfigured : d.portCfg i = none) : d.portSilence t i = d := by
  simp only [Dev.portSilence, unconfigured]

theorem Dev.portSilence_configured (configured : d.portCfg i = some c) : d.portSilence t i =
    if (d.port i).silence + ms10 ≤ t
    then (d.faultEvent 8 i t).onPort i (fun x => { x with silence := x.silence + ms10 }) else d := by
  simp only [Dev.portSilence, configured]

theorem Dev.portSilence_early (early : t < (d.port i).silence + ms10) : d.portSilence t i = d := by
  cases configured : d.portCfg i with
  | none => exact Dev.portSilence_unconfigured t configured
  | some _ => rw [Dev.portSilence_configured t configured, if_neg (Nat.not_le.mpr early)]

end

/-! ### The deck estimate (R288) -/

theorem Dev.deckTimeout_kept {d : Dev} (t : Nat)
    (kept : d.deck.est.valid = false ∨ d.deckValid t = true ∨ d.power.mode = .shadow) : d.deckTimeout t = d := by
  refine if_neg ?_
  rintro ⟨wasValid, stale, notShadow⟩
  rcases kept with invalid | fresh | shadow
  · exact Bool.false_ne_true (invalid.symm.trans wasValid)
  · rw [fresh] at stale; contradiction
  · exact notShadow shadow

/-! ### The obligations -/

/-- Settles O3: each read leaves the device as it took the message, and its reply is a chain of fields of fixed lengths. -/
theorem peripheralReadsAnswerAndChangeNothing : Obligations.PeripheralReadsAnswerAndChangeNothing := by
  refine ⟨fun h s hS hA => act_served_ok hS hA rfl rfl rfl rfl rfl,
    fun h p s hS hA => ⟨_, ?_, act_served_ok hS hA rfl rfl rfl rfl rfl⟩,
    fun h s hS hA => ⟨_, ?_, act_served_ok hS hA rfl rfl rfl rfl rfl⟩,
    fun h p s hS hA => ⟨_, ?_, act_served_ok hS hA rfl rfl rfl rfl rfl⟩,
    fun h p s hS hA => ⟨_, ?_, act_served_ok hS hA rfl rfl rfl rfl rfl⟩,
    fun h p s hS hA => ⟨_, ?_, act_served_ok hS hA rfl rfl rfl rfl rfl⟩,
    fun h p s hS hA => ⟨_, ?_, act_served_ok hS hA rfl rfl rfl rfl rfl⟩,
    fun h s hS hA => ⟨_, ?_, act_served_ok hS hA rfl rfl rfl rfl rfl⟩,
    fun h s hS hA => ⟨_, ?_, act_served_ok hS hA rfl rfl rfl rfl rfl⟩,
    fun h p s hS hA => ⟨_, ?_, act_served_ok hS hA rfl rfl rfl rfl rfl⟩,
    fun h s hS hA => ⟨_, ?_, act_served_ok hS hA rfl rfl rfl rfl rfl⟩⟩
  -- GET_HEEL_STATE, which ends with the ballast status
  · simp [BallastStat.bytes_length]
  -- GET_CAPTURE_STATE
  · simp
  -- GET_PWM_STATE, with seven bytes for each phase of the group
  · simp
    omega
  -- GET_BRAKE_STATE, GET_SCHEDULE_ENTRY, GET_SYNC_STATE
  · simp
  · simp
  · simp
  -- GET_PAIR_STATE
  · exact Dev.pairStateBytes_length _
  -- GET_SAFETY_STATE, GET_CHANNEL_STATE, GET_JOURNAL_STATE
  · simp
  · simp
  · simp

/-- Settles O24: each event by the branch its rule takes. -/
theorem deckSensorEventsTakeEffect : Obligations.DeckSensorEventsTakeEffect := by
  refine ⟨fun t p c s configured notDormant notBoot idle => exec_eq_after (exec_msnDrdyEdge t p s) ?_,
    fun t p c s configured notDormant notBoot reading => exec_eq_after (exec_msnDrdyEdge t p s) ?_,
    fun t p s unconfigured => exec_eq_after (exec_msnDrdyEdge t p s) (Dev.drdyEdge_unconfigured t unconfigured),
    fun t p c data copy s cfg reading good => exec_eq_after (exec_motionReadDone t p data copy s) ?_,
    fun t p c data copy s cfg reading bad => exec_eq_after (exec_motionReadDone t p data copy s) ?_,
    fun t p data copy s idle => exec_eq_after (exec_motionReadDone t p data copy s) (Dev.readDone_idle t data copy idle),
    fun t p s none_or_early => exec_eq_after (exec_motionPortSilence t p s) ?_,
    fun t p c s configured due => exec_eq_after (exec_motionPortSilence t p s) ?_,
    fun t s kept => exec_eq_after (exec_deckInvalidTimeout t s) (Dev.deckTimeout_kept t kept),
    fun t s wasValid stale notShadow => exec_eq_after (exec_deckInvalidTimeout t s) ?_,
    fun t s defined held unsaid stale => exec_eq_after (exec_loadFrameStale t s) ?_,
    fun t s fresh => exec_eq_after (exec_ballastStatusStale t s) (if_pos fresh),
    fun t s stale => exec_eq_after (exec_ballastStatusStale t s) (if_neg (Bool.eq_false_iff.mp stale))⟩
  -- MSN_DRDY_EDGE of an idle port, and during a read
  · rw [Dev.drdyEdge_configured t configured notDormant notBoot, if_neg (Bool.eq_false_iff.mp idle)]
  · rw [Dev.drdyEdge_configured t configured notDormant notBoot, if_pos reading]
  -- MOTION_READ_DONE with a good and with a bad sample
  · rw [Dev.readDone_reading t data copy cfg reading, if_pos good]
  · rw [Dev.readDone_reading t data copy cfg reading, if_neg]
    rintro ⟨len, ok, inRange⟩
    rcases bad with wrongLen | notOk | outside
    · exact wrongLen len
    · exact Bool.false_ne_true (notOk.symm.trans ok)
    · exact Bool.false_ne_true (outside.symm.trans inRange)
  -- MOTION_PORT_SILENCE of no port or too early, and at its time
  · exact none_or_early.elim (Dev.portSilence_unconfigured t) (Dev.portSilence_early t)
  · rw [Dev.portSilence_configured t configured, if_pos due]
  -- DECK_INVALID_TIMEOUT of a stale estimate
  · exact if_pos ⟨wasValid, (Bool.not_eq_true' _).mpr stale, notShadow⟩
  -- LOAD_FRAME_STALE, noticed for the first time
  · exact if_pos ⟨defined, held, (Bool.not_eq_true' _).mpr unsaid, (Bool.not_eq_true' _).mpr stale⟩

end Sys2Proof.Machine
end

section
/-! SUPPORT. Proofs about the commands of the bus, of the pair and fault units and of the safety functions: what each leaves where it
is served and accepted. -/

namespace Sys2Proof.Machine

/-! ### The bus (R408, R415, R430) -/

/-- DRIVE_PARAM asks for its fixed fields and, where it writes, for as many bytes as it says. -/
theorem semDriveParam_lenOk (h : Hdr) (p : DriveParam) :
    (semDriveParam h p).lenOk = decide (h.length = 12 + if p.op = 2 then p.n.toNat else 0) := by
  simp only [semDriveParam, ← Bool.decide_and, decide_eq_decide]
  omega

/-- LOAD_SCHEDULE of a table without a failing entry waits with its block. -/
theorem semLoadSchedule_eff_fits {h : Hdr} {p : LoadSchedule} {d : Dev}
    (fits : badSlot ((rdWords 64 (d.blockBytes p.offset p.length)).take 128) (formOf d.chansView p.set.toNat)
      (d.guardView p.set.toNat) d.cycleTicks = none) : (semLoadSchedule h p).eff d =
    (d.awaitBlock h.stamp (.loadSchedule h p) (d.blockBytes p.offset p.length), some (.ok, [])) := by
  simp only [semLoadSchedule, fits]

/-- GRANT_SPARE of a waiting claim makes it a grant. -/
theorem semGrantSpare_eff_waiting {h : Hdr} {p : GrantSpare} {d : Dev} {c : Claim}
    (waits : (d.busSet p.set.toNat).claims.find? (fun c => c.id = p.claimId) = some c) : (semGrantSpare h p).eff d =
      (d.onSet p.set.toNat (fun x => { x with
        claims := x.claims.filter (fun y => y.id ≠ p.claimId)
        grants := x.grants ++ [{ claim := c, slot := p.slot.toNat, owner := p.owner.toNat, dProp := p.dProp }] }),
        some (.ok, [])) := by
  simp only [semGrantSpare, waits]

/-! ### The safety parameter set (R267, R489) -/

/-- COMMIT_SET of a set without an invalid entry commits it. -/
theorem semCommitSet_eff_valid {h : Hdr} {p : CommitSet} {d : Dev} (valid : d.badEntry d.safety.candidate = none) :
    (semCommitSet h p).eff d = (d.commit h.stamp, some (.ok, [])) := by
  unfold semCommitSet
  simp only [valid]

theorem exec_configSafetyConn (h : Hdr) (p : ConfigSafetyConn) (s : State) :
    exec (.configSafetyConn h p) s = s.act (runCmd (semConfigSafetyConn h p s.dev.isArbiter) h) := by
  change execConfigSafetyConn h p s = _
  simp only [execConfigSafetyConn, State.act]

/-! ### The obligations -/

/-- Settles O14: each is a served command whose effect answers OK, but for DRIVE_PARAM, which is answered later. -/
theorem busCommandsTakeEffect : Obligations.BusCommandsTakeEffect := by
  refine ⟨?_, ?_, ?_, ?_,
    -- LOAD_SCHEDULE, DRIVE_PARAM, GRANT_SPARE
    fun h p s hS hA fits => act_served_ok hS hA rfl rfl rfl rfl (semLoadSchedule_eff_fits fits),
    fun h p s hS hA => act_served_later hS hA rfl rfl rfl (semDriveParam_lenOk h p) rfl,
    fun h p s c hS hA waits => act_served_ok hS hA rfl rfl rfl rfl (semGrantSpare_eff_waiting waits)⟩
  -- the other commands
  all_goals exact fun h p s hS hA => act_served_ok hS hA rfl rfl rfl rfl rfl

/-- Settles O15: each is a served command whose effect answers OK. -/
theorem pairAndFaultCommandsTakeEffect : Obligations.PairAndFaultCommandsTakeEffect := by
  refine ⟨?_, ?_, ?_, ?_, ?_, ?_, ?_, ?_, ?_⟩ <;>
    exact fun h p s hS hA => act_served_ok hS hA rfl rfl rfl rfl rfl

/-- Settles O11: each is a served command whose effect answers OK, but for BRAKE_TEST, which is answered later. -/
theorem safetyFunctionItemsEditTheCandidate : Obligations.SafetyFunctionItemsEditTheCandidate := by
  refine ⟨?_, ?_, ?_, ?_, ?_, ?_, ?_,
    -- CONFIG_SAFETY_CONN of a unit, and of an arbiter
    fun h p s unit hS hA => (exec_configSafetyConn h p s).trans (unit ▸ act_served_ok hS hA rfl rfl rfl rfl rfl),
    fun h p s arbiter hS hA => (exec_configSafetyConn h p s).trans (arbiter ▸ act_served_ok hS hA rfl rfl rfl rfl rfl),
    -- COMMIT_SET, of the candidate set, which taking the message leaves, and BRAKE_TEST
    fun h p s hS hA valid => act_served_ok hS hA rfl rfl rfl rfl (semCommitSet_eff_valid (by rwa [Dev.take_safety])),
    fun h p s hS hA => act_served_later hS hA rfl rfl rfl rfl rfl⟩
  -- the other items
  all_goals exact fun h p s hS hA => act_served_ok hS hA rfl rfl rfl rfl rfl

end Sys2Proof.Machine
end

section
/-! SUPPORT. Proofs about what the reset pins, the safety check and the fault buckets compute: the filter of a low pulse, the reflected
CRC-32 of the safety functions, and how a bucket rises and decays. -/

namespace Sys2Proof.Machine

/-! ### The filter of the reset pins (R42, R525) -/

theorem Dev.longEnough_long (d : Dev) {ns : Nat} (long : 1000 ≤ ns) : d.longEnough ns = true := by
  simp only [Dev.longEnough, decide_eq_true long, Bool.true_or]

theorem Dev.longEnough_short (d : Dev) {ns : Nat} (short : ns < 100) : d.longEnough ns = false := by
  simp only [Dev.longEnough, decide_eq_false (show ¬ 1000 ≤ ns by omega), decide_eq_false (Nat.not_le.mpr short),
    Bool.false_and, Bool.or_false]

/-- A low of a reset pin that was not low resets where it is long, is ignored where it is short, and does either between. -/
theorem exec_lowPulse {c : Instr} {s : State} {ns : Nat} {low : Bool} {reset ignored : Dev}
    (row : exec c s = .next (s.after (if low ∨ !s.dev.longEnough ns then ignored else reset))) (high : low = false) :
    (1000 ≤ ns → exec c s = .next (s.after reset)) ∧ (ns < 100 → exec c s = .next (s.after ignored))
      ∧ (exec c s = .next (s.after reset) ∨ exec c s = .next (s.after ignored)) := by
  have passed (long : s.dev.longEnough ns = true) : exec c s = .next (s.after reset) :=
    exec_eq_after row (if_neg (by simp only [high, long]; decide))
  have blocked (short : s.dev.longEnough ns = false) : exec c s = .next (s.after ignored) :=
    exec_eq_after row (if_pos (.inr (by rw [short, Bool.not_false])))
  refine ⟨fun long => passed (s.dev.longEnough_long long), fun short => blocked (s.dev.longEnough_short short), ?_⟩
  cases filter : s.dev.longEnough ns with
  | true => exact .inl (passed filter)
  | false => exact .inr (blocked filter)

/-! ### The safety check (R482) -/

/-- The reversed polynomial of the safety check. -/
theorem safetyPoly_reverse : (0xF4ACFB13#32).reverse = 0xC8DF352F := by decide +kernel

/-- A byte of a CRC is eight bit steps. -/
theorem crcByte_eq_foldl (poly : BitVec 32) :
    crcByte poly = fun c b => (List.range 8).foldl (fun c _ => crcStep poly c) (c ^^^ b.setWidth 32) := rfl

/-! ### Fault buckets (R496) -/

/-- Up to an instant from its rise on, a bucket falls by the decay instants not yet taken. -/
theorem FaultChan.decayTo_b {c : FaultChan} {t : Nat} (decays : 0 < c.tDec) (risen : c.rise ≤ t) :
    (c.decayTo t).b = c.b - ((t - c.rise) / c.tDec - c.applied) := by
  unfold FaultChan.decayTo
  split
  next none =>
    have empty : c.b = 0 := by omega
    rw [empty, Nat.zero_sub]
  next => rfl

@[simp] theorem FaultChan.decayTo_tDec (c : FaultChan) (t : Nat) : (c.decayTo t).tDec = c.tDec := by
  unfold FaultChan.decayTo
  split <;> rfl

@[simp] theorem FaultChan.decayTo_rise (c : FaultChan) (t : Nat) : (c.decayTo t).rise = c.rise := by
  unfold FaultChan.decayTo
  split <;> rfl

/-- The instants taken are those up to the stamp, where the bucket was not empty. -/
theorem FaultChan.decayTo_applied {c : FaultChan} {t : Nat} (decays : 0 < c.tDec) (risen : c.rise ≤ t) (filled : c.b ≠ 0) :
    (c.decayTo t).applied = (t - c.rise) / c.tDec := by
  rw [FaultChan.decayTo, if_neg (by omega)]

theorem FaultChan.decayTo_empty {c : FaultChan} (t : Nat) (empty : c.b = 0) : c.decayTo t = c := if_pos (.inl empty)

/-- Decaying in two parts takes the same instants as in one. -/
theorem FaultChan.decayTo_decayTo_b {c : FaultChan} {t u : Nat} (decays : 0 < c.tDec) (risen : c.rise ≤ t) (later : t ≤ u)
    (taken : c.applied ≤ (t - c.rise) / c.tDec) : ((c.decayTo t).decayTo u).b = (c.decayTo u).b := by
  by_cases empty : c.b = 0
  · rw [FaultChan.decayTo_empty t empty]
  · have more : (t - c.rise) / c.tDec ≤ (u - c.rise) / c.tDec := Nat.div_le_div_right (Nat.sub_le_sub_right later _)
    have risen' : c.rise ≤ u := Nat.le_trans risen later
    rw [FaultChan.decayTo_b (c := c.decayTo t) (by rwa [FaultChan.decayTo_tDec]) (by rwa [FaultChan.decayTo_rise]),
      FaultChan.decayTo_b decays risen', FaultChan.decayTo_b decays risen, FaultChan.decayTo_applied decays risen empty,
      FaultChan.decayTo_tDec, FaultChan.decayTo_rise]
    omega

theorem FaultChan.event_b (c : FaultChan) (tDec t : Nat) : (c.event tDec t).b = min 255 ((c.decayTo t).b + 1) := by
  unfold FaultChan.event
  dsimp only
  split <;> rfl

theorem FaultChan.event_fromZero {c : FaultChan} {t : Nat} (tDec : Nat) (empty : (c.decayTo t).b = 0) :
    (c.event tDec t).rise = t ∧ (c.event tDec t).tDec = tDec ∧ (c.event tDec t).applied = 0 := by
  simp only [FaultChan.event, if_pos empty, and_self]

/-! ### The obligations -/

/-- Settles O57: both rows reset or ignore a low as their filter says. -/
theorem resetPinsAreFiltered : Obligations.ResetPinsAreFiltered :=
  ⟨fun t n s high => exec_lowPulse (exec_rstNLow t n s) high, fun t n s high => exec_lowPulse (exec_pwrgoodLow t n s) high⟩

/-- Settles O56: the model's check runs the eight bit steps of a byte with the reversed polynomial. -/
theorem theSafetyCheckIsThatOfItsRule : Obligations.TheSafetyCheckIsThatOfItsRule := by
  refine ⟨fun bs => ?_, by decide +kernel, by decide +kernel⟩
  simp only [safetyPoly_reverse, safetyCrc, crcReflected, crcByte_eq_foldl, crcStep]

/-- Settles O49. -/
theorem faultBucketsCountAndDecay : Obligations.FaultBucketsCountAndDecay :=
  ⟨fun _ _ decays risen _ => FaultChan.decayTo_b decays risen,
   fun _ _ _ decays risen later taken => FaultChan.decayTo_decayTo_b decays risen later taken,
   fun c tDec t => ⟨c.event_b tDec t, rfl⟩, fun _ tDec _ empty => FaultChan.event_fromZero tDec empty⟩

end Sys2Proof.Machine
end

section
/-! SUPPORT. Proofs about the signal cores: how a core takes an interrupt, which fault that is of the task that runs there, and how a
user kernel stops. -/

namespace Sys2Proof.Machine

/-! ### The rows of the signal cores -/

theorem exec_coreInterrupt (t : Nat) (core : Fin 4) (x : CoreIntIn) (s : State) : exec (.coreInterrupt t core x) s =
    .next (s.after (((s.dev.advance t).runCoreTo t core.val).coreIrq t core.val x.src)) := rfl

theorem exec_kernelBudget (t : Nat) (slot : Fin 8) (f : KernelFault) (s : State) :
    exec (.kernelBudget t slot f) s = .next (s.after
      (if (look (s.dev.advance t).sig.kernels slot.val).running then
        ((s.dev.advance t).runCoreTo t ((s.dev.advance t).kernelCore slot.val)).kernelFault t slot.val (kernelFaultCode f)
      else s.dev.advance t)) := rfl

/-! ### Faults of a task on a core (R317, R324, R326) -/

section
variable {d : Dev} {core : Nat}

theorem Dev.coreIrq_memErr (t : Nat) :
    d.coreIrq t core .memErr = (d.coreFault t core true).interruptCore t core (d.userOn core) := rfl

theorem Dev.coreIrq_illegal (t : Nat) :
    d.coreIrq t core .illegal = (d.coreFault t core false).interruptCore t core (d.userOn core) := rfl

theorem Dev.userOn_idle (idle : d.onCore core = none) : d.userOn core = false := by simp only [Dev.userOn, idle]

theorem Dev.userOn_running {x : Task} (running : d.onCore core = some x) : d.userOn core = (kernelOf x.entry).isSome := by
  simp only [Dev.userOn, running]

/-- Without a task on the core, a memory error is an event of the core alone. -/
theorem Dev.coreFault_idle (t : Nat) (memErr : Bool) (idle : d.onCore core = none) :
    d.coreFault t core memErr = if memErr then d.faultEvent 5 core t else d := by
  simp only [Dev.coreFault, idle]

section
variable {x : Task} (running : d.onCore core = some x)
include running

theorem Dev.coreFault_kernel {j : Nat} (t : Nat) (memErr : Bool) (kernel : kernelOf x.entry = some j) :
    d.coreFault t core memErr = if memErr then (d.faultEvent 5 core t).kernelFault t j 4 else d.kernelFault t j 1 := by
  simp only [Dev.coreFault, running, kernel]

theorem Dev.coreFault_vendor (t : Nat) (memErr : Bool) (vendor : kernelOf x.entry = none) :
    d.coreFault t core memErr = d.vendorFault t core (if memErr then 4 else 1) x := by
  simp only [Dev.coreFault, running, vendor]

end
end

/-! ### How an interrupt is taken (R317, R318) -/

/-- With no delay slot pending, the instructions in flight complete and the core goes to its vector. -/
theorem SignalRun.interrupt_enabled {r : SignalRun} (user : Bool) (t : Nat) (enabled : r.core.st.getLsbD 1 = true)
    (noSlots : r.core.slots = 0) : r.interrupt user t = { r.drain with core := { r.drain.core with
      ipc := r.drain.core.pc, istat := r.drain.core.st, st := r.drain.core.st &&& ~~~2, pc := Config.coreVector } } := by
  rw [SignalRun.interrupt, if_pos enabled, noSlots]
  rfl

theorem SignalRun.interrupt_disabled {r : SignalRun} (user : Bool) (t : Nat) (disabled : r.core.st.getLsbD 1 = false) :
    r.interrupt user t = r := if_neg (Bool.eq_false_iff.mp disabled)

/-! ### Kernels (R326) -/

/-- With no task in the unit, a fault of a kernel only stops it. -/
theorem Dev.kernelFault_noTask {d : Dev} (t slot code : Nat) (noTask : d.disp.tasks = []) :
    d.kernelFault t slot code = d.kernelStops t slot code := by
  have stays : (d.kernelStops t slot code).disp.tasks = [] := by rw [Dev.kernelStops, Dev.notice_disp, Dev.onSig_disp, noTask]
  simp only [Dev.kernelFault, Dev.taskRunning, Dev.cancelTasks, stays, List.find?_nil, List.filter_nil, List.foldl_nil]

/-! ### The obligation -/

/-- Settles O25, row by row: the clauses of CORE_INTERRUPT are its sources and the tasks that may run on the core. -/
theorem coreEventsEndTheirTask : Obligations.CoreEventsEndTheirTask := by
  refine ⟨fun _ _ _ => rfl, fun t k s idle => exec_eq_after (exec_coreInterrupt ..) ?_,
    fun t k s idle => exec_eq_after (exec_coreInterrupt ..) ?_,
    fun t k x j s running kernel => exec_eq_after (exec_coreInterrupt ..) ?_,
    fun t k x j s running kernel => exec_eq_after (exec_coreInterrupt ..) ?_,
    fun t k x s running vendor => exec_eq_after (exec_coreInterrupt ..) ?_,
    fun t k x s running vendor => exec_eq_after (exec_coreInterrupt ..) ?_,
    fun r u t enabled noSlots => r.interrupt_enabled u t enabled noSlots,
    fun r u t disabled => r.interrupt_disabled u t disabled,
    fun t k f s running => exec_eq_after (exec_kernelBudget ..) (if_pos running),
    fun d t i code c cfg noTask => ?_,
    fun t k f s idle => exec_eq_after (exec_kernelBudget ..) (if_neg (Bool.eq_false_iff.mp idle))⟩
  -- a memory error and an illegal instruction on an idle core
  · rw [Dev.coreIrq_memErr, Dev.coreFault_idle t true idle, Dev.userOn_idle idle, if_pos rfl]
  · rw [Dev.coreIrq_illegal, Dev.coreFault_idle t false idle, Dev.userOn_idle idle]
    rfl
  -- of a user kernel
  · rw [Dev.coreIrq_memErr, Dev.coreFault_kernel running t true kernel, Dev.userOn_running running, kernel, if_pos rfl]
    rfl
  · rw [Dev.coreIrq_illegal, Dev.coreFault_kernel running t false kernel, Dev.userOn_running running, kernel]
    rfl
  -- of vendor code
  · rw [Dev.coreIrq_memErr, Dev.coreFault_vendor running t true vendor, Dev.userOn_running running, vendor, if_pos rfl]
    rfl
  · rw [Dev.coreIrq_illegal, Dev.coreFault_vendor running t false vendor, Dev.userOn_running running, vendor]
    rfl
  -- the fault of a kernel in a slot that is configured
  · rw [Dev.kernelFault_noTask t i code noTask, Dev.kernelStops, Dev.kernelCore, cfg]
    rfl

end Sys2Proof.Machine
end

section
/-! SUPPORT. Proofs about the dispatch unit: what releases, dispatches and ends a task, and what the end of a back-pressure and the
write queue of the trace do. -/

namespace Sys2Proof.Machine

/-! ### The rows of the dispatch unit -/

theorem exec_taskRelease (t : Nat) (e : Fin 2048) (s : State) :
    exec (.taskRelease t e) s = .next (s.after (((s.dev.advance t).cancelsBefore t).taskRelease t e.val)) := rfl

theorem exec_taskDispatch (t : Nat) (s : State) :
    exec (.taskDispatch t) s = .next (s.after (((s.dev.advance t).cancelsBefore t).dispatchCycle t)) := rfl

theorem exec_taskComplete (t : Nat) (e : Fin 2048) (x : TaskIn) (s : State) :
    exec (.taskComplete t e x) s = .next (s.after (((s.dev.advance t).cancelsBefore t).taskEnd t e.val x)) := rfl

theorem exec_taskDeadline (t : Nat) (s : State) : exec (.taskDeadline t) s = .next (s.after
    (let d := (s.dev.advance t).cancelsBefore t
      if d.power.mode = .dormant ∨ d.power.mode = .boot ∨ d.cycleHeld then d
      else (d.expired t).foldl (fun d x => d.endLate t x) d)) := rfl

theorem exec_backpressureRelease (t : Nat) (e : Fin 2048) (s : State) :
    exec (.backpressureRelease t e) s = .next (s.after (((s.dev.advance t).cancelsBefore t).releasePressure t e.val)) := rfl

theorem exec_traceRecordWrite (t : Nat) (s : State) :
    exec (.traceRecordWrite t) s = .next (s.after ((s.dev.advance t).traceDrain t)) := rfl

/-! ### Releases (R333, R334) -/

section
variable {d : Dev} {e : Nat}

theorem Dev.taskRelease_boundary (t : Nat) (kind : (d.entry e).kind = .boundary) : d.taskRelease t e = d.fireBoundary e := by
  rw [Dev.taskRelease, kind]

theorem Dev.taskRelease_timer (t : Nat) (kind : (d.entry e).kind = .timer) : d.taskRelease t e = d.fireTimer t e := by
  rw [Dev.taskRelease, kind]

/-- An entry of any other kind is released elsewhere. -/
theorem Dev.taskRelease_other (t : Nat) (notBoundary : (d.entry e).kind ≠ .boundary) (notTimer : (d.entry e).kind ≠ .timer) :
    d.taskRelease t e = d := by
  unfold Dev.taskRelease
  split
  next kind => exact absurd kind notBoundary
  next kind => exact absurd kind notTimer
  next => rfl

/-- A live timer that never fired does so at once. -/
theorem Dev.fireTimer_first (t : Nat) (live : d.entryLive e = true) (never : (look d.disp.table e).lastAt = none) :
    d.fireTimer t e = (d.onCount e (fun c => { c with lastAt := some t })).fire t t e := by
  simp only [Dev.fireTimer, never, live, and_self, if_true]

section
variable {t a : Nat} (last : (look d.disp.table e).lastAt = some a)
include last

theorem Dev.fireTimer_due (live : d.entryLive e = true) (due : a + (d.entry e).match_ ≤ t) :
    d.fireTimer t e = (d.onCount e (fun c => { c with lastAt := some t })).fire t t e := by
  simp only [Dev.fireTimer, last, decide_eq_true due, live, and_self, if_true]

theorem Dev.fireTimer_early (early : t < a + (d.entry e).match_) : d.fireTimer t e = d := by
  simp only [Dev.fireTimer, last, decide_eq_false (Nat.not_le.mpr early), Bool.false_eq_true, false_and, if_false]

end
end

/-! ### Dispatch cycles and the end of a task (R337, R345) -/

/-- In a mode with work, and with room in the trace, the unit has its cycles. -/
theorem Dev.dispatches {d : Dev} (notDormant : d.power.mode ≠ .dormant) (notBoot : d.power.mode ≠ .boot)
    (room : d.cycleHeld = false) : ¬ (d.power.mode = .dormant ∨ d.power.mode = .boot ∨ d.cycleHeld = true) :=
  not_or.mpr ⟨notDormant, not_or.mpr ⟨notBoot, Bool.eq_false_iff.mp room⟩⟩

section
variable {d : Dev} {t e : Nat} {x : TaskIn}

theorem Dev.taskEnd_idle (idle : d.taskRunning e = none) : d.taskEnd t e x = d := by simp only [Dev.taskEnd, idle]

section
variable {k : Task} (running : d.taskRunning e = some k)
include running

theorem Dev.taskEnd_problem {p : Nat} (problem : problemOf e = some p) : d.taskEnd t e x = d.runEnd t k.unit [] := by
  simp only [Dev.taskEnd, running, problem]

theorem Dev.taskEnd_core (noProblem : problemOf e = none) (core : (d.entry e).engine = .sig) :
    d.taskEnd t e x = d.coreTaskEnd t k x := by
  simp only [Dev.taskEnd, running, noProblem, core, if_true]

/-- Any other task does its work, and what is staged late is dropped. -/
theorem Dev.taskEnd_own (noProblem : problemOf e = none) (noCore : (d.entry e).engine ≠ .sig) : d.taskEnd t e x =
    (if k.dl < t then (d.ownWork t e x).dropStaged (d.entry e).work else d.ownWork t e x).completeTask t k := by
  simp only [Dev.taskEnd, running, noProblem, noCore, if_false]

end
end

/-! ### Back-pressure (R341) -/

section
variable {d : Dev} {t e : Nat}

/-- Nothing is released where there was no pressure, where it room on, and where the mode suspends the entry. -/
theorem Dev.releasePressure_none
    (stays : (look d.disp.table e).pressed = false ∨ d.pressedNow e = true ∨ d.entryLive e = false) : d.releasePressure t e = d := by
  refine if_pos ?_
  simpa only [Bool.not_eq_true'] using stays

/-- Where the pressure on a live entry has gone, BP_OFF is written, and what was held is released by its kind. -/
theorem Dev.releasePressure_gone (was : (look d.disp.table e).pressed = true) (gone : d.pressedNow e = false)
    (live : d.entryLive e = true) : d.releasePressure t e =
      let c := look d.disp.table e
      let d1 := d.trace t 0x0A (d.sourceOf e) 0 0 0
      if c.held = 0 ∨ (d.entry e).kind = .mailbox ∨ (d.entry e).kind = .hostRun ∨ (d.entry e).kind = .free then
        d1.onCount e (fun c => { c with held := 0, pressed := false, said := false })
      else if (d.entry e).kind = .frame then
        let d3 := (d1.newTask t c.heldAt e).onCount e (fun c => { c with
          held := c.held - 1, heldAt := (c.stamps.drop 1).headD 0, stamps := c.stamps.drop 1, pressed := decide (1 < c.held),
          pressedAt := t, said := false })
        if c.held = 1 then d3 else d3.trace t 0x09 (d.sourceOf e) 0 0 0
      else
        (d1.newTask t c.heldAt e (c.held - 1)).onCount e (fun c =>
          { c with held := 0, heldAt := t, pressed := false, pressedAt := t, said := false }) := by
  refine if_neg ?_
  simp only [was, gone, live, Bool.not_true, Bool.false_eq_true, or_self, not_false_eq_true]

end

/-! ### The write queue of the trace (R345, R346) -/

theorem Dev.traceDrain_empty {d : Dev} (t : Nat) (empty : d.disp.trace.queue = []) : d.traceDrain t = d := by
  simp only [Dev.traceDrain, empty]

section
variable {d : Dev} {r : TraceRec} {q : List TraceRec} (t : Nat) (queued : d.disp.trace.queue = r :: q)
include queued

/-- The oldest record is stored and counts for a freeze, which closes the trace as FILL at its last place does. -/
theorem Dev.traceDrain_queued {l : Option Nat} (left : d.disp.trace.left.map (· - 1) = l) : d.traceDrain t =
    let d1 := d.onDisp (fun x => { x with trace := { x.trace.store1 r with queue := q, left := l } })
    if ((d.disp.trace.store1 r).fill ∧ (d.disp.trace.store1 r).wp = 65535) ∨ l = some 0 then d1.freezeTrace t else d1 := by
  subst left
  simp only [Dev.traceDrain, queued]
  rfl

/-- Outside FILL and a freeze it is only stored. -/
theorem Dev.traceDrain_stores (noFill : (d.disp.trace.store1 r).fill = false) (notClosing : d.disp.trace.left = none) :
    d.traceDrain t = d.onDisp (fun x => { x with trace := { x.trace.store1 r with queue := q, left := none } }) := by
  rw [Dev.traceDrain_queued t queued (congrArg _ notClosing), noFill]
  exact if_neg (by simp)

/-- The last record before a freeze closes the trace. -/
theorem Dev.traceDrain_closes (last : d.disp.trace.left = some 1) : d.traceDrain t =
    (d.onDisp (fun x => { x with trace := { x.trace.store1 r with queue := q, left := some 0 } })).freezeTrace t := by
  rw [Dev.traceDrain_queued t queued (congrArg _ last)]
  exact if_pos (.inr rfl)

end

/-! ### The obligation -/

/-- Settles O21, row by row: the clauses of a row are the branches of its effect. -/
theorem tasksAreReleasedDispatchedAndEnded : Obligations.TasksAreReleasedDispatchedAndEnded := by
  refine ⟨fun t x s kind => exec_eq_after (exec_taskRelease ..) (Dev.taskRelease_boundary t kind),
    fun t x s notBoundary notTimer => exec_eq_after (exec_taskRelease ..) (Dev.taskRelease_other t notBoundary notTimer),
    fun t x a s kind live last due => exec_eq_after (exec_taskRelease ..)
      ((Dev.taskRelease_timer t kind).trans (Dev.fireTimer_due last live due)),
    fun t x s kind live never => exec_eq_after (exec_taskRelease ..)
      ((Dev.taskRelease_timer t kind).trans (Dev.fireTimer_first t live never)),
    fun t x a s kind last early => exec_eq_after (exec_taskRelease ..)
      ((Dev.taskRelease_timer t kind).trans (Dev.fireTimer_early last early)),
    -- TASK_DISPATCH
    fun t s notDormant notBoot room => exec_eq_after (exec_taskDispatch ..)
      (if_neg (Dev.dispatches notDormant notBoot room)),
    fun t s held => exec_eq_after (exec_taskDispatch ..) (if_pos held),
    -- TASK_COMPLETE
    fun t x i k s running noProblem noCore => exec_eq_after (exec_taskComplete ..) (Dev.taskEnd_own running noProblem noCore),
    fun t x i k s running noProblem core => exec_eq_after (exec_taskComplete ..) (Dev.taskEnd_core running noProblem core),
    fun t x i k p s running problem => exec_eq_after (exec_taskComplete ..) (Dev.taskEnd_problem running problem),
    fun t x i s idle => exec_eq_after (exec_taskComplete ..) (Dev.taskEnd_idle idle),
    -- TASK_DEADLINE
    fun t s notDormant notBoot room => exec_eq_after (exec_taskDeadline ..)
      (if_neg (Dev.dispatches notDormant notBoot room)),
    fun t s held => exec_eq_after (exec_taskDeadline ..) (if_pos (.inr (.inr held))),
    -- BACKPRESSURE_RELEASE
    fun t x s was gone live nothing => exec_eq_after (exec_backpressureRelease ..)
      ((Dev.releasePressure_gone was gone live).trans (if_pos (.inl nothing))),
    fun t x s was gone live held noMail noHost used noFrame => exec_eq_after (exec_backpressureRelease ..)
      ((Dev.releasePressure_gone was gone live).trans ((if_neg ?_).trans (if_neg noFrame))),
    -- TRACE_RECORD_WRITE
    fun t r q s queued noFill open_ => exec_eq_after (exec_traceRecordWrite ..) (Dev.traceDrain_stores t queued noFill open_),
    -- BACKPRESSURE_RELEASE
    fun t x s was gone live frame several => exec_eq_after (exec_backpressureRelease ..)
      ((Dev.releasePressure_gone was gone live).trans ((if_neg ?_).trans ((if_pos frame).trans (if_neg several.ne')))),
    fun t x s stays => exec_eq_after (exec_backpressureRelease ..) (Dev.releasePressure_none stays),
    -- TRACE_RECORD_WRITE
    fun t r q s queued last => exec_eq_after (exec_traceRecordWrite ..) (Dev.traceDrain_closes t queued last),
    fun t s empty => exec_eq_after (exec_traceRecordWrite ..) (Dev.traceDrain_empty t empty)⟩
  -- a held trigger, and several held frames
  · simp only [held, noMail, noHost, used, or_self, not_false_eq_true]
  · simp only [frame, reduceCtorEq, or_false]
    exact Nat.ne_zero_of_lt several

end Sys2Proof.Machine
end

section
/-! SUPPORT. Proofs about the skimmer: what the level of a pin, a filter word and a taken record do, how the intake queue is stored,
and what the XTRG lines do. -/

namespace Sys2Proof.Machine

/-! ### The rows of the skimmer -/

theorem exec_pinChannelChange (t : Nat) (ch : Fin 256) (x : PinEdge) (s : State) :
    exec (.pinChannelChange t ch x) s = .next (s.after ((s.dev.advance t).pinChange t ch.val x)) := rfl

theorem exec_analogThresholdChange (t : Nat) (ch : Fin 256) (w : BitVec 32) (s : State) :
    exec (.analogThresholdChange t ch w) s = .next (s.after ((s.dev.advance t).analogWord t ch.val w)) := rfl

theorem exec_skimRecordStore (t : Nat) (s : State) :
    exec (.skimRecordStore t) s = .next (s.after ((s.dev.advance t).skimDrain t)) := rfl

theorem exec_postTimeExpiry (t : Nat) (s : State) :
    exec (.postTimeExpiry t) s = .next (s.after ((s.dev.advance t).postExpiry t)) := rfl

theorem exec_armLineFall (t : Nat) (s : State) : exec (.armLineFall t) s = .next (s.after (s.dev.advance t).armFall) := rfl

theorem exec_armLineRise (t : Nat) (s : State) :
    exec (.armLineRise t) s = .next (s.after ((s.dev.advance t).armRise t)) := rfl

theorem exec_fireLineFall (t : Nat) (s : State) :
    exec (.fireLineFall t) s = .next (s.after ((s.dev.advance t).fireFall t)) := rfl

theorem exec_firePulseEnd (t : Nat) (s : State) :
    exec (.firePulseEnd t) s = .next (s.after ((s.dev.advance t).firePulseEnd t)) := rfl

/-! ### The level of a pin (R41, R352) -/

section
variable {d : Dev} {t ch : Nat} {x : PinEdge}

theorem Dev.pinChange_noPin (noPin : (look d.skim.chans ch).now.kind ≠ 1) : d.pinChange t ch x = d := if_pos noPin

section
variable (pin : (look d.skim.chans ch).now.kind = 1)
include pin

/-- The level of a line other than XTRG is recorded where it is new and stable. -/
theorem Dev.pinChange_line
    (line : (look d.skim.chans ch).now.source.toNat < 0x88 ∨ 0x8C ≤ (look d.skim.chans ch).now.source.toNat) :
    d.pinChange t ch x =
      if (look d.skim.chans ch).level = some x.level
        ∨ f300Cycle t - f300Cycle (min x.since t) < (look d.skim.chans ch).now.glitch.toNat then d
      else (d.onSkim (fun k => { k with chans := upd k.chans ch (fun c =>
        { c with level := some x.level, raw := some x.level, rawAt := min x.since t }) })).skimData (min x.since t) ch
          (BitVec.ofNat 32 (bit x.level)) 0 := by
  have noXtrg (p : Prop) : ¬ (0x88 ≤ (look d.skim.chans ch).now.source.toNat
      ∧ (look d.skim.chans ch).now.source.toNat < 0x8C ∧ p) := by omega
  rw [Dev.pinChange, if_neg (not_not.mpr pin), if_neg (noXtrg _)]

/-- A known level of an XTRG line that the device does not pull says whether something outside pulls it. -/
theorem Dev.pinChange_xtrg
    (line : 0x88 ≤ (look d.skim.chans ch).now.source.toNat ∧ (look d.skim.chans ch).now.source.toNat < 0x8C)
    (free : d.skim.pulls (BitVec.ofNat 8 ((look d.skim.chans ch).now.source.toNat - 0x88)) = false)
    (known : (look d.skim.chans ch).level = some x.level) : d.pinChange t ch x =
      d.onSkim (fun k => k.pull (BitVec.ofNat 8 ((look d.skim.chans ch).now.source.toNat - 0x88)) !x.level) :=
  (if_neg (not_not.mpr pin)).trans ((if_pos (.inl known)).trans (if_pos ⟨line.1, line.2, (Bool.not_eq_true' _).mpr free⟩))

end
end

/-! ### Filter words (R354) -/

/-- The threshold side that a filter word of a channel gives. -/
def SkimChan.side (c : SkimChan) (w : BitVec 32) : Bool :=
  if c.now.hi.toInt < w.toInt then true else if w.toInt < c.now.lo.toInt then false else c.above

theorem SkimChan.side_above {c : SkimChan} {w : BitVec 32} (above : c.now.hi.toInt < w.toInt) : c.side w = true := if_pos above

theorem SkimChan.side_below {c : SkimChan} {w : BitVec 32} (below : w.toInt < c.now.lo.toInt)
    (ordered : c.now.lo.toInt ≤ c.now.hi.toInt) : c.side w = false := by
  rw [SkimChan.side, if_neg (by omega), if_pos below]

theorem SkimChan.side_between {c : SkimChan} {w : BitVec 32} (high : w.toInt ≤ c.now.hi.toInt) (low : c.now.lo.toInt ≤ w.toInt) :
    c.side w = c.above := by
  rw [SkimChan.side, if_neg (Int.not_lt.mpr high), if_neg (Int.not_lt.mpr low)]

section
variable {d : Dev} {ch : Nat} {w : BitVec 32} (t : Nat)

theorem Dev.analogWord_noAnalog (noAnalog : (look d.skim.chans ch).now.kind ≠ 2) : d.analogWord t ch w = d := if_pos noAnalog

/-- A word is recorded where the side changes, and as the first one after arming. -/
theorem Dev.analogWord_side {side : Bool} (analog : (look d.skim.chans ch).now.kind = 2)
    (hside : (look d.skim.chans ch).side w = side) : d.analogWord t ch w =
      let d1 := d.onSkim (fun k => { k with chans := upd k.chans ch (fun x => { x with above := side }) })
      if (look d.skim.chans ch).first ∨ side ≠ (look d.skim.chans ch).above then d1.skimData t ch w (8 * bit side) else d1 := by
  subst hside
  exact if_neg (not_not.mpr analog)

section
variable {side : Bool} (analog : (look d.skim.chans ch).now.kind = 2) (hside : (look d.skim.chans ch).side w = side)
include analog hside

theorem Dev.analogWord_changed (was : (look d.skim.chans ch).above = !side) : d.analogWord t ch w =
    (d.onSkim (fun k => { k with chans := upd k.chans ch (fun x => { x with above := side }) })).skimData t ch w
      (8 * bit side) := by
  rw [Dev.analogWord_side t analog hside, was]
  exact if_pos (.inr (Bool.not_ne_self side).symm)

end

theorem Dev.analogWord_same (analog : (look d.skim.chans ch).now.kind = 2)
    (same : (look d.skim.chans ch).side w = (look d.skim.chans ch).above) (notFirst : (look d.skim.chans ch).first = false) :
    d.analogWord t ch w = d.onSkim (fun k => { k with chans := upd k.chans ch (fun x =>
      { x with above := (look d.skim.chans ch).above }) }) := by
  rw [Dev.analogWord_side t analog same, notFirst]
  exact if_neg (by simp)

end

/-! ### Records (R352, R357, R361) -/

section
variable {d : Dev} {t ch flags : Nat} {v : BitVec 32}

theorem Dev.skimData_idle (idle : d.skim.phase = .idle) : d.skimData t ch v flags = d := by simp only [Dev.skimData, idle]

/-- The channel of a record that is not lost has its value as the last one. -/
def Skim.noted (k : Skim) (ch : Nat) (v : BitVec 32) : Skim :=
  { k with chans := upd k.chans ch (fun c => { c with last := some v, prev := some v, first := false }) }

section
variable
  (noTrigger : d.skim.condMask ch (if (look d.skim.chans ch).first then none else (look d.skim.chans ch).prev) v = 0)
include noTrigger

/-- While capturing, a record that meets no condition joins the queue. -/
theorem Dev.skimData_capturing (room : d.skim.queue.length < 256) (capturing : d.skim.phase = .armed ∨ d.skim.phase = .post) : d.skimData t ch v flags =
    d.onSkim (fun k => Skim.noted { k with queue := k.queue ++
      [{ ct := t, chan := BitVec.ofNat 16 ch, flags := BitVec.ofNat 16 flags, value := v }] } ch v) := by
  have fits : ¬ 256 ≤ d.skim.queue.length := Nat.not_le.mpr room
  rcases capturing with phase | phase <;>
    simp [Dev.skimData, phase, noTrigger, Dev.onSkim, Skim.noted, Skim.intake, fits]

/-- In HELD and REARM it is not stored. -/
theorem Dev.skimData_held (held : d.skim.phase = .held ∨ d.skim.phase = .rearm) :
    d.skimData t ch v flags = d.onSkim (fun k => k.noted ch v) := by
  rcases held with phase | phase <;>
    simp [Dev.skimData, phase, noTrigger, Skim.noted]

end
end

/-! ### The store (R357, R361) -/

theorem Dev.skimDrain_empty {d : Dev} (t : Nat) (empty : d.skim.queue = []) : d.skimDrain t = d := by
  simp only [Dev.skimDrain, empty]

section
variable {d d1 : Dev} {r : SkimRec} {q : List SkimRec} (t : Nat) (queued : d.skim.queue = r :: q)
  (h1 : d1 = d.onSkim (fun k => ({ k with queue := q }).put1 r))
include queued h1

/-- In ARMED, with no record lost, the oldest record is stored. -/
theorem Dev.skimDrain_armed (armed : d1.skim.phase = .armed) (noneLost : d1.skim.lostRun = 0) : d.skimDrain t = d1 := by
  simp only [Dev.skimDrain, queued, ← h1, armed, noneLost, reduceCtorEq, false_and, if_false, if_true]

/-- At the post limit the capture ends. -/
theorem Dev.skimDrain_post (post : d1.skim.phase = .post) (limit : d1.skim.postLeft = 0) : d.skimDrain t = d1.holdCapture t := by
  simp only [Dev.skimDrain, queued, ← h1, post, limit, and_self, if_true]

end

/-! ### The XTRG lines (R362, R365, R366) -/

section
variable {d : Dev}

/-- A fall of the ARM line that arms nothing: the device itself holds it low, is no MEMBER in IDLE or HELD, or is off. -/
theorem Dev.armFall_stays (stays : d.skim.pulls d.skim.cap.armLine = true ∨ d.skim.cap.role ≠ 2
      ∨ (d.skim.phase ≠ .idle ∧ d.skim.phase ≠ .held) ∨ d.skimOn = false) :
    d.armFall = d.onSkim (fun k => { k with pulled := setBit k.pulled k.cap.armLine.toNat true }) := by
  refine if_neg ?_
  rintro ⟨free, member, idle, on⟩
  rcases stays with pulled | other | busy | off
  · simp [pulled] at free
  · exact other member
  · exact idle.elim busy.1 busy.2
  · exact Bool.false_ne_true (off.symm.trans on)

/-- A rise of the ARM line that disarms nothing: the device itself holds it low, or is no armed MEMBER. -/
theorem Dev.armRise_stays (t : Nat) (stays : d.skim.pulls d.skim.cap.armLine = true ∨ d.skim.cap.role ≠ 2
      ∨ d.skim.phase ≠ .armed) :
    d.armRise t = d.onSkim (fun k => { k with pulled := setBit k.pulled k.cap.armLine.toNat false }) := by
  refine if_neg ?_
  rintro ⟨free, member, armed⟩
  rcases stays with pulled | other | notArmed
  · simp [pulled] at free
  · exact other member
  · exact notArmed armed

/-- A fall of the fire line that triggers nothing: the device has no role, itself holds it low, or does not enable it. -/
theorem Dev.fireFall_stays (t : Nat) (stays : d.skim.cap.role = 0 ∨ d.skim.pulls d.skim.cap.fireLine = true
      ∨ d.skim.trig.enable.getLsbD 4 = false) : d.fireFall t = d.onSkim (fun k => k.pull k.cap.fireLine true) := by
  refine if_neg ?_
  rintro ⟨role, free, enabled⟩
  rcases stays with noRole | pulled | disabled
  · exact role noRole
  · simp [pulled] at free
  · exact Bool.false_ne_true (disabled.symm.trans enabled)

theorem Dev.firePulseEnd_stays {t : Nat} (stays : d.skim.fireOut = false ∨ t < d.skim.fireAt + 1024) :
    d.firePulseEnd t = d := by
  refine if_neg ?_
  rintro ⟨pulls, passed⟩
  rcases stays with noPulse | early
  · exact Bool.false_ne_true (noPulse.symm.trans pulls)
  · exact Nat.not_le.mpr early passed

end

/-! ### The obligation -/

/-- Settles O34, row by row: the clauses of a row are the branches of its effect. -/
theorem skimmerEventsTakeEffect : Obligations.SkimmerEventsTakeEffect := by
  refine ⟨-- PIN_CHANNEL_CHANGE: recorded, known or not yet stable, of an XTRG line, and of no PIN channel
   fun t ch v s pin line new stable => exec_eq_after (exec_pinChannelChange ..)
      ((Dev.pinChange_line pin line).trans (if_neg (not_or.mpr ⟨new, Nat.not_lt.mpr stable⟩))),
   fun t ch v s pin line known => exec_eq_after (exec_pinChannelChange ..) ((Dev.pinChange_line pin line).trans (if_pos known)),
   fun t ch v s pin line free known => exec_eq_after (exec_pinChannelChange ..) (Dev.pinChange_xtrg pin line free known),
   fun t ch v s noPin => exec_eq_after (exec_pinChannelChange ..) (Dev.pinChange_noPin noPin),
   -- a record that meets no condition
   fun d t ch flags v room noTrigger => ⟨Dev.skimData_idle, Dev.skimData_capturing noTrigger room,
      Dev.skimData_held noTrigger⟩,
   -- ANALOG_THRESHOLD_CHANGE: to above, of no ANALOG channel, to below, and between
   fun t ch w s analog above was => exec_eq_after (exec_analogThresholdChange ..)
      (Dev.analogWord_changed t analog (SkimChan.side_above above) was),
   fun t ch w s noAnalog => exec_eq_after (exec_analogThresholdChange ..) (Dev.analogWord_noAnalog t noAnalog),
   fun t ch w s analog below ordered was => exec_eq_after (exec_analogThresholdChange ..)
      (Dev.analogWord_changed t analog (SkimChan.side_below below ordered) was),
   fun t ch w s analog high low notFirst => exec_eq_after (exec_analogThresholdChange ..)
      (Dev.analogWord_same t analog (SkimChan.side_between high low) notFirst),
   -- SKIM_RECORD_STORE
   fun t s empty => exec_eq_after (exec_skimRecordStore ..) (Dev.skimDrain_empty t empty),
   fun t r q d1 s queued h1 armed noneLost => exec_eq_after (exec_skimRecordStore ..)
      (Dev.skimDrain_armed t queued h1 armed noneLost),
   fun t r q d1 s queued h1 post limit => exec_eq_after (exec_skimRecordStore ..) (Dev.skimDrain_post t queued h1 post limit),
   -- POST_TIME_EXPIRY
   fun t s post timed passed => exec_eq_after (exec_postTimeExpiry ..)
      (if_pos ⟨post, fun zero => timed (BitVec.eq_of_toNat_eq zero), passed⟩),
   fun t s notPost => exec_eq_after (exec_postTimeExpiry ..) (if_neg fun due => notPost due.1),
   -- ARM_LINE_FALL and ARM_LINE_RISE
   fun t s free member idle on => exec_eq_after (exec_armLineFall ..)
      (if_pos ⟨(Bool.not_eq_true' _).mpr free, member, idle, on⟩),
   fun t s stays => exec_eq_after (exec_armLineFall ..) (Dev.armFall_stays stays),
   fun t s free member armed => exec_eq_after (exec_armLineRise ..)
      (if_pos ⟨(Bool.not_eq_true' _).mpr free, member, armed⟩),
   fun t s stays => exec_eq_after (exec_armLineRise ..) (Dev.armRise_stays t stays),
   -- FIRE_LINE_FALL
   fun t s role free enabled => exec_eq_after (exec_fireLineFall ..)
      (if_pos ⟨role, (Bool.not_eq_true' _).mpr free, enabled⟩),
   fun t s stays => exec_eq_after (exec_fireLineFall ..) (Dev.fireFall_stays t stays),
   -- FIRE_PULSE_END
   fun t s stays => exec_eq_after (exec_firePulseEnd ..) (Dev.firePulseEnd_stays stays),
   fun t s pulls passed => exec_eq_after (exec_firePulseEnd ..) (if_pos ⟨pulls, passed⟩),
   -- SD_INPUT_SILENCE
   fun _ _ _ => rfl⟩

end Sys2Proof.Machine
end

section
/-! SUPPORT. Proofs about the brake outputs and the PWM groups: the pull-in and the feedback of a brake, what a fall of TRIP_N and a
carrier cycle leave of a group, and when its calibration is coarse. -/

namespace Sys2Proof.Machine

/-! ### The rows of the brakes and PWM groups -/

theorem exec_brakePullInEnd (t : Nat) (b : Fin 16) (s : State) :
    exec (.brakePullInEnd t b) s = .next (s.after ((s.dev.advance t).pullInEnd t b.val)) := rfl

theorem exec_brkFbChange (t : Nat) (b : Fin 16) (v : Bool) (s : State) :
    exec (.brkFbChange t b v) s = .next (s.after ((s.dev.advance t).brakeFb t b.val v)) := rfl

theorem exec_brakeFbLate (t : Nat) (b : Fin 16) (s : State) :
    exec (.brakeFbLate t b) s = .next (s.after ((s.dev.advance t).brakeFbLate t b.val)) := rfl

theorem exec_tripNFall (t : Nat) (g : Fin 8) (low : Nat) (s : State) :
    exec (.tripNFall t g low) s = .next (s.after ((s.dev.advance t).tripFall t g.val low)) := rfl

theorem exec_pwmCarrierCycle (t : Nat) (g : Fin 8) (pins : BitVec 6) (s : State) :
    exec (.pwmCarrierCycle t g pins) s = .next (s.after ((s.dev.advance t).carrier t g.val pins)) := rfl

theorem exec_pwmCoarse (t : Nat) (g : Fin 8) (span : BitVec 16) (s : State) :
    exec (.pwmCoarse t g span) s = .next (s.after ((s.dev.advance t).coarseSet t g.val span)) := rfl

theorem exec_pwmCoarseClear (t : Nat) (g : Fin 8) (span : BitVec 16) (s : State) :
    exec (.pwmCoarseClear t g span) s = .next (s.after ((s.dev.advance t).coarseClear g.val span)) := rfl

/-! ### Brakes (R385, R386) -/

section
variable {d : Dev} {t b : Nat} {c : ConfigBrake} (cfg : (look d.pwm.brakes b).cfg = some c)
include cfg

/-- A pull-in of a configured brake ends in HOLD once t_pull has passed. -/
theorem Dev.pullInEnd_configured : d.pullInEnd t b =
    if (look d.pwm.brakes b).phase = .pullIn ∧ (look d.pwm.brakes b).since + c.tPull.toNat * 1024000 ≤ t then
      d.onPwm (fun y => { y with brakes := put y.brakes b { look d.pwm.brakes b with phase := .hold, since := t } })
    else d := by
  simp only [Dev.pullInEnd, cfg]

theorem Dev.pullInEnd_stays (stays : (look d.pwm.brakes b).phase ≠ .pullIn
      ∨ t < (look d.pwm.brakes b).since + c.tPull.toNat * 1024000) : d.pullInEnd t b = d := by
  rw [Dev.pullInEnd_configured cfg, if_neg]
  rintro ⟨pullIn, passed⟩
  exact stays.elim (· pullIn) (Nat.not_lt.mpr passed)

/-- The feedback of a brake is in time, or its delay has been noticed. -/
theorem Dev.brakeFbLate_inTime (inTime : (look d.pwm.brakes b).late = true
      ∨ t ≤ (look d.pwm.brakes b).cmdAt + c.tFb.toNat * ms1 ∨ (look d.pwm.brakes b).fbReleased = (look d.pwm.brakes b).cmdRel) :
    d.brakeFbLate t b = d := by
  simp only [Dev.brakeFbLate, cfg, if_pos inTime]

/-- A feedback that has not followed its command by t_fb is noticed; on release it causes the stop of trigger 0x18, and on
engagement an STO reaction. -/
theorem Dev.brakeFbLate_late (unsaid : (look d.pwm.brakes b).late = false)
    (late : (look d.pwm.brakes b).cmdAt + c.tFb.toNat * ms1 < t)
    (differs : (look d.pwm.brakes b).fbReleased ≠ (look d.pwm.brakes b).cmdRel) : d.brakeFbLate t b =
      let d1 := (d.onPwm (fun p => { p with brakes := put p.brakes b { look d.pwm.brakes b with late := true } })).pwmNotice
        t 0x14 b true true
      if (look d.pwm.brakes b).cmdRel then
        (d1.onSafety (fun x => { x with
          brakeRel := setBit x.brakeRel b true, brakeRelOnly := x.brakeRelOnly || !d1.latchedTrig 0x18 })).react t 3 0x18 b false
      else (d1.onSafety (fun x => { x with
        needTest := setBit x.needTest b true, brakeRelOnly := false })).stoReaction t 0x18 b false := by
  have isLate : ¬ ((look d.pwm.brakes b).late = true ∨ t ≤ (look d.pwm.brakes b).cmdAt + c.tFb.toNat * ms1
      ∨ (look d.pwm.brakes b).fbReleased = (look d.pwm.brakes b).cmdRel) :=
    not_or.mpr ⟨Bool.eq_false_iff.mp unsaid, not_or.mpr ⟨Nat.not_le.mpr late, differs⟩⟩
  simp only [Dev.brakeFbLate, cfg, if_neg isLate]

end

/-! ### Trips (R381, R383) -/

section
variable {d : Dev} {t g low : Nat}

/-- A fall that sets no latch, where no clear waits, only keeps the end of the low. -/
theorem Dev.tripFall_kept (noClear : (look d.pwm.groups g).clearAt = none)
    (noSet : d.tripSets low = false ∨ (look d.pwm.groups g).trip = true) : d.tripFall t g low =
      (d.draw 1).onGroup g (fun y => { y with tripUntil := max y.tripUntil (t + (low * 1024 + 999) / 1000) }) :=
  if_pos ⟨Option.isNone_iff_eq_none.mpr noClear, noSet⟩

/-- A trip turns each low gate on in trip state 1, in a mode with torque, of a group in service. -/
def Dev.tripsLowOn (d : Dev) (g : Nat) (c : ConfigPwmGroup) : Bool :=
  decide (c.tripState = 1) && d.power.mode.torque && !d.isRetired 6 g

theorem Dev.tripsLowOn_off {c : ConfigPwmGroup}
    (off : c.tripState ≠ 1 ∨ d.power.mode.torque = false ∨ d.isRetired 6 g = true) : d.tripsLowOn g c = false := by
  rcases off with other | noTorque | retired
  · rw [Dev.tripsLowOn, decide_eq_false other, Bool.false_and, Bool.false_and]
  · rw [Dev.tripsLowOn, noTorque, Bool.and_false, Bool.false_and]
  · rw [Dev.tripsLowOn, retired, Bool.not_true, Bool.and_false]

theorem Dev.tripsLowOn_on {c : ConfigPwmGroup} (lowOn : c.tripState = 1) (torque : d.power.mode.torque = true)
    (inService : d.isRetired 6 g = false) : d.tripsLowOn g c = true := by
  rw [Dev.tripsLowOn, decide_eq_true lowOn, torque, inService]
  rfl

/-- A fall that sets the latch, or comes while a clear waits, trips the group. -/
theorem Dev.tripFall_trips {c : ConfigPwmGroup} {lowOn : Bool} (cfg : (look d.pwm.groups g).cfg = some c)
    (trips : (d.tripSets low = true ∧ (look d.pwm.groups g).trip = false) ∨ (look d.pwm.groups g).clearAt.isSome = true)
    (gates : d.tripsLowOn g c = lowOn) : d.tripFall t g low =
      (((d.draw 1).onGroup g (fun y => { y with tripUntil := max y.tripUntil (t + (low * 1024 + 999) / 1000) })).onGroup g
        (fun y => { (y.tripGates t c.tDt.toNat lowOn) with trip := true, tripAt := t, clearAt := none, driven := false })
        ).pwmNotice t 0x10 g false true := by
  have notKept : ¬ ((look d.pwm.groups g).clearAt.isNone = true
      ∧ (d.tripSets low = false ∨ (look d.pwm.groups g).trip = true)) := by
    rintro ⟨noClear, kept⟩
    rcases trips with ⟨sets, unlatched⟩ | waits
    · simp [sets, unlatched] at kept
    · rw [Option.isNone_iff_eq_none.mp noClear] at waits
      contradiction
  simp only [Dev.tripFall, if_neg notKept, cfg, ← gates, Dev.tripsLowOn]

end

/-! ### Carrier cycles (R375, R376, R384) -/

section
variable {d : Dev} {t g : Nat} {pins : BitVec 6}

theorem Dev.carrier_unconfigured (unconfigured : (look d.pwm.groups g).cfg = none) : d.carrier t g pins = d := by
  simp only [Dev.carrier, unconfigured]

section
variable {c : ConfigPwmGroup} (cfg : (look d.pwm.groups g).cfg = some c)
include cfg

theorem Dev.carrier_retired (retired : d.isRetired 6 g = true) : d.carrier t g pins = d := by
  simp only [Dev.carrier, cfg, retired, if_true]

section
variable (inService : d.isRetired 6 g = false)
include inService

/-- Between cycle starts the pins are read back, and no more. -/
theorem Dev.carrier_between (between : d.cycleDue t g c = false) : d.carrier t g pins = d.readBack t g pins := by
  simp [Dev.carrier, cfg, inService, between]

/-- Where a cycle opens, it counts, and a driven group runs it. -/
theorem Dev.carrier_opens (opens : d.cycleDue t g c = true) : d.carrier t g pins =
    let o := cycleStart d.time.tc c.nC.toNat (look d.pwm.groups g).cyc
    let l := (look d.pwm.groups g).phases.map (fun p => p.cycle c (finePeriod d.time.tc c.nC.toNat))
    let d1 := (d.readBack t g pins).onGroup g (fun y => { y with cyc := y.cyc + 1 })
    if (look d.pwm.groups g).driven then
      d1.onGroup g (fun y => { y with
        phases := l, gates := phaseGates l, before := y.gates, edgesAt := 25 * d.bk + o, edges := y.cycleEdges c o l })
    else d1 := by
  simp only [Dev.carrier, cfg, inService, opens, Bool.not_true, Bool.false_eq_true, if_false]

end
end
end

/-! ### The obligation -/

/-- Settles O32, row by row: the clauses of a row are the branches of its effect. -/
theorem brakeAndPwmEventsTakeEffect : Obligations.BrakeAndPwmEventsTakeEffect := by
  refine ⟨-- BRAKE_PULL_IN_END
    fun t b c s cfg pullIn passed => exec_eq_after (exec_brakePullInEnd ..)
      ((Dev.pullInEnd_configured cfg).trans (if_pos ⟨pullIn, passed⟩)),
    fun t b c s cfg stays => exec_eq_after (exec_brakePullInEnd ..) (Dev.pullInEnd_stays cfg stays),
    -- BRK_FB_CHANGE
    fun t b v d1 s h1 released => exec_eq_after (exec_brkFbChange ..) ?_,
    fun t b v d1 s h1 engaged => exec_eq_after (exec_brkFbChange ..) ?_,
    -- BRAKE_FB_LATE: on release, on engagement, and in time
    fun t b c s cfg unsaid late engaged release => exec_eq_after (exec_brakeFbLate ..)
      ((Dev.brakeFbLate_late cfg unsaid late (by rw [engaged, release]; decide)).trans (if_pos release)),
    fun t b c s cfg unsaid late released engage => exec_eq_after (exec_brakeFbLate ..)
      ((Dev.brakeFbLate_late cfg unsaid late (by rw [released, engage]; decide)).trans (if_neg (Bool.eq_false_iff.mp engage))),
    fun t b c s cfg inTime => exec_eq_after (exec_brakeFbLate ..) (Dev.brakeFbLate_inTime cfg inTime),
    -- TRIP_N_FALL: with the gates off, with each low gate on, and without a trip
    fun t g low c s cfg trips off => exec_eq_after (exec_tripNFall ..)
      (Dev.tripFall_trips (lowOn := false) cfg trips (Dev.tripsLowOn_off off)),
    fun t g low c s cfg trips lowOn torque inService => exec_eq_after (exec_tripNFall ..)
      (Dev.tripFall_trips (lowOn := true) cfg trips (Dev.tripsLowOn_on lowOn torque inService)),
    fun t g low s noClear noSet => exec_eq_after (exec_tripNFall ..) (Dev.tripFall_kept noClear noSet),
    -- PWM_CARRIER_CYCLE: of a driven group, of another one, between cycle starts, retired, and of no group
    fun t g pins c s cfg inService opens driven => exec_eq_after (exec_pwmCarrierCycle ..)
      ((Dev.carrier_opens cfg inService opens).trans (if_pos driven)),
    fun t g pins c s cfg inService opens rests => exec_eq_after (exec_pwmCarrierCycle ..)
      ((Dev.carrier_opens cfg inService opens).trans (if_neg (Bool.eq_false_iff.mp rests))),
    fun t g pins c s cfg inService between => exec_eq_after (exec_pwmCarrierCycle ..)
      (Dev.carrier_between cfg inService between),
    fun _ _ _ _ => rfl,
    fun t g pins c s cfg retired => exec_eq_after (exec_pwmCarrierCycle ..) (Dev.carrier_retired cfg retired),
    fun t g pins s unconfigured => exec_eq_after (exec_pwmCarrierCycle ..) (Dev.carrier_unconfigured unconfigured),
    -- PWM_COARSE and PWM_COARSE_CLEAR
    fun t g span s off fine => exec_eq_after (exec_pwmCoarse ..)
      ((if_pos off).trans (if_neg (Bool.eq_false_iff.mp fine))),
    fun t g span s off coarse => exec_eq_after (exec_pwmCoarse ..) ((if_pos off).trans (if_pos coarse)),
    fun t g span s near => exec_eq_after (exec_pwmCoarse ..) (if_neg (Nat.not_lt.mpr near)),
    fun t g span s near => exec_eq_after (exec_pwmCoarseClear ..) (if_pos near),
    fun t g span s off => exec_eq_after (exec_pwmCoarseClear ..) (if_neg (Nat.not_le.mpr off))⟩
  · rw [Dev.brakeFb, ← h1, if_pos released]
  · rw [Dev.brakeFb, ← h1, if_neg (Bool.eq_false_iff.mp engaged)]

end Sys2Proof.Machine
end

section
/-! SUPPORT. Proofs about the frames of the deck bus: what a heard frame does by its type, and when it only counts. -/

namespace Sys2Proof.Machine

/-! ### Heard frames (R402, R403, R416) -/

section
variable {d : Dev} {t : Nat} {f : FrameIn} {type : BitVec 8} (eff : Dev → Frame → Dev)

/-- A frame that hearing it passes, and that is no copy, has its effect. -/
theorem Dev.onFrame_first {fr : Frame} (passed : (d.hear t f type).frame = some fr) (first : (d.hear t f type).copy = false) :
    d.onFrame t f type eff = eff (d.hear t f type).dev fr := by
  simp only [Dev.onFrame, passed, first, Bool.false_eq_true, if_false]

theorem Dev.onFrame_copy {fr : Frame} (passed : (d.hear t f type).frame = some fr) (copy : (d.hear t f type).copy = true) :
    d.onFrame t f type eff = (d.hear t f type).dev := by
  simp only [Dev.onFrame, passed, copy, if_true]

theorem Dev.onFrame_refused (refused : (d.hear t f type).frame = none) :
    d.onFrame t f type eff = (d.hear t f type).dev := by
  simp only [Dev.onFrame, refused]

end

/-! ### The rows of the frames -/

theorem exec_feedbackFrame (t : Nat) (f : FrameIn) (s : State) : exec (.feedbackFrame t f) s =
    .next (s.after ((s.dev.advance t).onFrame t f 3 (fun d fr => d.feedback f fr))) := rfl

theorem exec_safetyContainer (t : Nat) (f : FrameIn) (s : State) : exec (.safetyContainer t f) s =
    .next (s.after ((s.dev.advance t).onFrame t f 5 (fun d fr => d.container t f fr))) := rfl

theorem exec_paramResponse (t : Nat) (f : FrameIn) (s : State) : exec (.paramResponse t f) s =
    .next (s.after ((s.dev.advance t).onFrame t f 4 (fun d fr => d.paramResponse t fr))) := rfl

theorem exec_appFrame (t : Nat) (f : FrameIn) (s : State) : exec (.appFrame t f) s =
    .next (s.after ((s.dev.advance t).onFrame t f 6 (fun d fr => d.appBody t f fr))) := rfl

theorem exec_dataFrame (t : Nat) (f : FrameIn) (s : State) : exec (.dataFrame t f) s =
    .next (s.after ((s.dev.advance t).onFrame t f 0x0D (fun d _ => d))) := rfl

/-- The effect of a CLAIM frame: a claim of identity 0 is none (R425). -/
def Dev.claimed (d : Dev) (t : Nat) (f : FrameIn) (fr : Frame) : Dev :=
  if rd 32 fr.payload 0 = 0 then d
  else d.handleClaim t (f.ch.val / 2)
    { id := rd 32 fr.payload 0, type := rd 8 fr.payload 4, chan := BitVec.ofNat 2 (rd 8 fr.payload 5).toNat, size4 := rd 16 fr.payload 6 }

theorem exec_claimFrame (t : Nat) (f : FrameIn) (s : State) : exec (.claimFrame t f) s =
    .next (s.after ((s.dev.advance t).onFrame t f 7 (fun d fr => d.claimed t f fr))) := rfl

section
variable {t : Nat} {f : FrameIn} {s : State}

/-- A SYNC in its window is judged as inside. -/
theorem exec_syncFrame_inside {fr : Frame} (passed : ((s.dev.advance t).hear t f 1).frame = some fr) :
    exec (.syncFrame t f) s = .next (s.after (((s.dev.advance t).hear t f 1).dev.sync t f fr true)) := by
  change execSyncFrame t f s = _
  simp only [execSyncFrame, State.act, passed]

theorem exec_syncFrame_outside {fr : Frame} (refused : ((s.dev.advance t).hear t f 1).frame = none)
    (outside : ((s.dev.advance t).hear t f 1).outside = some fr) :
    exec (.syncFrame t f) s = .next (s.after (((s.dev.advance t).hear t f 1).dev.sync t f fr false)) := by
  change execSyncFrame t f s = _
  simp only [execSyncFrame, State.act, refused, outside]

theorem exec_syncFrame_refused (refused : ((s.dev.advance t).hear t f 1).frame = none)
    (noneOutside : ((s.dev.advance t).hear t f 1).outside = none) :
    exec (.syncFrame t f) s = .next (s.after ((s.dev.advance t).hear t f 1).dev) := by
  change execSyncFrame t f s = _
  simp only [execSyncFrame, State.act, refused, noneOutside]

end

/-! ### The effects (R406 to R408) -/

/-- A FEEDBACK frame with one fresh sample, of a joint that no multiplier drives, sets the record of its node and the feedback
of its joint. -/
theorem Dev.feedback_fresh {d : Dev} {f : FrameIn} {fr : Frame} (one : (rd 8 fr.payload 16).toNat = 1)
    (fresh : (rd 64 fr.payload 0).toNat = d.bk) (joint : (rd 8 fr.payload 32).toNat ≤ 127)
    (noMult : d.multJoint (rd 8 fr.payload 32).toNat = false) :
    let p := fr.payload
    let w := (d.busSet (f.ch.val / 2)).entry f.slot.val
    let node : NodeRec := { applied := (rd 64 p 8).toNat, state := rd 8 p 17, fault := rd 16 p 18, temp := rd 16 p 20 }
    d.feedback f fr = (d.onBus (fun b => { b with nodes := put b.nodes (f.ch.val / 2 * 64 + eOwner w) node })).onJoint
      (rd 8 p 32).toNat (fun x => { x with
        fbCh := BitVec.ofNat 10 (eChan w * 2 ^ (2 * (f.ch.val / 2)))
        fbLast := if x.fbStamp = some (d.bk - d.time.tc) then some x.fb else none, fbStamp := some d.bk
        fb := ((rd 64 p 36).setWidth 48).toInt, fbVel := (rd 32 p 44).toInt, fbTorque := (rd 32 p 48).toInt
        fbCurrent := (rd 32 p 52).toInt, fbState := rd 8 p 33 }) := by
  simp only [Dev.feedback, one, fresh, decide_true, if_true]
  exact if_neg (not_or.mpr ⟨Nat.not_lt.mpr joint, Bool.eq_false_iff.mp noMult⟩)

/-- A response in time answers its transaction. -/
theorem Dev.paramResponse_inTime {d : Dev} {t : Nat} {fr : Frame} {x : ParamTx}
    (belongs : d.bus.params.find? (fun x => x.sent && x.tid == rd 16 fr.payload 0 && rd 8 fr.payload 2 == x.p.op ||| 0x80) = some x)
    (inTime : t ≤ x.deadline) : d.paramResponse t fr = (d.onBus (fun b => { b with params := b.params.erase x })).reply x.hdr
      0x0C10 .ok (wordBytes (rd 16 fr.payload 6) ++ [0, 0] ++ fr.payload.drop 12) := by
  simp only [Dev.paramResponse, belongs, if_neg (Nat.not_lt.mpr inTime)]

/-- The load pose is taken from the slot that DEFINE_LOAD_FRAME names. -/
theorem Dev.appBody_loadPose {d : Dev} {f : FrameIn} {fr : Frame} {c : DefineLoadFrame} (t : Nat)
    (app : (rd 16 fr.payload 0).toNat = 3) (defined : d.deck.loadDef = some c) (segment : c.channel.toNat / 2 = f.ch.val / 2)
    (noRetry : eUse ((d.busSet (f.ch.val / 2)).entry f.slot.val) ≠ 3) (slot : c.slot.toNat = f.slot.val) :
    d.appBody t f fr = d.loadPose (fr.payload.drop 4) := by
  simp [Dev.appBody, app, defined, segment, noRetry, slot]

/-! ### The obligation -/

/-- Settles O26, row by row: each frame has the effect of its type, is a copy, or is refused. -/
theorem receivedFramesTakeEffect : Obligations.ReceivedFramesTakeEffect := by
  refine ⟨-- FEEDBACK_FRAME
    fun t f fr s passed first => exec_eq_after (exec_feedbackFrame ..) (Dev.onFrame_first _ passed first),
    fun t f fr s passed copy => exec_eq_after (exec_feedbackFrame ..) (Dev.onFrame_copy _ passed copy),
    fun t f s refused => exec_eq_after (exec_feedbackFrame ..) (Dev.onFrame_refused _ refused),
    -- SAFETY_CONTAINER
    fun t f fr s passed first => exec_eq_after (exec_safetyContainer ..) (Dev.onFrame_first _ passed first),
    fun t f fr s passed copy => exec_eq_after (exec_safetyContainer ..) (Dev.onFrame_copy _ passed copy),
    fun t f s refused => exec_eq_after (exec_safetyContainer ..) (Dev.onFrame_refused _ refused),
    -- PARAM_RESPONSE
    fun t f fr s passed first => exec_eq_after (exec_paramResponse ..) (Dev.onFrame_first _ passed first),
    fun t f fr s passed copy => exec_eq_after (exec_paramResponse ..) (Dev.onFrame_copy _ passed copy),
    fun t f s refused => exec_eq_after (exec_paramResponse ..) (Dev.onFrame_refused _ refused),
    -- APP_FRAME
    fun t f fr s passed first => exec_eq_after (exec_appFrame ..) (Dev.onFrame_first _ passed first),
    fun t f fr s passed copy => exec_eq_after (exec_appFrame ..) (Dev.onFrame_copy _ passed copy),
    fun t f s refused => exec_eq_after (exec_appFrame ..) (Dev.onFrame_refused _ refused),
    -- CLAIM_FRAME
    fun t f fr s passed first claims => exec_eq_after (exec_claimFrame ..)
      ((Dev.onFrame_first _ passed first).trans (if_neg claims)),
    fun t f fr s passed copy => exec_eq_after (exec_claimFrame ..) (Dev.onFrame_copy _ passed copy),
    fun t f s refused => exec_eq_after (exec_claimFrame ..) (Dev.onFrame_refused _ refused),
    -- DATA_FRAME
    fun t f fr s passed first => exec_eq_after (exec_dataFrame ..) (Dev.onFrame_first _ passed first),
    fun t f fr s passed copy => exec_eq_after (exec_dataFrame ..) (Dev.onFrame_copy _ passed copy),
    fun t f s refused => exec_eq_after (exec_dataFrame ..) (Dev.onFrame_refused _ refused),
    -- a fresh sample, a response in time, and a load pose
    fun t f fr s passed first one fresh joint noMult => exec_eq_after (exec_feedbackFrame ..)
      ((Dev.onFrame_first _ passed first).trans (Dev.feedback_fresh one fresh joint noMult)),
    fun t f fr x s passed first belongs inTime => exec_eq_after (exec_paramResponse ..)
      ((Dev.onFrame_first _ passed first).trans (Dev.paramResponse_inTime belongs inTime)),
    fun t f fr c s passed first app defined segment noRetry slot => exec_eq_after (exec_appFrame ..)
      ((Dev.onFrame_first _ passed first).trans (Dev.appBody_loadPose t app defined segment noRetry slot)),
    -- SYNC_FRAME
    fun t f fr s passed => exec_syncFrame_inside passed, fun t f fr s refused outside => exec_syncFrame_outside refused outside,
    fun t f s refused noneOutside => exec_syncFrame_refused refused noneOutside⟩

end Sys2Proof.Machine
end

section
/-! SUPPORT. Proofs about the leases of a pair: what a GRANT, a REQUEST, a HEALTH and a RELEASE do at the unit and at the arbiter, how
the arbiter decides at its grant slot, and what the loss of a lease does. -/

namespace Sys2Proof.Machine

/-! ### The rows of the leases -/

theorem exec_leaseGrant (t : Nat) (m : LeaseMsg) (s : State) :
    exec (.leaseGrant t m) s = .next (s.after ((s.dev.advance t).leaseGrant t m)) := rfl

theorem exec_leaseRefuse (t : Nat) (m : LeaseMsg) (s : State) :
    exec (.leaseRefuse t m) s = .next (s.after ((s.dev.advance t).leaseRefuse t m)) := rfl

theorem exec_leaseRequestMsg (t : Nat) (m : LeaseMsg) (s : State) :
    exec (.leaseRequestMsg t m) s = .next (s.after ((s.dev.advance t).requestMsg m)) := rfl

theorem exec_leaseReleaseMsg (t : Nat) (m : LeaseMsg) (s : State) :
    exec (.leaseReleaseMsg t m) s = .next (s.after ((s.dev.advance t).releaseMsg m)) := rfl

theorem exec_leaseHealthMsg (t : Nat) (m : LeaseMsg) (s : State) :
    exec (.leaseHealthMsg t m) s = .next (s.after ((s.dev.advance t).healthMsg t m)) := rfl

theorem exec_arbiterDecision (t : Nat) (cell : Fin 16) (s : State) :
    exec (.arbiterDecision t cell) s = .next (s.after ((s.dev.advance t).arbitrate t cell.val)) := rfl

theorem exec_leaseExpiry (t : Nat) (s : State) :
    exec (.leaseExpiry t) s = .next (s.after ((s.dev.advance t).leaseExpiry t)) := rfl

/-! ### GRANT (R441, R445) -/

/-- The lease of a grant: its limit is raised, the unit holds it, and it no longer goes to SHADOW. -/
def Dev.extendLease (d : Dev) (t : Nat) (m : LeaseMsg) : Dev :=
  (d.onPair (fun p => { p with xh := max p.xh m.instant, wasHolder := true, shadowAt := none })).ownNotice t 1 true

section
variable {d : Dev} {t : Nat} {m : LeaseMsg}

theorem Dev.leaseGrant_foreign (foreign : d.ownPairMsg m = false) : d.leaseGrant t m = d :=
  if_pos (.inl ((Bool.not_eq_true' _).mpr foreign))

section
variable (own : d.ownPairMsg m = true) (kind : m.kind = 3)
include own kind

/-- A GRANT of the own pair is taken by the unit that it names; the other unit notes it. -/
theorem Dev.leaseGrant_pair : d.leaseGrant t m = if m.unit.toNat = d.unitBits then d.grantOwn t m else d.grantOther m := by
  refine if_neg ?_
  simp only [own, kind, Bool.not_true, Bool.false_eq_true, ne_eq, not_true_eq_false, or_self, not_false_eq_true]

theorem Dev.leaseGrant_own (named : m.unit.toNat = d.unitBits) : d.leaseGrant t m = d.grantOwn t m := by
  rw [Dev.leaseGrant_pair own kind, if_pos named]

theorem Dev.leaseGrant_other (otherNamed : m.unit.toNat ≠ d.unitBits) : d.leaseGrant t m = d.grantOther m := by
  rw [Dev.leaseGrant_pair own kind, if_neg otherNamed]

end

/-- A unit takes no grant while it reads its partner's lease as running: it is an event of the arbiter's channels. -/
theorem Dev.grantOwn_leaseIn (leaseIn : d.leaseIn = true) :
    d.grantOwn t m = d.arbChans.foldl (fun d ch => d.faultEvent 1 ch t) (d.ownNotice t 0x0A true) := if_pos leaseIn

section
variable (free : d.leaseIn = false)
include free

/-- Nor one that is over, or that a pledge forbids. -/
theorem Dev.grantOwn_ignored (ignored : d.time.valid = false ∨ m.instant ≤ t ∨ t < d.pair.pledge) : d.grantOwn t m = d :=
  (if_neg (Bool.eq_false_iff.mp free)).trans (if_pos (by simpa only [Bool.not_eq_true'] using ignored))

variable (valid : d.time.valid = true) (lasts : t < m.instant) (noPledge : d.pair.pledge ≤ t)
include valid lasts noPledge

/-- Any other ends the pair where it is marked so, and else extends the lease; a standby without one takes over with it. -/
theorem Dev.grantOwn_taken : d.grantOwn t m =
    if m.flags.getLsbD 4 then
      (d.onPair (fun p => { p with dissolved := true, xh := max p.xh m.instant, wasHolder := false })).ownNotice t 1 true
    else if !d.holdsLease ∧ (d.extendLease t m).power.mode = .shadow then (d.extendLease t m).takeover t
    else d.extendLease t m := by
  refine (if_neg (Bool.eq_false_iff.mp free)).trans (if_neg ?_)
  simp only [valid, Nat.not_le.mpr lasts, Nat.not_lt.mpr noPledge, Bool.not_true, Bool.false_eq_true, or_self, not_false_eq_true]

theorem Dev.grantOwn_dissolves (dissolves : m.flags.getLsbD 4 = true) : d.grantOwn t m =
    (d.onPair (fun p => { p with dissolved := true, xh := max p.xh m.instant, wasHolder := false })).ownNotice t 1 true := by
  rw [Dev.grantOwn_taken free valid lasts noPledge, if_pos dissolves]

section
variable (keeps : m.flags.getLsbD 4 = false)
include keeps

theorem Dev.grantOwn_extends (active : (d.extendLease t m).power.mode ≠ .shadow ∨ d.holdsLease = true) :
    d.grantOwn t m = d.extendLease t m := by
  rw [Dev.grantOwn_taken free valid lasts noPledge, if_neg (Bool.eq_false_iff.mp keeps), if_neg]
  rintro ⟨noLease, shadow⟩
  rcases active with notShadow | holds
  · exact notShadow shadow
  · simp [holds] at noLease

theorem Dev.grantOwn_takesOver (shadow : (d.extendLease t m).power.mode = .shadow) (noLease : d.holdsLease = false) :
    d.grantOwn t m = (d.extendLease t m).takeover t := by
  rw [Dev.grantOwn_taken free valid lasts noPledge, if_neg (Bool.eq_false_iff.mp keeps),
    if_pos ⟨(Bool.not_eq_true' _).mpr noLease, shadow⟩]

end
end
end

/-! ### Messages at the arbiter and at the partner (R440, R444) -/

section
variable {d : Dev} {t : Nat} {m : LeaseMsg}

/-- A message of an arbitrated cell from one of its units is kept. -/
theorem Dev.arbiterTakes {kind : Byte} (arb : (d.arbCell m.cell.toNat).isSome = true) (unit : m.unit.toNat ≤ 1)
    (isKind : m.kind = kind) : ¬ ((d.arbCell m.cell.toNat).isNone = true ∨ m.kind ≠ kind ∨ 1 < m.unit.toNat) := by
  obtain ⟨p, hp⟩ := Option.isSome_iff_exists.mp arb
  simp only [hp, isKind, Option.isNone_some, Bool.false_eq_true, ne_eq, not_true_eq_false, Nat.not_lt.mpr unit, or_self,
    not_false_eq_true]

@[simp] theorem Dev.keepMessage_inPair : (d.keepMessage m).inPair = d.inPair := by
  unfold Dev.keepMessage
  dsimp only
  split <;> rfl

/-- A device in no pair takes no message as its partner's. -/
theorem Dev.ownPairMsg_noPair (noPair : d.inPair = false) : d.ownPairMsg m = false := by
  simp only [Dev.ownPairMsg, noPair, Bool.false_and]

theorem Dev.requestMsg_noArbiter (noArb : d.arbCell m.cell.toNat = none) : d.requestMsg m = d :=
  if_pos (.inl (Option.isNone_iff_eq_none.mpr noArb))

section
variable (arb : (d.arbCell m.cell.toNat).isSome = true) (unit : m.unit.toNat ≤ 1)
include arb unit

theorem Dev.requestMsg_arbiter (kind : m.kind = 2) : d.requestMsg m =
    (d.keepMessage m).onCell m.cell.toNat (fun c => { c with request := some (m.unit.toNat, m.stamp) }) :=
  if_neg (Dev.arbiterTakes arb unit kind)

section
variable (noPair : d.inPair = false)
include noPair

theorem Dev.releaseMsg_arbiter (kind : m.kind = 5) : d.releaseMsg m =
    (d.keepMessage m).onCell m.cell.toNat (fun c => { c with release := some (m.unit.toNat, m.instant) }) := by
  have stays (f : ArbCell → ArbCell) : ((d.keepMessage m).onCell m.cell.toNat f).ownPairMsg m = false :=
    Dev.ownPairMsg_noPair (Dev.keepMessage_inPair.trans noPair)
  simp only [Dev.releaseMsg, if_neg (Dev.arbiterTakes arb unit kind), stays, Bool.false_eq_true, false_and, if_false]

theorem Dev.healthMsg_arbiter (kind : m.kind = 1) : d.healthMsg t m =
    (d.keepMessage m).onCell m.cell.toNat (fun c =>
      if c.holder = some m.unit.toNat ∧ !m.flags.getLsbD 1 ∧ c.grantAt < m.stamp then { c with holder := none, x := c.prevX } else c) := by
  have stays (f : ArbCell → ArbCell) : ((d.keepMessage m).onCell m.cell.toNat f).ownPairMsg m = false :=
    Dev.ownPairMsg_noPair (Dev.keepMessage_inPair.trans noPair)
  simp only [Dev.healthMsg, if_neg (Dev.arbiterTakes arb unit kind), stays, Bool.false_eq_true, false_and, if_false]

end
end

section
variable (noArb : d.arbCell m.cell.toNat = none) (own : d.ownPairMsg m = true) (partner : m.unit.toNat = 1 - d.unitBits)
include noArb own partner

theorem Dev.releaseMsg_partner (kind : m.kind = 5) :
    d.releaseMsg m = d.onPair (fun p => { p with partnerX := min p.partnerX m.instant }) := by
  simp only [Dev.releaseMsg, noArb, Option.isNone_none, true_or, if_true]
  exact if_pos ⟨own, kind, partner⟩

theorem Dev.healthMsg_partner (kind : m.kind = 1) : d.healthMsg t m = (d.onPair (fun p => { p with
    partnerFit := m.flags.getLsbD 0, partnerDig := m.digest
    partnerX := if m.flags.getLsbD 1 then p.partnerX else min p.partnerX t })).checkFit t := by
  simp only [Dev.healthMsg, noArb, Option.isNone_none, true_or, if_true]
  exact if_pos ⟨own, kind, partner⟩

end

/-- A REFUSE that does not name this unit of its pair changes nothing. -/
theorem Dev.leaseRefuse_other (other : d.ownPairMsg m = false ∨ m.kind ≠ 4 ∨ m.unit.toNat ≠ d.unitBits) :
    d.leaseRefuse t m = d := by
  refine if_neg ?_
  rintro ⟨own, kind, named⟩
  rcases other with foreign | otherKind | otherNamed
  · exact Bool.false_ne_true (foreign.symm.trans own)
  · exact otherKind kind
  · exact otherNamed named

end

/-! ### The decision of the arbiter (R444, R454) -/

/-- The messages of a cell are taken at its grant slot. -/
def Dev.clearCell (d : Dev) (cell : Nat) : Dev :=
  d.onCell cell (fun c => { c with request := none, release := none, sent := none })

section
variable {d : Dev} {t cell : Nat} {p : ArbitratePair}

theorem Dev.arbitrate_none (noArb : d.arbCell cell = none) : d.arbitrate t cell = d := by
  simp only [Dev.arbitrate, noArb]

section
variable (arb : d.arbCell cell = some p)
include arb

theorem Dev.arbitrate_otherSlot (other : t ≠ d.slotStart 4 p.slot.toNat) : d.arbitrate t cell = d := by
  simp only [Dev.arbitrate, arb, if_pos other]

section
variable (now : t = d.slotStart 4 p.slot.toNat)
include now

theorem Dev.arbitrate_dissolves (dissolves : (look d.pair.cells cell).dissolve = true) : d.arbitrate t cell =
    ((d.clearCell cell).onCell cell (fun c => { c with
      cfg := some { p with enable := 0 }, holder := none, dissolve := false })).answerPair t
        { kind := 3, cell := BitVec.ofNat 8 cell, unit := BitVec.ofNat 8 ((look d.pair.cells cell).holder.getD 0), flags := 0x10,
          instant := 2 ^ 64 - 1, stamp := t } := by
  simp only [Dev.arbitrate, arb, if_neg (not_not.mpr now), dissolves, if_true, Dev.clearCell]

section
variable (stays : (look d.pair.cells cell).dissolve = false)
include stays

theorem Dev.arbitrate_free (noHolder : (look d.pair.cells cell).holder = none) :
    d.arbitrate t cell = (d.clearCell cell).decideFree t cell p.g.toNat := by
  simp only [Dev.arbitrate, arb, if_neg (not_not.mpr now), stays, noHolder, Bool.false_eq_true, if_false, Dev.clearCell]

section
variable {h : Nat} (holder : (look d.pair.cells cell).holder = some h)
include holder

/-- A holder that asked in this cycle is granted its lease where it asked before its limit, and else refused. -/
theorem Dev.arbitrate_asked {st : Nat} (request : (look d.pair.cells cell).request = some (h, st)) (since : d.bk ≤ st) :
    d.arbitrate t cell =
      if st < (look d.pair.cells cell).x ∧ d.time.valid then (d.clearCell cell).grantTo t cell h
      else (((d.clearCell cell).onCell cell (fun c => { c with holder := none })).answerPair t
        { kind := 4, cell := BitVec.ofNat 8 cell, unit := BitVec.ofNat 8 h, status := BitVec.ofNat 16 Status.lease.code,
          stamp := t }).pairNotice t 4 cell h true := by
  simp only [Dev.arbitrate, arb, if_neg (not_not.mpr now), stays, holder, request, since, and_self, Bool.false_eq_true, if_true,
    if_false, Dev.clearCell]

section
variable (noRequest : (look d.pair.cells cell).request = none)
include noRequest

/-- The release of a holder that did not ask is taken. -/
theorem Dev.arbitrate_released {tr : Nat} (release : (look d.pair.cells cell).release = some (h, tr))
    (before : tr < (look d.pair.cells cell).x) : d.arbitrate t cell =
      ((d.clearCell cell).onCell cell (fun c => { c with x := tr, holder := none })).journalLease t
        { kind := 5, cell := BitVec.ofNat 8 cell, unit := BitVec.ofNat 8 h, instant := tr } := by
  simp only [Dev.arbitrate, arb, if_neg (not_not.mpr now), stays, holder, noRequest, release, before, and_self,
    Bool.false_eq_true, if_true, if_false, Dev.clearCell]

/-- A silent holder keeps a lease that still runs; where it does not, the pair is free. -/
theorem Dev.arbitrate_silent (noRelease : (look d.pair.cells cell).release = none) : d.arbitrate t cell =
    if t < (look d.pair.cells cell).x ∧ d.time.valid then d.clearCell cell
    else ((d.clearCell cell).onCell cell (fun c => { c with holder := none })).decideFree t cell p.g.toNat := by
  simp only [Dev.arbitrate, arb, if_neg (not_not.mpr now), stays, holder, noRequest, noRelease, Bool.false_eq_true, if_false,
    Dev.clearCell]

end
end
end
end
end
end

/-- A limit that has passed, or an invalid CT. -/
theorem not_within_of_lapsed {x st : Nat} {valid : Bool} (lapsed : x ≤ st ∨ valid = false) : ¬ (st < x ∧ valid = true) := by
  rintro ⟨before, isValid⟩
  rcases lapsed with passed | invalid
  · exact Nat.not_le.mpr before passed
  · exact Bool.false_ne_true (invalid.symm.trans isValid)

/-! ### The lapse of a lease (R445) -/

section
variable {d : Dev} {t : Nat}

theorem Dev.leaseExpiry_held (holds : d.holdsLease = true) : d.leaseExpiry t = d := by
  refine if_neg ?_
  rw [holds]
  exact fun lapsed => Bool.false_ne_true lapsed.2.2

/-- A lapsed lease is reported, and ends a mode with torque in SHADOW. -/
theorem Dev.leaseExpiry_lapsed (was : d.pair.wasHolder = true) (inPair : d.inPair = true) (lapsed : d.holdsLease = false) :
    d.leaseExpiry t =
      let d1 := { d with pair := { d.pair with wasHolder := false, applied := false } }.notice 1 0 t 0x0D02
        (BitVec.ofNat 32 (d.pair.cell.toNat % 16 + d.unitBits % 4 * 16 + d.time.k % 65536 * 65536)) true
      if d.power.mode.torque then (d1.applyBrakes t true).eventMode t .shadow 0 else d1 := by
  rw [Dev.leaseExpiry, if_pos ⟨was, inPair, (Bool.not_eq_true' _).mpr lapsed⟩]
  simp only [Dev.loseLease, Dev.notice_power]

end

/-! ### The obligation -/

/-- Settles O28, row by row: the clauses of a row are the branches of its effect. -/
theorem leaseMessagesTakeEffect : Obligations.LeaseMessagesTakeEffect := by
  refine ⟨-- LEASE_GRANT to this unit
    fun t m s own kind named leaseIn => exec_eq_after (exec_leaseGrant ..)
      ((Dev.leaseGrant_own own kind named).trans (Dev.grantOwn_leaseIn leaseIn)),
    fun t m s own kind named free ignored => exec_eq_after (exec_leaseGrant ..)
      ((Dev.leaseGrant_own own kind named).trans (Dev.grantOwn_ignored free ignored)),
    fun t m s own kind named free valid lasts noPledge dissolves => exec_eq_after (exec_leaseGrant ..)
      ((Dev.leaseGrant_own own kind named).trans (Dev.grantOwn_dissolves free valid lasts noPledge dissolves)),
    fun t m s own kind named free valid lasts noPledge keeps active => exec_eq_after (exec_leaseGrant ..)
      ((Dev.leaseGrant_own own kind named).trans (Dev.grantOwn_extends free valid lasts noPledge keeps active)),
    fun t m s own kind named free valid lasts noPledge keeps shadow noLease => exec_eq_after (exec_leaseGrant ..)
      ((Dev.leaseGrant_own own kind named).trans
        (Dev.grantOwn_takesOver free valid lasts noPledge keeps shadow noLease)),
    -- LEASE_GRANT to the other unit, and of another pair
    fun t m s own kind otherNamed dissolves => exec_eq_after (exec_leaseGrant ..)
      ((Dev.leaseGrant_other own kind otherNamed).trans (if_pos dissolves)),
    fun t m s own kind otherNamed keeps => exec_eq_after (exec_leaseGrant ..)
      ((Dev.leaseGrant_other own kind otherNamed).trans (if_neg (Bool.eq_false_iff.mp keeps))),
    fun t m s foreign => exec_eq_after (exec_leaseGrant ..) (Dev.leaseGrant_foreign foreign),
    -- LEASE_REFUSE
    fun t m s own kind named => exec_eq_after (exec_leaseRefuse ..) (if_pos ⟨own, kind, named⟩),
    fun t m s other => exec_eq_after (exec_leaseRefuse ..) (Dev.leaseRefuse_other other),
    -- LEASE_REQUEST_MSG
    fun t m s noArb => exec_eq_after (exec_leaseRequestMsg ..) (Dev.requestMsg_noArbiter noArb),
    fun t m s arb unit kind => exec_eq_after (exec_leaseRequestMsg ..) (Dev.requestMsg_arbiter arb unit kind),
    -- LEASE_RELEASE_MSG
    fun t m s arb unit kind noPair => exec_eq_after (exec_leaseReleaseMsg ..) (Dev.releaseMsg_arbiter arb unit noPair kind),
    fun t m s noArb own kind partner => exec_eq_after (exec_leaseReleaseMsg ..) (Dev.releaseMsg_partner noArb own partner kind),
    -- LEASE_HEALTH_MSG
    fun t m s arb unit kind noPair => exec_eq_after (exec_leaseHealthMsg ..) (Dev.healthMsg_arbiter arb unit noPair kind),
    fun t m s noArb own kind partner => exec_eq_after (exec_leaseHealthMsg ..) (Dev.healthMsg_partner noArb own partner kind),
    -- ARBITER_DECISION: without an arbitrated pair, outside its slot, with a dissolution
    fun t cell s noArb => exec_eq_after (exec_arbiterDecision ..) (Dev.arbitrate_none noArb),
    fun t cell p s arb other => exec_eq_after (exec_arbiterDecision ..) (Dev.arbitrate_otherSlot arb other),
    fun t cell p s arb now dissolves => exec_eq_after (exec_arbiterDecision ..) (Dev.arbitrate_dissolves arb now dissolves),
    -- of a holder that asked in time, asked too late, released, is silent, has lapsed, and without a holder
    fun t cell p h st s arb now stays holder request since before valid => exec_eq_after (exec_arbiterDecision ..)
      ((Dev.arbitrate_asked arb now stays holder request since).trans (if_pos ⟨before, valid⟩)),
    fun t cell p h st s arb now stays holder request since lapsed => exec_eq_after (exec_arbiterDecision ..)
      ((Dev.arbitrate_asked arb now stays holder request since).trans (if_neg (not_within_of_lapsed lapsed))),
    fun t cell p h tr s arb now stays holder noRequest release before => exec_eq_after (exec_arbiterDecision ..)
      (Dev.arbitrate_released arb now stays holder noRequest release before),
    fun t cell p h s arb now stays holder noRequest noRelease before valid => exec_eq_after (exec_arbiterDecision ..)
      ((Dev.arbitrate_silent arb now stays holder noRequest noRelease).trans (if_pos ⟨before, valid⟩)),
    fun t cell p h s arb now stays holder noRequest noRelease lapsed => exec_eq_after (exec_arbiterDecision ..)
      ((Dev.arbitrate_silent arb now stays holder noRequest noRelease).trans (if_neg (not_within_of_lapsed lapsed))),
    fun t cell p s arb now stays noHolder => exec_eq_after (exec_arbiterDecision ..)
      (Dev.arbitrate_free arb now stays noHolder),
    -- LEASE_EXPIRY: in a mode with torque, in another, and of a lease that runs
    fun t s was inPair lapsed torque => exec_eq_after (exec_leaseExpiry ..)
      ((Dev.leaseExpiry_lapsed was inPair lapsed).trans (if_pos torque)),
    fun t s was inPair lapsed noTorque => exec_eq_after (exec_leaseExpiry ..)
      ((Dev.leaseExpiry_lapsed was inPair lapsed).trans (if_neg (Bool.eq_false_iff.mp noTorque))),
    fun t s holds => exec_eq_after (exec_leaseExpiry ..) (Dev.leaseExpiry_held holds)⟩

end Sys2Proof.Machine
end

section
/-! SUPPORT. Proofs about the mirror link: what the parts of a record, their acknowledgements and their delay do. -/

namespace Sys2Proof.Machine

/-! ### The rows of the mirror link -/

theorem exec_mirrorLinkUp (t : Nat) (lanes : BitVec 2) (roundTrip : Nat) (s : State) :
    exec (.mirrorLinkUp t lanes roundTrip) s = .next (s.after ((s.dev.advance t).mirrorUp t lanes roundTrip)) := rfl

theorem exec_mirrorPart (t : Nat) (p : MirrorPart) (s : State) :
    exec (.mirrorPart t p) s = .next (s.after ((s.dev.advance t).mirrorPart t p)) := rfl

theorem exec_mirrorAck (t : Nat) (period : BitVec 32) (pledge : Nat) (s : State) :
    exec (.mirrorAck t period pledge) s = .next (s.after ((s.dev.advance t).mirrorAck pledge)) := rfl

theorem exec_mirrorNack (t : Nat) (period : BitVec 32) (part : Fin 16) (s : State) :
    exec (.mirrorNack t period part) s = .next (s.after ((s.dev.advance t).mirrorNack period part.val)) := rfl

theorem exec_mirrorRelease (t : Nat) (s : State) :
    exec (.mirrorRelease t) s = .next (s.after ((s.dev.advance t).mirrorRelease t)) := rfl

theorem exec_mirrorLate (t : Nat) (s : State) :
    exec (.mirrorLate t) s = .next (s.after ((s.dev.advance t).mirrorLate t)) := rfl

/-! ### Parts (R447 to R449) -/

/-- A part joins the record in reception. -/
def Pair.takePart (x : Pair) (p : MirrorPart) : Pair :=
  { x with
    parts := p.part :: x.parts.filter (· ≠ p.part)
    badPart := if x.badPart = some p.part then none else x.badPart
    lastPart := if p.last then some p.part else x.lastPart
    recNew := match p.rec? with
      | some r => r
      | none => x.recNew }

/-- Every part of the record in reception is there, up to its last one. -/
def Pair.whole (x : Pair) : Bool :=
  match x.lastPart with
  | some n => (List.range (n.toNat + 1)).all (fun i => decide (BitVec.ofNat 8 i ∈ x.parts))
  | none => false

/-- A standby of a pair with a lane up receives parts. -/
structure Dev.ReceivesParts (d : Dev) : Prop where
  inPair : d.inPair = true
  standby : d.holdsLease = false
  lanes : d.lanesUp ≠ []
  notDormant : d.power.mode ≠ .dormant
  notBoot : d.power.mode ≠ .boot

/-- A part of whole words that belongs to the record in reception. -/
structure Dev.Receives (d : Dev) (p : MirrorPart) : Prop extends d.ReceivesParts where
  short : p.length.toNat ≤ 4096
  words : p.length.toNat % 4 = 0
  current : d.pair.recNo = some p.period

section
variable {d : Dev} {t : Nat} {p : MirrorPart}

theorem Dev.ReceivesParts.notRefused (h : d.ReceivesParts) : ¬ ((!d.inPair) = true ∨ d.holdsLease = true ∨ d.lanesUp = []
    ∨ d.power.mode = .dormant ∨ d.power.mode = .boot) := by
  simp only [h.inPair, h.standby, h.lanes, h.notDormant, h.notBoot, Bool.not_true, Bool.false_eq_true, or_self,
    not_false_eq_true]

/-- A part of a bad length is an event of its lanes. -/
theorem Dev.mirrorPart_badLength (h : d.ReceivesParts) (bad : 4096 < p.length.toNat ∨ p.length.toNat % 4 ≠ 0) : d.mirrorPart t p = d.laneEvents t :=
  (if_neg h.notRefused).trans (if_pos bad)

section
variable (h : d.Receives p)
include h

/-- A part of the record in reception is marked bad or joins it, and completes it where it is the last one missing. -/
theorem Dev.mirrorPart_current : d.mirrorPart t p =
    if !p.crcOk then (d.laneEvents t).onPair (fun x => { x with
      badPart := some p.part, out := x.out ++ [.nack p.period p.part.toNat] })
    else if (d.pair.takePart p).whole then
      ((d.onPair (·.takePart p)).onPair Pair.dropRecord).recordDone t (d.pair.takePart p).recNew
    else d.onPair (·.takePart p) := by
  have lengthOk : ¬ (4096 < p.length.toNat ∨ p.length.toNat % 4 ≠ 0) :=
    not_or.mpr ⟨Nat.not_lt.mpr h.short, not_not.mpr h.words⟩
  rw [Dev.mirrorPart, if_neg h.notRefused, if_neg lengthOk, if_pos h.current]
  rfl

theorem Dev.mirrorPart_badCheck (bad : p.crcOk = false) : d.mirrorPart t p = (d.laneEvents t).onPair (fun x => { x with
    badPart := some p.part, out := x.out ++ [.nack p.period p.part.toNat] }) := by
  rw [Dev.mirrorPart_current h, bad]
  rfl

section
variable (good : p.crcOk = true)
include good

/-- A record whose last part has not come is kept. -/
theorem Dev.mirrorPart_kept (notLast : p.last = false) (noLast : d.pair.lastPart = none) (noRec : p.rec? = none) :
    d.mirrorPart t p = d.onPair (fun x => { x with
      parts := p.part :: x.parts.filter (· ≠ p.part), badPart := if x.badPart = some p.part then none else x.badPart }) := by
  have open_ : (d.pair.takePart p).whole = false := by simp only [Pair.whole, Pair.takePart, notLast, noLast]; rfl
  rw [Dev.mirrorPart_current h, good, open_]
  simp only [Pair.takePart, notLast, noRec]
  rfl

/-- Part 0, where it is the last one, completes its record. -/
theorem Dev.mirrorPart_completes {r : MirrorRec} (last : p.last = true) (first : p.part = 0) (isRec : p.rec? = some r) :
    d.mirrorPart t p = ((d.onPair (fun x => { x with
      parts := p.part :: x.parts.filter (· ≠ p.part), lastPart := some p.part, recNew := r
      badPart := if x.badPart = some p.part then none else x.badPart })).onPair Pair.dropRecord).recordDone t r := by
  have complete : (d.pair.takePart p).whole = true := by
    simp [Pair.whole, Pair.takePart, last, first]
  rw [Dev.mirrorPart_current h, good, complete]
  simp only [Pair.takePart, last, isRec]
  rfl

end
end
end

/-! ### Late records (R448) -/

theorem Dev.mirrorLate_none {d : Dev} (t : Nat) (noRecord : d.pair.recNo = none) : d.mirrorLate t = d := by
  simp only [Dev.mirrorLate, noRecord]

/-- A record that is late by half a period is dropped. -/
theorem Dev.mirrorLate_late {d : Dev} {t : Nat} {p : BitVec 32} (current : d.pair.recNo = some p)
    (late : d.boundary (d.fullPeriod p + 1) + d.time.tc / 2 < t) :
    d.mirrorLate t = ((d.onPair Pair.dropRecord).laneEvents t).ownNotice t 9 false := by
  simp only [Dev.mirrorLate, current, if_pos late]

/-! ### The obligation -/

/-- Settles O29, row by row: the clauses of a row are the branches of its effect. -/
theorem mirrorEventsTakeEffect : Obligations.MirrorEventsTakeEffect := by
  refine ⟨-- MIRROR_LINK_UP
    fun t l r s inPair => exec_eq_after (exec_mirrorLinkUp ..) (if_pos inPair),
    fun t l r s noPair => exec_eq_after (exec_mirrorLinkUp ..) (if_neg (Bool.eq_false_iff.mp noPair)),
    -- MIRROR_PART: of a bad length, with a bad check, without and with the last part of its record
    fun t p s inPair standby lanes notDormant notBoot bad => exec_eq_after (exec_mirrorPart ..)
      (Dev.mirrorPart_badLength ⟨inPair, standby, lanes, notDormant, notBoot⟩ bad),
    fun t p s inPair standby lanes notDormant notBoot short words current bad => exec_eq_after (exec_mirrorPart ..)
      (Dev.mirrorPart_badCheck ⟨⟨inPair, standby, lanes, notDormant, notBoot⟩, short, words, current⟩ bad),
    fun t p s inPair standby lanes notDormant notBoot short words current good notLast noLast noRec =>
      exec_eq_after (exec_mirrorPart ..)
        (Dev.mirrorPart_kept ⟨⟨inPair, standby, lanes, notDormant, notBoot⟩, short, words, current⟩
          good notLast noLast noRec),
    fun t p r s inPair standby lanes notDormant notBoot short words current good last first isRec =>
      exec_eq_after (exec_mirrorPart ..)
        (Dev.mirrorPart_completes ⟨⟨inPair, standby, lanes, notDormant, notBoot⟩, short, words, current⟩
          good last first isRec),
    -- MIRROR_ACK, MIRROR_NACK, MIRROR_RELEASE
    fun t p pledge s holds => exec_eq_after (exec_mirrorAck ..) (if_pos holds),
    fun t p part s holds firstAsked => exec_eq_after (exec_mirrorNack ..) (if_pos ⟨holds, firstAsked⟩),
    fun t p part s asked => exec_eq_after (exec_mirrorNack ..) (if_neg fun again => again.2 asked),
    fun t s inPair => exec_eq_after (exec_mirrorRelease ..) (if_pos inPair),
    -- MIRROR_LATE
    fun t p s current late => exec_eq_after (exec_mirrorLate ..) (Dev.mirrorLate_late current late),
    fun t s noRecord => exec_eq_after (exec_mirrorLate ..) (Dev.mirrorLate_none t noRecord)⟩

end Sys2Proof.Machine
end

section
/-! SUPPORT. Proofs about the safety timers: safe stop 1 on time, the deadline of a monitored stop, brake tests. -/

namespace Sys2Proof.Machine

/-! ### The rows of the timers -/

theorem exec_ss1TimeExpiry (t : Nat) (s : State) :
    exec (.ss1TimeExpiry t) s = .next (s.after ((s.dev.advance t).ss1Time t)) := rfl

theorem exec_stopDeadline (t : Nat) (s : State) :
    exec (.stopDeadline t) s = .next (s.after ((s.dev.advance t).stopDeadline t)) := rfl

theorem exec_brakeTestPhase (t : Nat) (s : State) :
    exec (.brakeTestPhase t) s = .next (s.after ((s.dev.advance t).testPhase t)) := rfl

theorem exec_brakeTestDue (t : Nat) (b : Fin 16) (s : State) :
    exec (.brakeTestDue t b) s = .next (s.after ((s.dev.advance t).testDue t b.val)) := rfl

/-! ### Safe stop 1 on time (R470) -/

section
variable {d : Dev} {t : Nat} {x : Ss1} {c : ConfigStops}
  (stopping : d.safety.ss1 = some x) (stops : d.stops = some c)
include stopping stops

theorem Dev.ss1Time_eq :
    d.ss1Time t = if c.ss1Mode = 1 ∧ x.e + c.tSs1.toNat ≤ t then d.followSs1 t else d := by
  simp only [Dev.ss1Time, stopping, stops]

theorem Dev.ss1Time_ends (timed : c.ss1Mode = 1) (ended : x.e + c.tSs1.toNat ≤ t) : d.ss1Time t = d.followSs1 t := by
  rw [Dev.ss1Time_eq stopping stops, if_pos ⟨timed, ended⟩]

theorem Dev.ss1Time_early (early : t < x.e + c.tSs1.toNat) : d.ss1Time t = d := by
  rw [Dev.ss1Time_eq stopping stops, if_neg fun due => Nat.not_le.mpr early due.2]

end

/-! ### The deadline of a monitored stop (R471) -/

section
variable {d : Dev} {t : Nat} {c : ConfigStops} (stops : d.stops = some c)
include stops

/-- A stop that is overdue raises STO in a mode with torque, and only there. -/
theorem Dev.stopDeadline_overdue {a : Nat} {w : Watch}
    (found : (d.markStill t).safety.watch.find? (fun e => e.2.overdue c t) = some (a, w)) :
    d.stopDeadline t =
      if (d.markStill t).power.mode.torque then (d.markStill t).stoReaction t 0x15 0 false else d.markStill t := by
  simp only [Dev.stopDeadline, stops, found]

theorem Dev.stopDeadline_met (found : (d.markStill t).safety.watch.find? (fun e => e.2.overdue c t) = none) :
    d.stopDeadline t = d.markStill t := by
  simp only [Dev.stopDeadline, stops, found]

end

/-! ### Brake tests (R478) -/

section
variable {d : Dev} {t : Nat} {x : BrakeTesting} (testing : d.safety.test = some x)
include testing

theorem Dev.testPhase_stays (early : t < x.until_ ∨ x.phase = .wait) : d.testPhase t = d := by
  rcases early with early | wait
  · simp only [Dev.testPhase, testing, if_pos early]
  · simp only [Dev.testPhase, testing, wait, ite_self]

variable (ended : x.until_ ≤ t)
include ended

theorem Dev.testPhase_plus (phase : x.phase = .apply) :
    d.testPhase t = d.onSafety (fun y =>
      { y with test := some { x with phase := .plus, until_ := x.until_ + x.p.tTest.toNat * ms1 } }) := by
  simp only [Dev.testPhase, testing, if_neg (Nat.not_lt.mpr ended), phase]

theorem Dev.testPhase_minus (phase : x.phase = .plus) :
    d.testPhase t = d.onSafety (fun y =>
      { y with test := some { x with phase := .minus, until_ := x.until_ + x.p.tTest.toNat * ms1 } }) := by
  simp only [Dev.testPhase, testing, if_neg (Nat.not_lt.mpr ended), phase]

theorem Dev.testPhase_passes (phase : x.phase = .minus) : d.testPhase t = (d.endBrakeTest t 0).sweep t := by
  simp only [Dev.testPhase, testing, if_neg (Nat.not_lt.mpr ended), phase]

end

section
variable {d : Dev} {t b : Nat} {c : ConfigSbc} (tests : d.sbc = some c)
include tests

theorem Dev.testDue_stays
    (notDue : c.brakes.getLsbD b = false ∨ d.safety.dueSaid.getLsbD b = true ∨
      t ≤ look d.safety.lastPass b + c.tBt.toNat * 3686400000000) :
    d.testDue t b = d := by
  simp only [Dev.testDue, tests]
  refine if_neg fun ⟨tested, notSaid, elapsed⟩ => ?_
  rcases notDue with untested | said | early
  · exact Bool.false_ne_true (untested.symm.trans tested)
  · exact Bool.false_ne_true ((Bool.not_eq_true' _ ▸ notSaid).symm.trans said)
  · exact Nat.not_lt.mpr early elapsed

theorem Dev.testDue_noticed (tested : c.brakes.getLsbD b = true) (notSaid : d.safety.dueSaid.getLsbD b = false)
    (elapsed : look d.safety.lastPass b + c.tBt.toNat * 3686400000000 < t) :
    d.testDue t b = (d.onSafety (fun y => { y with dueSaid := setBit y.dueSaid b true })).notice 9 0 t 0x0E06
      (safetyArg 0x18 b false) true := by
  simp only [Dev.testDue, tests]
  exact if_pos ⟨tested, Bool.not_eq_true' _ ▸ notSaid, elapsed⟩

end

/-! ### The obligation -/

/-- Settles O31, row by row: the clauses of a row are the branches of its effect. -/
theorem safetyTimersTakeEffect : Obligations.SafetyTimersTakeEffect := by
  refine ⟨-- SS1_TIME_EXPIRY
    fun t x c s stopping stops timed ended => exec_eq_after (exec_ss1TimeExpiry ..)
      (Dev.ss1Time_ends stopping stops timed ended),
    fun t x c s stopping stops early => exec_eq_after (exec_ss1TimeExpiry ..)
      (Dev.ss1Time_early stopping stops early),
    -- STOP_DEADLINE: overdue with torque, overdue without, met
    fun t c a w s stops found torque => exec_eq_after (exec_stopDeadline ..)
      ((Dev.stopDeadline_overdue stops found).trans (if_pos torque)),
    fun t c a w s stops found noTorque => exec_eq_after (exec_stopDeadline ..)
      ((Dev.stopDeadline_overdue stops found).trans (if_neg (Bool.eq_false_iff.mp noTorque))),
    fun t c s stops found => exec_eq_after (exec_stopDeadline ..) (Dev.stopDeadline_met stops found),
    -- BRAKE_TEST_PHASE
    fun t x s testing ended phase => exec_eq_after (exec_brakeTestPhase ..) (Dev.testPhase_plus testing ended phase),
    fun t x s testing ended phase => exec_eq_after (exec_brakeTestPhase ..) (Dev.testPhase_minus testing ended phase),
    fun t x s testing ended phase => exec_eq_after (exec_brakeTestPhase ..) (Dev.testPhase_passes testing ended phase),
    fun t x s testing early => exec_eq_after (exec_brakeTestPhase ..) (Dev.testPhase_stays testing early),
    -- BRAKE_TEST_DUE
    fun t b c s tests notDue => exec_eq_after (exec_brakeTestDue ..) (Dev.testDue_stays tests notDue),
    fun t b c s tests tested notSaid elapsed => exec_eq_after (exec_brakeTestDue ..)
      (Dev.testDue_noticed tests tested notSaid elapsed)⟩

end Sys2Proof.Machine
end
